-- ==== Sys2Proof/Word.lean ====
section
/-! DEFINITION. The unit of storage of the LQ-960 model: the byte. Numbers are read from bytes
little-endian (R9); that reading stands in Machine/Bits.lean. -/
namespace Sys2Proof

/-- One byte of a packet, a buffer, a Cask image or host memory (R9). -/
abbrev Byte := BitVec 8

/-- A 32-bit register (R11) or doorbell word (R358). -/
abbrev Word32 := BitVec 32

end Sys2Proof
end

