-- ==== Sys2Proof/Syntax.lean ====
section
/-! DEFINITION. The commands the LQ-960 takes from outside, one constructor of `Instr` for each row of
spec/opcode_table.json, with the row's operands.

A Chiwin row (0x0000 to 0x0D03) is a packet that has been fetched and serialized and now reaches
dispatch (R28, R32): its operand is the packet. A WRA row is one packet arriving at a port (R116).
The other rows are register accesses of the host, internal events of the engine and events on its pins:
their operands say which object the event is about. Time is not a row of its own: a row whose effect
depends on the serialization cycle (R28) carries the number of that cycle. -/
set_option autoImplicit false

namespace Sys2Proof

/-- A phase word (R53): 16-bit source ID and 48-bit count. -/
structure PhaseWord where
  src : Nat
  count : Nat
deriving DecidableEq, Repr, Inhabited

/-- The routes by which a Chiwin packet reaches the engine ("From doorbell to reply", R41). -/
inductive Route where
  | pf | vf | wra | sideband
deriving DecidableEq, Repr, Inhabited

/-- The status codes of R39 and of the chapters that add to it (R122, R221, R242, R299, R378, R395, R421,
R444, R469). -/
inductive Status where
  | ok | placedSpec | racked | refreshedAuto
  | badOpcode | badParam | badHeader | digestMismatch
  | badState | overruled | busyRetry | wedged | flushed | engineHalted
  | accessViolation | keyRevoked | keyExpired | hostFault | rootZeroized
  | noResource | spilled | peerLost
  | keyMismatch | noiseSpent | shareUnwrap | cuffAuth | blobAuth
  | onceRule | belowCohort | shareConflict | shareAuth | notAggregate
  | entropyNotReady | entropyFailed
  | replayRequested | integrityFault
  | rollbackRefused | imageAuth | storeFault
deriving DecidableEq, Repr, Inhabited

/-- What a status reply says beside tag and phase word (R24): status, detail and result words 0 to 3. -/
structure Answer where
  status : Status
  detail : Nat := 0
  r0 : Nat := 0
  r1 : Nat := 0
  r2 : Nat := 0
  r3 : Nat := 0
deriving DecidableEq, Repr, Inhabited

/-- A fetched and serialized Chiwin packet (R20, R28): the header fields the engine keeps, the parameter
bytes, the stamp, the serialization cycle and the arrival order. -/
structure Packet where
  route : Route
  /-- the command queue that carried the packet (R27); of no meaning on the sideband -/
  queue : Nat
  opcode : Nat
  /-- header context: 0 to 15 a Glove, 16 the Vintner (R20) -/
  ctx : Nat
  vintage : Nat
  tag : Nat
  priority : Nat
  fence : Bool
  ordered : Bool
  params : List Byte
  stamp : PhaseWord
  cycle : Nat
  /-- position in the order of serialization (R28), unique to the packet -/
  order : Nat
  /-- opcode of the command this one overruled in its cycle, or 0 (R25, R41) -/
  overruled : Nat := 0
  /-- the entropy this command waits for has been drawn (R389) -/
  drawn : Bool := false
  /-- for PHASE_TICK: what the ingress serializer found (R62) -/
  tick : Option Answer := none
  /-- free-running index of the header's slot (R33, R37) -/
  slot : Nat := 0
  /-- what is fixed at serialization: for QUEUE_FLUSH F, the target's producer index (R37); for VINTAGE_OPEN
  the guarantee in bit 0 (R70) and the key generation above (R419) -/
  mark : Option Nat := none
  /-- offset of the first header field with a non-zero reserved bit (R10, R20) -/
  reservedAt : Option Nat := none
deriving DecidableEq, Repr, Inhabited

/-- The 8-byte Trellis header of R153. -/
structure TrellisHeader where
  dest : Nat
  source : Nat
  origin : Nat
  subclass : Bool
  hops : Nat
deriving DecidableEq, Repr, Inhabited

/-- The IP and UDP fields of a packet (R112, R114): family, protocol, fragment, 802.1Q tag, addresses and ports. -/
structure IpInfo where
  ipv4 : Bool := false
  protocol : Nat := 17
  fragment : Bool := false
  vlan : Option Nat := none
  source : Nat := 0
  dest : Nat := 0
  srcPort : Nat := 0xC000
  dstPort : Nat := 50600
deriving DecidableEq, Repr, Inhabited

/-- An arriving WRA packet (R115, R116). -/
structure WraPacket where
  port : Nat
  version : Nat := 1
  first : Bool := false
  last : Bool := false
  spec : Bool := false
  trigger : Bool := false
  ackReq : Bool := false
  path : Nat := 0
  conn : Nat
  incarnation : Nat
  psn : Nat := 0
  msg : Nat := 0
  key : Nat := 0
  trigTag : Nat := 0
  offset : Nat := 0
  trellis : Option TrellisHeader := none
  ext : List Byte := []
  payload : List Byte := []
  ip : IpInfo := {}
  /-- flag SEALED: `payload` is the ciphertext, `counter` and `tag` the seal's (R116, R147, R148) -/
  sealedP : Bool := false
  tag : List Byte := []
  /-- the packet is as its sender sent it: the ICRC of one that is not sealed verifies (R115) -/
  intact : Bool := true
  /-- the packet carries the ECN CE codepoint (R130) -/
  ce : Bool := false
  /-- the seal counter of a sealed packet (R148) -/
  counter : Nat := 0
  cycle : Nat := 0
deriving DecidableEq, Repr, Inhabited

/-- A write of the host to its own memory, made visible before a doorbell (R360): function (0 the PF,
g + 1 the VF of Glove g), I/O virtual address and bytes. -/
structure HostWrite where
  fn : Nat
  addr : Nat
  bytes : List Byte
deriving DecidableEq, Repr, Inhabited

/-- A work descriptor that the Cellarmaster issues to a unit, as the integrity controller sees it (R47): context and
opcode of the command that produced it, the Glove ID it carries, the Cellar granules and LPDDR channels it addresses,
its Vat slot and its class. -/
structure WorkDescriptor where
  context : Nat
  opcode : Nat
  glove : Nat
  granules : List Nat
  channels : List Nat
  slot : Nat
  cls : Nat
deriving DecidableEq, Repr, Inhabited

/-- Causes of a Cellarmaster restart that CM_FAULT reports (R44, R52): an uncorrectable memory error, or a work
descriptor at its check. -/
inductive CmCause where
  | ecc | descriptor (d : WorkDescriptor)
deriving DecidableEq, Repr, Inhabited

/-- An internal wait that LIVE ends at 10 ms (R72, R143): that of a dispatched command, by its order, or that of the head of
a send queue for an entry of the trigger or wait table. -/
inductive LiveWait where
  | command (order : Nat)
  | head (queue : Nat)
deriving DecidableEq, Repr, Inhabited

/-- The conventional resets of R353. -/
inductive LinkReset where
  | perst | hotReset | dlDown
deriving DecidableEq, Repr, Inhabited

/-- What a failing host DMA read was made for (R362). -/
inductive DmaTarget where
  | commandRing (queue : Nat)
  | sendRing (queue : Nat)
  | window (conn psn : Nat)
  | context (conn : Nat)
deriving DecidableEq, Repr, Inhabited

/-- Why the read fails: a host fault (R362), or a refused Cuff record (R368: tag, or freshness), with the
record's number. -/
inductive DmaCause where
  | hostFault
  | cuffTag (record : Nat)
  | cuffFresh (record : Nat)
deriving DecidableEq, Repr, Inhabited

/-- The health tests of R381. -/
inductive HealthTest where
  | alive | notLocked | repetition | adaptive
deriving DecidableEq, Repr, Inhabited

/-- The work a tasted tile belongs to (R446): the Glove and the class, with the object the class writes. -/
inductive TastedWork where
  | press (glove vintage cask : Nat)
  | lattice (glove cls cask : Nat)
  | release (glove cls vintage piece : Nat)
  | move (glove cask : Nat)
deriving DecidableEq, Repr, Inhabited

/-- A tasted tile and what its runs gave, in the order of R449; after the fifth, the shadow runs of R464. -/
structure TileRuns where
  tile : Nat
  results : List (List Nat)
deriving DecidableEq, Repr, Inhabited

/-- A copy of carried stripes as the Hub finds it (R455): coordinates that were copied wrong with the value there, and
whether every word passed its ECC check. -/
structure StripeCopy where
  errors : List (Nat × Nat)
  eccGood : Bool
deriving DecidableEq, Repr, Inhabited

/-- The conditions of R478. -/
inductive ThrottleCond where
  | power (stillAbove : Bool) | peak | vat95 | vat100 | inlet | flow
deriving DecidableEq, Repr, Inhabited

/-- The trip causes of R481, coded as GBL_PWR.TRIP_CAUSE (R499). -/
inductive TripCause where
  | junction | inlet | flow | overVoltage
deriving DecidableEq, Repr, Inhabited

/-- The tamper sources of R399. -/
inductive TamperSource where
  | mesh | caseSwitch | voltage | temperature | light
deriving DecidableEq, Repr, Inhabited

/-- What the telemetry unit measured over the calendar second just ended (R478, R500): each exit
condition held throughout it, and the readings of R500. -/
structure SecondReadings where
  junctionExit : Bool
  inletExit : Bool
  flowExit : Bool
  watts : Nat
  peakMs : Nat
  millivolts : Nat
  amps10m : Nat
  inlet : Nat
  outlet : Nat
  vatTj : Nat
  hubTj : Nat
  flow : Nat
  auxMv : Nat
  vbatMv : Nat
deriving DecidableEq, Repr, Inhabited

/-- The commands of the block: one constructor for each row of spec/opcode_table.json, in its order. -/
inductive Instr where
  /-- NOP, R32: Command with no effect that echoes up to 16 parameter bytes in its result words. -/
  | nop (p : Packet)
  /-- QUEUE_CREATE, R35: Creates a queue of a given type, depth and binding from the pool. -/
  | queueCreate (p : Packet)
  /-- QUEUE_DESTROY, R36: Discards a queue's unfetched and staged packets, then destroys the queue once every dispatched packet has its reply. -/
  | queueDestroy (p : Packet)
  /-- QUEUE_FLUSH, R37: Discards whole undispatched packets before the recorded producer index and returns a HALTED queue to ACTIVE. -/
  | queueFlush (p : Packet)
  /-- QUEUE_QUERY, R359: Returns a queue's indices, staged count, state and the number of packets awaiting a reply. -/
  | queueQuery (p : Packet)
  /-- SESSION_KEYGEN, R372: Generates an ML-KEM-1024 key pair and writes the encapsulation key; the Glove's session becomes KEYED. -/
  | sessionKeygen (p : Packet)
  /-- SESSION_OPEN, R371: Decapsulates the ciphertext, derives the Cuff keys, checks the host confirmation and establishes the session. -/
  | sessionOpen (p : Packet)
  /-- SESSION_CLOSE, R373: Ends a non-confidential session and zeroes its keys and record table. -/
  | sessionClose (p : Packet)
  /-- SESSION_QUERY, R370: Returns the session state, the refused record count and the engine counter. -/
  | sessionQuery (p : Packet)
  /-- VINTAGE_CREATE, R103: Creates a Vintage in DRAFT with its deadlines, floor, noise, policy and shard parameters. -/
  | vintageCreate (p : Packet)
  /-- CASK_ALLOC, R91: Allocates a Cask over a ring with the chosen placement and reserves its Cellar and LPDDR. -/
  | caskAlloc (p : Packet)
  /-- CASK_FREE, R108: Zeroes and frees a Cask's granules and LPDDR. -/
  | caskFree (p : Packet)
  /-- VINTAGE_OPEN, R56: Draws the fingerprint keys, takes the key generation and moves the Vintage from DRAFT to OPEN. -/
  | vintageOpen (p : Packet)
  /-- VINTAGE_SEAL, R17: Seals an OPEN Vintage before its close, resolving Lees and fixing the survivor set. -/
  | vintageSeal (p : Packet)
  /-- VINTAGE_CLOSE, R104: Revokes the Vintage's windows, frees its bound Casks and moves it from RELEASED to CLOSED. -/
  | vintageClose (p : Packet)
  /-- VINTAGE_ABORT, R104: Aborts a non-released Vintage, preempting lower-ranked work and discarding its state. -/
  | vintageAbort (p : Packet)
  /-- VINTAGE_QUERY, R108: Returns a Vintage's state, flags and Racked counts. -/
  | vintageQuery (p : Packet)
  /-- CASK_QUERY, R90: Returns a Cask's ring, placement, role, size and binding. -/
  | caskQuery (p : Packet)
  /-- LEES_RACK, R229: Moves the named clients to RACKED and posts any held-back conflict events. -/
  | leesRack (p : Packet)
  /-- LEES_RETRACT, R230: Moves the named clients to RETRACTING, or to RETRACTED when they have nothing to remove. -/
  | leesRetract (p : Packet)
  /-- CASK_ADJUST, R235: Checks a staging vector against the client digest and then subtracts or adds it to an accumulate Cask. -/
  | caskAdjust (p : Packet)
  /-- MASK_SETUP, R216: Sets the masking graph mode, degree, threshold, salt and flags, and reserves the ledger LPDDR. -/
  | maskSetup (p : Packet)
  /-- GRAPH_LOAD, R198: Loads uploaded graph records and checks symmetry when the last record is filled. -/
  | graphLoad (p : Packet)
  /-- PUBKEY_LOAD, R200: Loads and checks client public keys and commitments into the registry. -/
  | pubkeyLoad (p : Packet)
  /-- SHARE_SUBMIT, R205: Checks a batch of share records as one unit under the Once rule and stores it, rebuilding secrets that reach threshold. -/
  | shareSubmit (p : Packet)
  /-- LEDGER_QUERY, R204: Returns Seed Ledger totals or one client's ledger status. -/
  | ledgerQuery (p : Packet)
  /-- MASK_KEYGEN, R218: Generates a self-mask seed and a key-agreement key into two slots of a MASKER Glove. -/
  | maskKeygen (p : Packet)
  /-- MASK_APPLY, R218: Masks an update in place with the self mask and the pair masks. -/
  | maskApply (p : Packet)
  /-- SHARE_SPLIT, R219: Shares a mask secret into sealed share records, one per holder. -/
  | shareSplit (p : Packet)
  /-- LAT_PARAM_LOAD, R245: Loads a lattice parameter set and its prime entries. -/
  | latParamLoad (p : Packet)
  /-- LAT_UNLOAD, R261: Removes a parameter set or a key set and zeroes its storage. -/
  | latUnload (p : Packet)
  /-- LAT_KEYSET_CREATE, R261: Creates an empty key set bound to a loaded parameter set. -/
  | latKeysetCreate (p : Packet)
  /-- LAT_EVK_LOAD, R262: Loads an evaluation key and regenerates its random half as a check. -/
  | latEvkLoad (p : Packet)
  /-- LAT_BIND, R248: Binds a ring-3 Cask as a ciphertext Cask and writes its headers. -/
  | latBind (p : Packet)
  /-- LAT_IMPORT, R251: Marks tenant-written ciphertexts VALID as fresh encryptions. -/
  | latImport (p : Packet)
  /-- LAT_HDR_READ, R253: Copies ciphertext headers out to a window. -/
  | latHdrRead (p : Packet)
  /-- LAT_ADD, R255: Adds ciphertexts elementwise. -/
  | latAdd (p : Packet)
  /-- LAT_SUB, R255: Subtracts ciphertexts elementwise. -/
  | latSub (p : Packet)
  /-- LAT_MUL_CONST, R266: Multiplies ciphertexts by a signed constant. -/
  | latMulConst (p : Packet)
  /-- LAT_MUL_PLAIN, R266: Multiplies ciphertexts by plaintexts. -/
  | latMulPlain (p : Packet)
  /-- LAT_MUL, R258: Multiplies ciphertexts in waves with relinearisation. -/
  | latMul (p : Packet)
  /-- LAT_ROTATE, R258: Applies a Galois automorphism with a key switch in waves. -/
  | latRotate (p : Packet)
  /-- LAT_RESCALE, R266: Drops the top modulus with rescaling. -/
  | latRescale (p : Packet)
  /-- LAT_LEVEL_DROP, R255: Drops levels of CKKS ciphertexts elementwise. -/
  | latLevelDrop (p : Packet)
  /-- LAT_FORM, R256: Converts ciphertexts between coefficient and NTT form. -/
  | latForm (p : Packet)
  /-- LAT_ENCRYPT_PK, R266: Encrypts plaintexts under the key set's PUBLIC key with drawn randomness. -/
  | latEncryptPk (p : Packet)
  /-- REFRESH_SETUP, R275: Sets a key set's refresh configuration and reports its derived figures. -/
  | refreshSetup (p : Packet)
  /-- LUT_LOAD, R286: Expands a lookup table into a test polynomial in every Vat. -/
  | lutLoad (p : Packet)
  /-- LUT_FREE, R286: Removes a lookup table. -/
  | lutFree (p : Packet)
  /-- REFRESH_PACKED, R278: Runs the packed refresh on construction-1 ciphertexts. -/
  | refreshPacked (p : Packet)
  /-- REFRESH_LWE, R284: Runs programmable refresh with a table on LWE ciphertexts. -/
  | refreshLwe (p : Packet)
  /-- SCHEME_SWITCH, R287: Applies tables to every slot of packed ciphertexts through programmable refresh. -/
  | schemeSwitch (p : Packet)
  /-- THR_SHARE_LOAD, R292: Unwraps and loads the threshold key share of a key set in masked halves. -/
  | thrShareLoad (p : Packet)
  /-- THR_PARTIAL, R294: Writes flooded partial decryptions of engine sums against the decryption allowance. -/
  | thrPartial (p : Packet)
  /-- VINTAGE_RELEASE, R300: Starts the release of a READY Vintage: noise draw, commit, noise add, recipe and completion. -/
  | vintageRelease (p : Packet)
  /-- RECIPE_LOAD, R314: Checks and loads a recipe's steps and returns its digest. -/
  | recipeLoad (p : Packet)
  /-- RECIPE_FREE, R314: Removes a loaded recipe. -/
  | recipeFree (p : Packet)
  /-- WINDOW_CREATE, R132: Creates a window with rights on a Cask, host memory or a queue. -/
  | windowCreate (p : Packet)
  /-- WINDOW_REVOKE, R136: Bumps a window's generation and replies once every packet checked before the bump has been placed. -/
  | windowRevoke (p : Packet)
  /-- WINDOW_QUERY, R135: Returns a window's rights, length and access counts. -/
  | windowQuery (p : Packet)
  /-- CONN_CREATE, R120: Creates a connection, increments its incarnation and sends CONNECT. -/
  | connCreate (p : Packet)
  /-- CONN_DESTROY, R119: Sends CLOSE and replies once the connection has been removed. -/
  | connDestroy (p : Packet)
  /-- CONN_QUERY, R119: Returns a connection's state, visibility point, next PSN and round trip. -/
  | connQuery (p : Packet)
  /-- TRIGGER_CANCEL, R142: Disarms triggered requests with a given await tag. -/
  | triggerCancel (p : Packet)
  /-- FAULT_INJECT, R150: Sets drop, corruption and reordering injection on one of the Glove's connections. -/
  | faultInject (p : Packet)
  /-- TRELLIS_JOIN, R154: Opens the bypass, trains the Trellis ports and replies once the first heartbeat returns. -/
  | trellisJoin (p : Packet)
  /-- TRELLIS_LEAVE, R154: Moves Trellis connections to CLOSING and closes the bypass. -/
  | trellisLeave (p : Packet)
  /-- TRELLIS_STATUS, R155: Returns the member ID, bypass state, membership size and ring epoch. -/
  | trellisStatus (p : Packet)
  /-- GLOVE_ASSIGN, R324: Assigns a FREE Glove its resources, draws its reset nonce and makes it ACTIVE. -/
  | gloveAssign (p : Packet)
  /-- GLOVE_RESET, R341: Starts the Glove reset sequence that keeps the Glove's resources. -/
  | gloveReset (p : Packet)
  /-- GLOVE_RELEASE, R341: Starts the reset sequence that ends with the Glove FREE. -/
  | gloveRelease (p : Packet)
  /-- GLOVE_MODE_SET, R70: Sets the Glove's guarantee and AUTO_REFRESH bit. -/
  | gloveModeSet (p : Packet)
  /-- GLOVE_QUERY, R344: Returns a Glove's state, configuration, slots and shares in any state. -/
  | gloveQuery (p : Packet)
  /-- KEY_OWNER_SET, R405: Imports the owner secret, stores its digest and derives the Glove base. -/
  | keyOwnerSet (p : Packet)
  /-- KEY_LOAD, R408: Checks and unwraps a key blob into a slot. -/
  | keyLoad (p : Packet)
  /-- KEY_INVALIDATE, R416: Lists a key ID as revoked and drains or evicts its descendants. -/
  | keyInvalidate (p : Packet)
  /-- KEY_CREATE, R406: Generates, derives or imports a key into a slot, optionally wrapping it out. -/
  | keyCreate (p : Packet)
  /-- KEY_EVICT, R415: Zeroes a slot and closes the connections sealed under it. -/
  | keyEvict (p : Packet)
  /-- KEY_QUERY, R412: Returns a slot's attributes or the context's key totals. -/
  | keyQuery (p : Packet)
  /-- KEY_ROTATE_SET, R420: Schedules or cancels a key-generation rotation at a phase. -/
  | keyRotateSet (p : Packet)
  /-- ATTEST_REPORT, R431: Builds and signs an attestation report of module or Glove scope. -/
  | attestReport (p : Packet)
  /-- CERT_READ, R428: Writes the certificate chain to a window. -/
  | certRead (p : Packet)
  /-- ENDORSE_LOAD, R429: Checks and stores the vendor endorsement. -/
  | endorseLoad (p : Packet)
  /-- FW_STAGE, R437: Begins, writes or finishes and checks the staging of an image in the non-running slot. -/
  | fwStage (p : Packet)
  /-- FW_SELECT, R439: Activates a verified slot for a trial, confirms a trial image or cancels a pending slot. -/
  | fwSelect (p : Packet)
  /-- FW_QUERY, R436: Returns the firmware slot states, versions and life cycle. -/
  | fwQuery (p : Packet)
  /-- LC_TRANSITION, R424: Moves the life-cycle state forward with certificate, new roots and fuse burn, then resets. -/
  | lcTransition (p : Packet)
  /-- DEBUG_SET, R426: Records the pending debug state for the next full reset. -/
  | debugSet (p : Packet)
  /-- ENT_READ, R387: Draws conditioned entropy bytes from the Glove's share or the reserve into a window. -/
  | entRead (p : Packet)
  /-- ENT_STATUS, R396: Returns the Entropy Unit's state, source roles and rates. -/
  | entStatus (p : Packet)
  /-- ENT_SOURCE_CTRL, R392: Retests, moves to TEST or returns a single noise source. -/
  | entSourceCtrl (p : Packet)
  /-- ENT_RAW_READ, R393: Writes raw samples of a TEST source to a window. -/
  | entRawRead (p : Packet)
  /-- INT_VAT_CTRL, R452: Suspects, returns or retires a Vat. -/
  | intVatCtrl (p : Packet)
  /-- INT_BIST, R463: Runs logic or memory BIST on a TESTING or RETIRED Vat. -/
  | intBist (p : Packet)
  /-- INT_HISTORY_READ, R466: Writes unit history records in raw or CPER form. -/
  | intHistoryRead (p : Packet)
  /-- INT_QUERY, R470: Returns a Vat's integrity state, chases and Gloves striped on it. -/
  | intQuery (p : Packet)
  /-- PHASE_TICK, R62: Advances a COORDINATOR Glove's phase count to a target, making events fall due. -/
  | phaseTick (p : Packet)
  /-- PHASE_SOURCE_SET, R57: Sets a Glove's phase source type, source ID, queue and stall limit. -/
  | phaseSourceSet (p : Packet)
  /-- CAL_SET, R66: Sets the calendar clock and ticks every CALENDAR Glove forward. -/
  | calSet (p : Packet)
  /-- PHASE_QUERY, R53: Returns a Glove's phase word or the calendar, with the next due phase. -/
  | phaseQuery (p : Packet)
  /-- MODULE_RESET, R496: Starts a full reset of the module with no reply. -/
  | moduleReset (p : Packet)
  /-- MODULE_STATUS, R492: Returns power state, power, temperatures, flow and throttle. -/
  | moduleStatus (p : Packet)
  /-- POWER_CAP_SET, R501: Sets the power cap to take effect at the next calendar second. -/
  | powerCapSet (p : Packet)
  /-- GBL_CTRL_RESET, R499: A write of RESET with the correct KEY starts a full reset. -/
  | gblCtrlReset (value : Word32)
  /-- GBL_DB_PROD, R359: Host write of a new producer index for a command or send queue. -/
  | gblDbProd (fn queue : Nat) (index : Word32) (slots : List (List Byte)) (visible : List HostWrite)
  /-- GBL_DB_CONS, R360: Host write of a new consumer index for an engine-filled queue. -/
  | gblDbCons (fn queue : Nat) (index : Word32)
  /-- PHS_COUNT_LO_READ, R69: Reading the low phase count latches the high half. -/
  | phsCountLoRead (fn glove : Nat)
  /-- CAL_MS_LO_READ, R69: Reading the low calendar count latches the high half. -/
  | calMsLoRead
  /-- ENT_BLOCKS_LO_READ, R396: Reading the low released-block count latches the high half. -/
  | entBlocksLoRead
  /-- INT_TASTED_LO_READ, R470: Reading the low tasted-tile count latches the high half. -/
  | intTastedLoRead
  /-- GBL_CM_STATUS_READ, R52: Reading the Cellarmaster status clears its corrected-ECC count. -/
  | gblCmStatusRead
  /-- PHS_REFUSED_READ, R69: Reading the refused-tick count clears it. -/
  | phsRefusedRead (fn glove : Nat)
  /-- PRT_RX_DROP_READ, R131: Reading a port's drop counts clears them. -/
  | prtRxDropRead (port : Nat)
  /-- PRT_NAKS_READ, R126: Reading a port's NAK count clears it. -/
  | prtNaksRead (port : Nat)
  /-- PRT_MISS_DROP_READ, R146: Reading the miss-buffer drop count clears it. -/
  | prtMissDropRead
  /-- FIJ_COUNT_READ, R150: Reading a port's injected-fault count clears it. -/
  | fijCountRead (port : Nat)
  /-- ENT_DISCARD_READ, R396: Reading the discarded-block count clears it. -/
  | entDiscardRead
  /-- ENT_UNUSED_READ, R396: Reading the unused-block count clears it. -/
  | entUnusedRead
  /-- KEY_REMASK_LATE_READ, R422: Reading the late re-mask count clears it. -/
  | keyRemaskLateRead
  /-- INT_MISMATCH_READ, R470: Reading the arbitrated and unresolved counts clears them. -/
  | intMismatchRead
  /-- TEL_PIN_PEAK_READ, R500: Reading the peak power clears it. -/
  | telPinPeakRead
  /-- TEL_THR_COUNT_READ, R500: Reading the throttle-increase count clears it. -/
  | telThrCountRead
  /-- CAL_STATUS_WRITE, R69: Write-1-to-clear of the calendar LOST and TAMPER_SEEN bits. -/
  | calStatusWrite (value : Word32)
  /-- KEY_TAMPER_WRITE, R422: Write-1-to-clear of the tamper source bits. -/
  | keyTamperWrite (value : Word32)
  /-- CAL_TRIM_WRITE, R67: Sets the calendar rate trim. -/
  | calTrimWrite (value : Word32)
  /-- PRT_CTRL_WRITE, R111: Enables or disables a data port and its IP versions, starting or stopping link training. -/
  | prtCtrlWrite (port : Nat) (value : Word32)
  /-- FIJ_CTRL_WRITE, R150: Starts or stops fault injection on a whole port. -/
  | fijCtrlWrite (port : Nat) (value : Word32)
  /-- REGISTER_WRITE, R11: A write to any register field without behaviour of its own. -/
  | registerWrite (offset : Nat) (value : Word32)
  /-- COMMAND_FETCH, R27: Fetches a packet once all its slots are published and a reply entry is reserved, then checks its header and serializes it. -/
  | commandFetch (queue cycle : Nat)
  /-- STAGED_PROMOTION, R30: A packet staged for 10 ms is moved to the tail of class 0. -/
  | stagedPromotion (order : Nat)
  /-- SIDEBAND_PACKET, R491: An MCTP message on the I3C sideband delivers a Chiwin packet into the sideband buffer. -/
  | sidebandPacket (bytes : List Byte) (cycle : Nat)
  /-- MCTP_RESET_MESSAGE, R491: The MCTP reset message starts a full reset. -/
  | mctpResetMessage (serial : Nat)
  /-- CM_FAULT, R44: An uncorrectable memory error or failed descriptor check restarts the Cellarmaster, or halts it on the third fault. -/
  | cmFault (cause : CmCause)
  /-- WATCHDOG_EXPIRE, R46: The watchdog restarts the Cellarmaster after 1 ms without service. -/
  | watchdogExpire
  /-- CM_RESTART_DONE, R48: After reload and journal replay, stored replies are posted, uncommitted commands re-dispatched and fetching resumes. -/
  | cmRestartDone (durationUs : Nat)
  /-- CALENDAR_MS_TICK, R55: Each calendar millisecond advances the count of every CALENDAR Glove. -/
  | calendarMsTick (cycle : Nat)
  /-- STALL_FALLBACK_ENTER, R58: The stall limit expires without a tick and the sequencer enters stall fallback. -/
  | stallFallbackEnter (glove : Nat)
  /-- STALL_FALLBACK_TICK, R58: In fallback, each calendar millisecond advances the count with source ID 0xFFFE. -/
  | stallFallbackTick (glove cycle : Nat)
  /-- CONTRIBUTION_CLOSE_DUE, R17: Contribution close falls due and the Vintage seals under its SEAL_POLICY. -/
  | contributionCloseDue (glove vintage : Nat)
  /-- SHARE_CLOSE_DUE, R64: Share close falls due: the ledger closes, SUSPECT secrets are decoded and the Vintage enters UNMASKING. -/
  | shareCloseDue (glove vintage : Nat)
  /-- CHECKPOINT_DUE, R99: A checkpoint phase falls due for the accumulate Casks of an OPEN Vintage. -/
  | checkpointDue (glove vintage : Nat)
  /-- KEY_ROTATION_DUE, R420: The scheduled rotation phase falls due and the key generation advances. -/
  | keyRotationDue (glove : Nat)
  /-- CHECKPOINT_CUT, R99: Once every packet stamped at or below the phase is placed or dropped, the cut is taken and the copy begins. -/
  | checkpointCut (glove cask : Nat)
  /-- CHECKPOINT_COPY_DONE, R100: The copy to the checkpoint slot completes and the image is read back for verification. -/
  | checkpointCopyDone (glove cask : Nat) (errors : List (Nat × Nat))
  /-- CHECKPOINT_VERIFY_DONE, R101: Verification ends: on a match the checkpoint is verified, on a mismatch the Cask starts rolling back. -/
  | checkpointVerifyDone (glove cask : Nat)
  /-- ROLLBACK_RESTORE_DONE, R181: The Cask's restore completes, REPLAY notices are sent and packets are accepted again. -/
  | rollbackRestoreDone (glove cask : Nat)
  /-- VINTAGE_READY, R213: The last pending correction or removal completes and the Vintage enters READY. -/
  | vintageReady (glove vintage : Nat)
  /-- RELEASE_COMMIT, R300: The noise draw completes and the Vintage enters RELEASED. -/
  | releaseCommit (glove vintage : Nat)
  /-- RELEASE_COMPLETE, R300: The noise add and recipe finish: export windows are created, buffers zeroed and the reply posted. -/
  | releaseComplete (glove vintage : Nat)
  /-- LIVE_WAIT_TIMEOUT, R72: An internal wait of a LIVE command reaches 10 ms and ends with its timeout status. -/
  | liveWaitTimeout (wait : LiveWait)
  /-- ACCUMULATE, R165: An arriving ACCUMULATE packet is checked, tested once and its add issued into the Cask. -/
  | accumulate (w : WraPacket)
  /-- WRITE, R125: An arriving WRITE packet is checked and placed at its window offset. -/
  | write (w : WraPacket)
  /-- READ_REQ, R125: An arriving READ_REQ is executed once visible and its data returned. -/
  | readReq (w : WraPacket)
  /-- READ_RESP, R123: An arriving READ_RESP matching an issued request is placed in the response window. -/
  | readResp (w : WraPacket)
  /-- ATOMIC, R117: An arriving ATOMIC performs FETCH_ADD or COMPARE_SWAP and returns the previous value. -/
  | atomic (w : WraPacket)
  /-- ATOMIC_RESP, R123: An arriving ATOMIC_RESP matching an issued request is accepted once. -/
  | atomicResp (w : WraPacket)
  /-- SEND, R502: An arriving SEND reserves slots in its receive or command queue, or is refused when full. -/
  | send (w : WraPacket)
  /-- ACK, R149: An arriving ACK advances visibility, credit and SACK and may trigger fast retransmission. -/
  | ack (w : WraPacket)
  /-- STATUS, R126: An arriving STATUS or NAK decides the status of the sender's message. -/
  | status (w : WraPacket)
  /-- CONNECT, R120: An arriving CONNECT records the peer's incarnation and boot epoch and establishes the connection. -/
  | connect (w : WraPacket)
  /-- CONNECT_ACK, R119: An arriving CONNECT_ACK moves a CONNECTING connection to ESTABLISHED. -/
  | connectAck (w : WraPacket)
  /-- CLOSE, R119: An arriving CLOSE moves the connection to CLOSING. -/
  | close (w : WraPacket)
  /-- PARTIAL, R158: An arriving PARTIAL is placed into the reducer's Cask and counted in its partial tally. -/
  | partialPkt (w : WraPacket)
  /-- HEARTBEAT, R155: An arriving heartbeat is forwarded or removed and updates the membership. -/
  | heartbeat (w : WraPacket)
  /-- SHARD, R97: An arriving SHARD REPORT or RESULT is stored at the lead or fixes the shard's survivor set. -/
  | shard (w : WraPacket)
  /-- PACKET_PLACED, R166: The add or refusal of a packet completes, the visibility point advances and its effects become observable. -/
  | packetPlaced (conn space psn : Nat)
  /-- COUNTER_WAIT_RELEASE, R143: A watched counter reaches its threshold and releases the waiting send queue. -/
  | counterWaitRelease (queue : Nat)
  /-- WORK_REQUEST_EXECUTE, R139: The send queue carries out its next work request. -/
  | workRequestExecute (queue : Nat)
  /-- ACK_GAP_TIMER, R127: A gap below the highest received PSN lasting 2 µs triggers one ACK. -/
  | ackGapTimer (conn space : Nat)
  /-- ACK_IDLE_TIMER, R127: 10 µs with unacknowledged packets triggers an ACK. -/
  | ackIdleTimer (conn space : Nat)
  /-- RETRANSMIT_TIMEOUT, R129: A PSN's retransmission timer expires and it is sent again with the timer doubled. -/
  | retransmitTimeout (conn space psn : Nat)
  /-- ATTEMPT_LIMIT, R121: Retransmission reaches its attempt limit; the connection enters ERROR or HELD. -/
  | attemptLimit (conn : Nat)
  /-- PATH_HOLD_EXPIRE, R124: A path barred for congestion or loss becomes usable again after 100 µs. -/
  | pathHoldExpire (conn path : Nat)
  /-- RATE_INCREASE_TICK, R130: Every 10 µs without CE the engine raises its sending rate by 1 Gb/s. -/
  | rateIncreaseTick (conn : Nat)
  /-- SEAL_COUNTER_EXHAUSTED, R148: A seal counter reaches 2^48 and the connection enters ERROR or HELD. -/
  | sealCounterExhausted (conn : Nat)
  /-- CONTEXT_FETCH_DONE, R145: A spilled connection context arrives and its parked packets and waiting work are processed. -/
  | contextFetchDone (conn : Nat)
  /-- CONN_REMOVE, R506: A CLOSING connection is removed once its outstanding work has ended. -/
  | connRemove (conn : Nat)
  /-- HEARTBEAT_ORIGINATE, R155: Every 100 µs the member originates a heartbeat. -/
  | heartbeatOriginate
  /-- MEMBER_TIMEOUT, R155: A member whose heartbeat is not seen for 20 ms leaves the membership. -/
  | memberTimeout (member : Nat)
  /-- DISPATCH_TURN, R31: A context's 4 µs dispatch turn begins and up to 16 staged packets are dispatched. -/
  | dispatchTurn (ctx : Nat)
  /-- MSIX_MESSAGE, R337: A vector's threshold or delay is met after its minimum interval and its MSI-X message is sent. -/
  | msixMessage (fn vector : Nat)
  /-- MSIX_UNMASK, R338: The host unmasks a vector and a pending message is sent at once. -/
  | msixUnmask (fn vector : Nat)
  /-- GLOVE_RESET_REPLIES, R341: At the Glove's next dispatch turn staged packets are flushed and uncommitted commands preempted. -/
  | gloveResetReplies (glove : Nat)
  /-- GLOVE_RESET_END, R341: Teardown and erase finish and the Glove becomes ACTIVE or FREE. -/
  | gloveResetEnd (glove durationUs : Nat) (readBackZero : Bool)
  /-- QUIESCENCE_TIMEOUT, R343: Teardown has not ended 100 ms after committed work ended and the Glove becomes WEDGED. -/
  | quiescenceTimeout (glove durationUs : Nat)
  /-- FLR_VF, R374: A Function Level Reset on a VF starts the Glove reset with source FLR. -/
  | flrVf (fn cycle : Nat)
  /-- FLR_COMPLETE, R375: At reset end or 100 ms after the write the VF's configuration takes its reset values. -/
  | flrComplete (fn : Nat)
  /-- FLR_PF, R377: An FLR on the PF destroys the Vintner's objects and clears VF Enable. -/
  | flrPf (cycle : Nat)
  /-- VF_ENABLE_CLEAR, R377: Clearing VF Enable acts as an FLR on every VF. -/
  | vfEnableClear (cycle : Nat)
  /-- CONVENTIONAL_RESET, R353: PERST_N assertion, hot reset or DL_Down causes a full reset. -/
  | conventionalReset (kind : LinkReset)
  /-- PERST_DEASSERT, R494: PERST_N deasserts and the engine begins its boot, answering RRS until ready. -/
  | perstDeassert
  /-- FULL_RESET_READY, R352: Boot completes and the engine sends Device Readiness Status. -/
  | fullResetReady
  /-- DMA_READ_FAIL, R362: A host DMA read fails or times out and is handled by what it was read for. -/
  | dmaReadFail (target : DmaTarget) (cause : DmaCause)
  /-- ENTROPY_BLOCK_RELEASE, R383: At a block boundary a conditioned block is released to waiting consumers. -/
  | entropyBlockRelease (reserve : Bool)
  /-- HEALTH_TEST_FAIL, R384: A health test fails: blocks are discarded, sources quarantined and standby sources promoted. -/
  | healthTestFail (test : HealthTest) (source other window spareWindow : Nat)
  /-- ENTROPY_STARTUP_DONE, R390: Start-up tests complete and the unit becomes READY or FAILED. -/
  | entropyStartupDone (passed : List Bool)
  /-- KEY_REMASK, R413: Every 10 ms each non-empty slot is re-masked, or zeroed and marked LOST when entropy has failed. -/
  | keyRemask (late : Bool)
  /-- TASTE_ARBITRATION, R449: The runs of a tasted tile are compared and the agreed result written or the tile left unresolved. -/
  | tasteArbitration (work : TastedWork) (primary : Nat) (runs : TileRuns)
  /-- CHASE_END, R451: A chase ends after 10^8 tiles of its class on the Vat. -/
  | chaseEnd (glove vat cls : Nat)
  /-- VAT_LEAVE_SERVICE, R455: A Vat leaves service: its tiles are reissued and its stripes become carried stripes. -/
  | vatLeaveService (vat : Nat)
  /-- SCAN_DONE, R462: A Vat's scan ends and the Vat enters PROBATION or RETIRED. -/
  | scanDone (vat : Nat) (pass : Bool) (misr : Nat)
  /-- PROBATION_COMPLETE, R464: After 10^9 matching shadows the Vat becomes JOINING. -/
  | probationComplete (vat : Nat)
  /-- THROTTLE_RAISE, R478: A power, temperature or coolant condition raises the Vat throttle level. -/
  | throttleRaise (cond : ThrottleCond)
  /-- CALENDAR_SECOND, R479: At each calendar second the throttle may lower, REPORTED updates and a new cap takes effect. -/
  | calendarSecond (readings : SecondReadings)
  /-- TRIP, R481: Over-temperature, coolant or over-voltage stops the converters and enters TRIPPED. -/
  | trip (cause : TripCause)
  /-- TRIP_RECOVER, R493: After PWR_EN has been low for 1 s the module leaves TRIPPED for STANDBY. -/
  | tripRecover
  /-- TAMPER_TRIP, R400: A wired tamper source trips, zeroing the Root Store and, when ON, keys and a full reset. -/
  | tamperTrip (source : TamperSource)
  /-- VBAT_LOSS, R68: VBAT falls below 2.5 V with P3V3_AUX absent, stopping the calendar and losing the Root Store. -/
  | vbatLoss
  /-- PWR_EN_RISE, R495: PWR_EN rises in STANDBY and the converters soft-start. -/
  | pwrEnRise
  /-- PWR_GOOD, R495: The logic-side rails reach regulation and PWR_GOOD rises. -/
  | pwrGood
  /-- PWR_EN_FALL, R476: PWR_EN falls and the converters stop, the module entering STANDBY. -/
  | pwrEnFall
  /-- INPUT_POWER_LOSS, R476: The 48 V input falls below its turn-off threshold and the converters stop. -/
  | inputPowerLoss
  /-- INPUT_POWER_RISE, R493: The 48 V input reaches 40 V and the module enters STANDBY. -/
  | inputPowerRise
  /-- AUX_RISE, R493: P3V3_AUX rises and the module enters AUX. -/
  | auxRise
  /-- AUX_LOSS, R472: P3V3_AUX is lost, the calendar and tamper monitor move to VBAT and the cap returns to 1,900 W. -/
  | auxLoss
  /-- ARP_REQUEST, R112: An ARP request for a Glove's IPv4 address on a port is answered by the engine. -/
  | arpRequest (port address sender : Nat)
  /-- NEIGHBOUR_SOLICITATION, R112: An IPv6 neighbour-discovery solicitation for a Glove's address on a port is answered. -/
  | neighbourSolicitation (port address sender : Nat)
  /-- ECHO_REQUEST, R112: An ICMP or ICMPv6 echo request to a Glove's address is answered with an echo reply. -/
  | echoRequest (port : Nat) (v6 : Bool) (address sender : Nat) (payload : List Byte)
  /-- LINK_TRAINED, R111: A port's link finishes training and FEC locks, so PRT_STATUS.LINK_UP and FEC_LOCK become 1. -/
  | linkTrained (port : Nat)
  /-- LINK_LOST, R111: A trained port loses its link or FEC lock, so LINK_UP and FEC_LOCK fall to 0. -/
  | linkLost (port : Nat)
  /-- VF_ENABLE_SET, R351: Setting VF Enable with enough NumVFs makes the VFs answer and lets their Gloves take doorbells and host DMA. -/
  | vfEnableSet (numVfs : Nat)
  /-- CM_ECC_CORRECTED, R45: A corrected error in the Cellarmaster's memories is counted in GBL_CM_STATUS.ECC_CORR. -/
  | cmEccCorrected
  /-- RESTRIPE_DONE, R457: A Glove's restripe completes, carried stripes are freed, waiting arrivals proceed, and a JOINING Vat can become ACTIVE. -/
  | restripeDone (glove : Nat)
  /-- CARRY_VERIFY_DONE, R455: The Hub's copy and verification of a leaving Vat's carried stripes ends, with a rollback or withholding on failure. -/
  | carryVerifyDone (glove cask : Nat) (copy : StripeCopy)
  /-- CONFIGURATION_SEAL, R11: The Vintner seals the configuration, turning every RWL field read-only until full reset. -/
  | configurationSeal
  /-- DYNAMIC_ADDRESS_ASSIGNMENT, R491: The I3C controller assigns the sideband target its dynamic address by ENTDAA or SETDASA. -/
  | dynamicAddressAssignment (address : Nat) (setdasa : Option Nat)
deriving DecidableEq, Repr

end Sys2Proof
end

