-- ==== Sys2Proof/Decode.lean ====
section
/-! DEFINITION. The words of spec/opcode_table.json. The table gives no bits to any of its rows: a command of
the block is an event with operands, and a Chiwin command is a packet of up to 4,096 bytes (R20), not a
word. -/

set_option autoImplicit false

namespace Sys2Proof

/-- The command a table word spells. No row of the table gives bits, so no word spells a command. -/
def decodeTableWord (_nbits _w : Nat) : Option Instr := none

end Sys2Proof
end

