-- ==== Sys2Proof/Machine/Bits.lean ====
section
/-! DEFINITION. Bytes, bit fields and keyed stores: little-endian numbers (R9), the byte memories of Casks
and of the host, and the list operations the other files share. -/

set_option autoImplicit false

namespace Sys2Proof.Machine

/-! ### Numbers and bytes (R9) -/

/-- The number that bytes spell, first byte least significant. -/
def leNat : List Byte → Nat
  | [] => 0
  | b :: bs => b.toNat + 256 * leNat bs

/-- The low `n` bytes of a number, least significant first. -/
def toLE : Nat → Nat → List Byte
  | 0, _ => []
  | n + 1, v => BitVec.ofNat 8 v :: toLE n (v / 256)

/-- The low `n` bytes of a number, most significant first (byte strings of the public standards). -/
def toBE (n v : Nat) : List Byte := (toLE n v).reverse

/-- `n` bytes of `l` from offset `o`; fewer where `l` ends. -/
def slice (l : List Byte) (o n : Nat) : List Byte := (l.drop o).take n

/-- The little-endian field of `n` bytes at offset `o`. -/
def field (l : List Byte) (o n : Nat) : Nat := leNat (slice l o n)

/-- Bits [lo + n - 1 : lo] of a number. -/
def bitsAt (v lo n : Nat) : Nat := v / 2 ^ lo % 2 ^ n

/-- One bit as a number. -/
def b2n (b : Bool) : Nat := if b then 1 else 0

/-- A field of `n` bits read as a two's complement number. -/
def signed (n v : Nat) : Int := if v % 2 ^ n < 2 ^ (n - 1) then (v % 2 ^ n : Int) else (v % 2 ^ n : Int) - 2 ^ n

/-- The two's complement field of `n` bits of an integer. -/
def unsigned (n : Nat) (i : Int) : Nat := (i % (2 ^ n : Int)).toNat

/-- Quotient rounded up. -/
def ceilDiv (a b : Nat) : Nat := (a + b - 1) / b

/-- Smallest k with 2^k at or above the number. -/
def clog2 (n : Nat) : Nat := if n ≤ 1 then 0 else Nat.log2 (n - 1) + 1

/-- Saturating increment of a counter (GBL_CM_STATUS, PRT_NAKS and the other counts). -/
def satAdd (top a n : Nat) : Nat := min top (a + n)

/-- Ones among the low `n` bits of a bit map. -/
def popcount (n v : Nat) : Nat := ((List.range n).filter v.testBit).length

/-- The numbers of the bits set among the low `n`. -/
def bitList (n v : Nat) : List Nat := (List.range n).filter v.testBit

/-- `(a - b)` on a circle of 2^k points, the comparison of wrapping indices and PSNs (R123, R359). -/
def circle (k a b : Nat) : Nat := (a + 2 ^ k - b % 2 ^ k) % 2 ^ k

def allZero (l : List Byte) : Bool := l.all (· == 0)

/-- `n` zero bytes. -/
def zeros (n : Nat) : List Byte := List.replicate n 0

/-- Bytes padded with zeros to `n`, or cut to `n`. -/
def padTo (n : Nat) (l : List Byte) : List Byte := l.take n ++ zeros (n - l.length)

/-- The bytes of an ASCII text: the domain labels that the manual writes in quotation marks. -/
def ascii (s : String) : List Byte := s.toList.map (fun c => BitVec.ofNat 8 c.toNat)

/-- Bitwise exclusive or of two byte strings of one length. -/
def xorBytes (a b : List Byte) : List Byte := List.zipWith (· ^^^ ·) a b

/-- Cut a list into pieces of `n`, with fuel for the number of pieces. -/
def piecesOf {α : Type} (n : Nat) : Nat → List α → List (List α)
  | 0, _ => []
  | k + 1, l => if l.isEmpty then [] else l.take n :: piecesOf n k (l.drop n)

def pieces {α : Type} (n : Nat) (l : List α) : List (List α) := piecesOf n l.length l

/-! ### Keyed stores in canonical form -/

/-- What a store holds under a key; `d` for a key not listed. -/
def cellGet {α : Type} (d : α) : List (Nat × α) → Nat → α
  | [], _ => d
  | (k, v) :: m, a => if a = k then v else if a < k then d else cellGet d m a

/-- A store with a key set, keys rising and no entry equal to `d`. -/
def cellSet {α : Type} [DecidableEq α] (d : α) : List (Nat × α) → Nat → α → List (Nat × α)
  | [], a, x => if x = d then [] else [(a, x)]
  | (k, v) :: m, a, x =>
    if a < k then (if x = d then (k, v) :: m else (a, x) :: (k, v) :: m)
    else if a = k then (if x = d then m else (a, x) :: m)
    else (k, v) :: cellSet d m a x

/-- Keys rising from `lo` on, no entry equal to `d`. -/
def cellWfFrom {α : Type} [DecidableEq α] (d : α) : Nat → List (Nat × α) → Bool
  | _, [] => true
  | lo, (k, v) :: m => lo ≤ k && v ≠ d && cellWfFrom d (k + 1) m

/-- The canonical form of a byte memory (State.lean). -/
def Memory.wf (m : List (Nat × Byte)) : Bool := cellWfFrom 0 0 m

/-- The canonical form of a store of numbers. -/
def Sparse.wf (m : List (Nat × Nat)) : Bool := cellWfFrom 0 0 m

/-- One byte of a memory; a byte never written reads as zero. -/
def Memory.read (m : List (Nat × Byte)) (a : Nat) : Byte := cellGet 0 m a

/-- `n` bytes from an address. -/
def Memory.readN (m : List (Nat × Byte)) (a : Nat) : Nat → List Byte
  | 0 => []
  | n + 1 => Memory.read m a :: Memory.readN m (a + 1) n

def Memory.write (m : List (Nat × Byte)) (a : Nat) (b : Byte) : List (Nat × Byte) := cellSet 0 m a b

/-- Bytes written from an address on. -/
def Memory.writeN (m : List (Nat × Byte)) : Nat → List Byte → List (Nat × Byte)
  | _, [] => m
  | a, b :: bs => Memory.writeN (Memory.write m a b) (a + 1) bs

/-- The entries of a memory outside `[a, a + n)`: those bytes then read as zero. -/
def Memory.clear (m : List (Nat × Byte)) (a n : Nat) : List (Nat × Byte) :=
  m.filter (fun c => c.1 < a || a + n ≤ c.1)

def Sparse.get (m : List (Nat × Nat)) (a : Nat) : Nat := cellGet 0 m a
def Sparse.set (m : List (Nat × Nat)) (a v : Nat) : List (Nat × Nat) := cellSet 0 m a v

/-! ### Lists of objects -/

/-- Apply `f` to the members for which `sel` holds. -/
def mapIf {α : Type} (sel : α → Bool) (f : α → α) (l : List α) : List α :=
  l.map (fun x => if sel x then f x else x)

/-- Replace the member at an index. -/
def setAt {α : Type} : List α → Nat → (α → α) → List α
  | [], _, _ => []
  | x :: xs, 0, f => f x :: xs
  | x :: xs, n + 1, f => x :: setAt xs n f

/-- Insert before the first member whose key is larger. -/
def insertBy {α : Type} (key : α → Nat) (x : α) : List α → List α
  | [] => [x]
  | y :: ys => if key x < key y then x :: y :: ys else y :: insertBy key x ys

/-- A stable sort by a number. -/
def sortBy {α : Type} (key : α → Nat) (l : List α) : List α :=
  l.foldl (fun acc x => insertBy key x acc) []

/-- Members without repeats, the first kept. -/
def dedup {α : Type} [DecidableEq α] (l : List α) : List α :=
  l.foldl (fun acc x => if x ∈ acc then acc else acc ++ [x]) []

/-- Position of the first member that satisfies a test. -/
def posOf {α : Type} (sel : α → Bool) : List α → Option Nat
  | [] => none
  | x :: xs => if sel x then some 0 else (posOf sel xs).map (· + 1)

def sumOf {α : Type} (f : α → Nat) (l : List α) : Nat := l.foldl (fun n x => n + f x) 0

end Sys2Proof.Machine
end

