-- ==== Sys2Proof/Machine/Crypto.lean ====
section
/-! DEFINITION. The public standards that the manual names and does not write out: CRC-32C (R21), SHA-256,
HMAC, HKDF, the KDF of SP 800-108 (R401), AES-256 with CTR, GCM and key wrap, SHAKE128 and SHAKE256, and
X25519. PRESUMED: their algorithms come from the standards themselves (notes/assumptions/4.md). -/

set_option autoImplicit false

namespace Sys2Proof.Machine.Crypto

open Sys2Proof.Machine

/-! ### CRC-32C, as R21 parametrises it -/

def crcBit (r : Nat) : Nat := if r % 2 = 1 then r / 2 ^^^ 0x82F63B78 else r / 2

def crcByte (r : Nat) (b : Byte) : Nat := (List.range 8).foldl (fun r _ => crcBit r) (r ^^^ b.toNat)

/-- CRC-32C of R21: reflected 0x1EDC_6F41, initial value and final XOR of all ones. -/
def crc32c (l : List Byte) : Nat := l.foldl crcByte 0xFFFFFFFF ^^^ 0xFFFFFFFF

/-! ### SHA-256 -/

/-- The first primes; the constants of SHA-256 are the fractions of their roots. -/
def shaPrimes : List Nat :=
  [2, 3, 5, 7, 11, 13, 17, 19, 23, 29, 31, 37, 41, 43, 47, 53, 59, 61, 67, 71, 73, 79, 83, 89, 97, 101, 103,
   107, 109, 113, 127, 131] ++
  [137, 139, 149, 151, 157, 163, 167, 173, 179, 181, 191, 193, 197, 199, 211, 223, 227, 229, 233, 239, 241,
   251, 257, 263, 269, 271, 277, 281, 283, 293, 307, 311]

/-- Largest root r below 2^bits with r^k at or below v. -/
def rootFloor (k v : Nat) : Nat → Nat → Nat
  | 0, r => r
  | b + 1, r => rootFloor k v b (if (r + 2 ^ b) ^ k ≤ v then r + 2 ^ b else r)

/-- 32 bits of the fraction of the cube root of each prime. -/
def shaK : List (BitVec 32) := shaPrimes.map (fun p => BitVec.ofNat 32 (rootFloor 3 (p * 2 ^ 96) 36 0))

/-- 32 bits of the fraction of the square root of each of the first eight primes. -/
def shaInit : List (BitVec 32) :=
  (shaPrimes.take 8).map (fun p => BitVec.ofNat 32 (rootFloor 2 (p * 2 ^ 64) 36 0))

def rotr (x : BitVec 32) (n : Nat) : BitVec 32 := x.rotateRight n

/-- The message schedule: `w` holds the words so far, newest first. -/
def shaExpand : Nat → List (BitVec 32) → List (BitVec 32)
  | 0, w => w
  | n + 1, w =>
    let w2 := w.getD 1 0
    let w7 := w.getD 6 0
    let w15 := w.getD 14 0
    let w16 := w.getD 15 0
    let s0 := rotr w15 7 ^^^ rotr w15 18 ^^^ (w15 >>> 3)
    let s1 := rotr w2 17 ^^^ rotr w2 19 ^^^ (w2 >>> 10)
    shaExpand n ((w16 + s0 + w7 + s1) :: w)

/-- One round on the eight working words. -/
def shaRound (v : List (BitVec 32)) (kw : BitVec 32 × BitVec 32) : List (BitVec 32) :=
  match v with
  | [a, b, c, d, e, f, g, h] =>
    let t1 := h + (rotr e 6 ^^^ rotr e 11 ^^^ rotr e 25) + ((e &&& f) ^^^ (~~~e &&& g)) + kw.1 + kw.2
    let t2 := (rotr a 2 ^^^ rotr a 13 ^^^ rotr a 22) + ((a &&& b) ^^^ (a &&& c) ^^^ (b &&& c))
    [t1 + t2, a, b, c, d + t1, e, f, g]
  | v => v

/-- One 64-byte block. -/
def shaBlock (hs : List (BitVec 32)) (block : List Byte) : List (BitVec 32) :=
  let w0 := (pieces 4 block).map (fun q => BitVec.ofNat 32 (leNat q.reverse))
  let w := (shaExpand 48 w0.reverse).reverse
  List.zipWith (· + ·) hs ((List.zip shaK w).foldl shaRound hs)

/-- SHA-256 (FIPS 180-4). -/
def sha256 (m : List Byte) : List Byte :=
  let fill := (119 - m.length % 64) % 64
  let padded := m ++ [0x80] ++ zeros fill ++ toBE 8 (8 * m.length)
  (((pieces 64 padded).foldl shaBlock shaInit).map (fun w => toBE 4 w.toNat)).flatten

/-! ### HMAC, HKDF and the KDF of SP 800-108 -/

/-- HMAC-SHA-256 (RFC 2104). -/
def hmac (key m : List Byte) : List Byte :=
  let k := padTo 64 (if key.length > 64 then sha256 key else key)
  sha256 (k.map (· ^^^ 0x5C) ++ sha256 (k.map (· ^^^ 0x36) ++ m))

/-- Blocks of the HKDF expansion, at most `fuel` of them. -/
def hkdfBlocks (prk info : List Byte) : Nat → Nat → List Byte → List Byte
  | 0, _, _ => []
  | n + 1, i, prev =>
    let t := hmac prk (prev ++ info ++ [BitVec.ofNat 8 i])
    t ++ hkdfBlocks prk info n (i + 1) t

/-- HKDF-SHA-256 (RFC 5869): extract with the salt, expand with the info to `n` bytes. -/
def hkdf (salt ikm info : List Byte) (n : Nat) : List Byte :=
  (hkdfBlocks (hmac salt ikm) info (ceilDiv n 32) 1 []).take n

/-- The KDF of SP 800-108 in counter mode as R402 lays out block i: HMAC under the key of the 4-byte
little-endian count, label, zero byte, context and 4-byte little-endian length in bits. -/
def kdf108 (key label context : List Byte) (n : Nat) : List Byte :=
  ((List.range (ceilDiv n 32)).flatMap (fun i =>
    hmac key (toLE 4 (i + 1) ++ label ++ [0] ++ context ++ toLE 4 (8 * n)))).take n

/-! ### AES-256 (FIPS 197) -/

def xtime (b : Nat) : Nat := if b < 128 then 2 * b else (2 * b) % 256 ^^^ 0x1B

/-- Product in GF(2^8), over the low `fuel` bits of the second factor. -/
def gmul (a b : Nat) : Nat :=
  ((List.range 8).foldl (fun (acc, x) i => (if b.testBit i then acc ^^^ x else acc, xtime x)) (0, a)).1

/-- b to the 254th power: the inverse in GF(2^8), with 0 for 0. -/
def ginv (b : Nat) : Nat :=
  let b2 := gmul b b
  let b3 := gmul b2 b
  let b6 := gmul b3 b3
  let b12 := gmul b6 b6
  let b15 := gmul b12 b3
  let b30 := gmul b15 b15
  let b60 := gmul b30 b30
  let b120 := gmul b60 b60
  let b126 := gmul b120 b6
  let b127 := gmul b126 b
  gmul b127 b127

def subByte (b : Nat) : Nat :=
  let x := ginv b
  let r (n : Nat) := (x * 2 ^ n) % 256 ||| x / 2 ^ (8 - n)
  x ^^^ r 1 ^^^ r 2 ^^^ r 3 ^^^ r 4 ^^^ 0x63

/-- The S-box and its inverse as tables. -/
def sbox : List Nat := (List.range 256).map subByte
def sboxInv : List Nat := (List.range 256).map (fun y => (posOf (· == y) sbox).getD 0)

def sub (b : Nat) : Nat := sbox.getD b 0

/-- Key expansion of AES-256: `w` holds the words so far as byte lists, newest first. -/
def aesExpand : Nat → Nat → List (List Nat) → List (List Nat)
  | 0, _, w => w
  | n + 1, i, w =>
    let t := w.headD []
    let t' :=
      if i % 8 = 0 then
        let s := (t.drop 1 ++ t.take 1).map sub
        List.zipWith (· ^^^ ·) s [2 ^ (i / 8 - 1), 0, 0, 0]
      else if i % 8 = 4 then t.map sub else t
    aesExpand n (i + 1) (List.zipWith (· ^^^ ·) (w.getD 7 []) t' :: w)

/-- The fifteen round keys. -/
def aesKeys (key : List Byte) : List (List Nat) :=
  let w := (pieces 4 (key.map BitVec.toNat)).reverse
  (pieces 4 (aesExpand 52 8 w).reverse).map List.flatten

def shiftRows (s : List Nat) : List Nat :=
  (List.range 16).map (fun i => s.getD ((i + 4 * (i % 4)) % 16) 0)

def shiftRowsInv (s : List Nat) : List Nat :=
  (List.range 16).map (fun i => s.getD ((i + 12 * (i % 4)) % 16) 0)

/-- Each column times the circulant matrix with first row `m`. -/
def mixWith (m : List Nat) (s : List Nat) : List Nat :=
  (List.range 16).map (fun i =>
    (List.range 4).foldl (fun acc j =>
      acc ^^^ gmul (s.getD (4 * (i / 4) + j) 0) (m.getD ((j + 4 - i % 4) % 4) 0)) 0)

def addKey (s k : List Nat) : List Nat := List.zipWith (· ^^^ ·) s k

/-- One 16-byte block under expanded keys. -/
def aesEncWith (ks : List (List Nat)) (block : List Byte) : List Byte :=
  let s0 := addKey (block.map BitVec.toNat) (ks.headD [])
  let mid := (ks.drop 1).take 13
  let s1 := mid.foldl (fun s k => addKey (mixWith [2, 3, 1, 1] (shiftRows (s.map sub))) k) s0
  (addKey (shiftRows (s1.map sub)) (ks.getD 14 [])).map (BitVec.ofNat 8)

def aesDecWith (ks : List (List Nat)) (block : List Byte) : List Byte :=
  let inv (s : List Nat) := (shiftRowsInv s).map (fun b => sboxInv.getD b 0)
  let s0 := inv (addKey (block.map BitVec.toNat) (ks.getD 14 []))
  let mid := ((ks.drop 1).take 13).reverse
  let s1 := mid.foldl (fun s k => inv (mixWith [14, 11, 13, 9] (addKey s k))) s0
  (addKey s1 (ks.headD [])).map (BitVec.ofNat 8)

def aesEnc (key block : List Byte) : List Byte := aesEncWith (aesKeys key) block

/-- `n` bytes of AES-256 keystream: block j is the encryption of the 16-byte block `ctr j`. -/
def aesStream (key : List Byte) (ctr : Nat → List Byte) (n : Nat) : List Byte :=
  let ks := aesKeys key
  ((List.range (ceilDiv n 16)).flatMap (fun j => aesEncWith ks (ctr j))).take n

/-! ### Galois/Counter Mode (SP 800-38D), 96-bit nonce and 128-bit tag -/

/-- Product in GF(2^128) in GCM's bit order: numbers are read big-endian, bit 127 first. -/
def ghashMul (x y : Nat) : Nat :=
  ((List.range 128).foldl (fun (z, v) i =>
    ((if x.testBit (127 - i) then z ^^^ v else z),
     (if v % 2 = 1 then v / 2 ^^^ 0xE1000000000000000000000000000000 else v / 2))) (0, y)).1

def beNat (l : List Byte) : Nat := leNat l.reverse

def pad16 (l : List Byte) : List Byte := l ++ zeros ((16 - l.length % 16) % 16)

def ghash (h : Nat) (l : List Byte) : Nat :=
  (pieces 16 l).foldl (fun y b => ghashMul (y ^^^ beNat b) h) 0

def gcmCrypt (key nonce text : List Byte) : List Byte :=
  xorBytes text (aesStream key (fun j => nonce ++ toBE 4 (j + 2)) text.length)

def gcmTag (key nonce aad ct : List Byte) : List Byte :=
  let h := beNat (aesEnc key (zeros 16))
  let s := ghash h (pad16 aad ++ pad16 ct ++ toBE 8 (8 * aad.length) ++ toBE 8 (8 * ct.length))
  xorBytes (toBE 16 s) (aesEnc key (nonce ++ toBE 4 1))

/-- Ciphertext followed by the tag. -/
def gcmSeal (key nonce aad text : List Byte) : List Byte :=
  let ct := gcmCrypt key nonce text
  ct ++ gcmTag key nonce aad ct

/-- The plaintext of a ciphertext with its tag, if the tag verifies. -/
def gcmOpen (key nonce aad sealed : List Byte) : Option (List Byte) :=
  let ct := sealed.take (sealed.length - 16)
  if 16 ≤ sealed.length ∧ gcmTag key nonce aad ct = sealed.drop (sealed.length - 16) then
    some (gcmCrypt key nonce ct)
  else none

/-! ### AES-256 key wrap (SP 800-38F, KW) -/

/-- The six passes of KW over registers `a` and `r`. -/
def kwStep (ks : List (List Nat)) (n : Nat) (st : List Byte × List (List Byte)) (i : Nat) :
    List Byte × List (List Byte) :=
  let b := aesEncWith ks (st.1 ++ st.2.getD (i % n) [])
  (xorBytes (b.take 8) (toBE 8 (i + 1)), setAt st.2 (i % n) (fun _ => b.drop 8))

def kwWrap (key plain : List Byte) : List Byte :=
  let r := pieces 8 plain
  let (a, r') := (List.range (6 * r.length)).foldl (kwStep (aesKeys key) r.length) (List.replicate 8 0xA6, r)
  a ++ r'.flatten

def kwUnstep (ks : List (List Nat)) (n : Nat) (st : List Byte × List (List Byte)) (i : Nat) :
    List Byte × List (List Byte) :=
  let b := aesDecWith ks (xorBytes st.1 (toBE 8 (i + 1)) ++ st.2.getD (i % n) [])
  (b.take 8, setAt st.2 (i % n) (fun _ => b.drop 8))

/-- The key data of a wrapped blob, if its integrity check verifies. -/
def kwUnwrap (key wrapped : List Byte) : Option (List Byte) :=
  let r := pieces 8 (wrapped.drop 8)
  let (a, r') :=
    (List.range (6 * r.length)).reverse.foldl (kwUnstep (aesKeys key) r.length) (wrapped.take 8, r)
  if wrapped.length % 8 = 0 ∧ a = List.replicate 8 0xA6 then some r'.flatten else none

/-! ### SHAKE (FIPS 202) -/

/-- Rotation offsets of the lanes, in the order x + 5 y. -/
def keccakRot : List Nat :=
  [0, 1, 62, 28, 27, 36, 44, 6, 55, 20, 3, 10, 43, 25, 39, 41, 45, 15, 21, 8, 18, 2, 61, 56, 14]

/-- The 24 round constants, from the LFSR of FIPS 202: state and constants so far. -/
def keccakRc : List (BitVec 64) :=
  ((List.range 24).foldl (fun (st : Nat × List (BitVec 64)) _ =>
    let r := (List.range 7).foldl (fun (q : Nat × Nat) j =>
      let l := 2 * q.1
      ((if l ≥ 256 then l ^^^ 0x171 else l), if q.1 % 2 = 1 then q.2 ^^^ 2 ^ (2 ^ j - 1) else q.2)) (st.1, 0)
    (r.1, st.2 ++ [BitVec.ofNat 64 r.2])) (1, [])).2

def lane (a : List (BitVec 64)) (x y : Nat) : BitVec 64 := a.getD (x % 5 + 5 * (y % 5)) 0

def keccakRound (a : List (BitVec 64)) (rc : BitVec 64) : List (BitVec 64) :=
  let c := (List.range 5).map (fun x => (List.range 5).foldl (fun t y => t ^^^ lane a x y) 0)
  let d := (List.range 5).map (fun x => c.getD ((x + 4) % 5) 0 ^^^ (c.getD ((x + 1) % 5) 0).rotateLeft 1)
  let th := (List.range 25).map (fun i => a.getD i 0 ^^^ d.getD (i % 5) 0)
  let ro := (List.range 25).map (fun i => (th.getD i 0).rotateLeft (keccakRot.getD i 0))
  -- lane (x, y) of the next array takes lane (x + 3 y, x) of this one
  let b := (List.range 25).map (fun i => lane ro (i % 5 + 3 * (i / 5)) (i % 5))
  let ch := (List.range 25).map (fun i =>
    lane b (i % 5) (i / 5) ^^^ (~~~(lane b (i % 5 + 1) (i / 5)) &&& lane b (i % 5 + 2) (i / 5)))
  setAt ch 0 (· ^^^ rc)

def keccakF (a : List (BitVec 64)) : List (BitVec 64) := keccakRc.foldl keccakRound a

def absorb (a : List (BitVec 64)) (block : List Byte) : List (BitVec 64) :=
  let ws := (pieces 8 block).map (fun q => BitVec.ofNat 64 (leNat q))
  keccakF ((List.range 25).map (fun i => a.getD i 0 ^^^ ws.getD i 0))

def squeeze (rate : Nat) : Nat → List (BitVec 64) → List Byte
  | 0, _ => []
  | n + 1, a => (a.flatMap (fun w => toLE 8 w.toNat)).take rate ++ squeeze rate n (keccakF a)

/-- The state a SHAKE message leaves when it has been absorbed, before the first block is read. -/
def shakeState (rate : Nat) (m : List Byte) : List (BitVec 64) :=
  let fill := rate - 1 - m.length % rate
  let padded := if fill = 0 then m ++ [0x9F] else m ++ [0x1F] ++ zeros (fill - 1) ++ [0x80]
  (pieces rate padded).foldl absorb (List.replicate 25 0)

/-- SHAKE with a rate in bytes: `n` bytes of output. -/
def shake (rate : Nat) (m : List Byte) (n : Nat) : List Byte :=
  (squeeze rate (ceilDiv n rate) (shakeState rate m)).take n

def shake128 (m : List Byte) (n : Nat) : List Byte := shake 168 m n
def shake256 (m : List Byte) (n : Nat) : List Byte := shake 136 m n

/-! ### X25519 (RFC 7748) -/

/-- Power modulo m, over `fuel` bits of the exponent from the top. -/
def powMod (m b e : Nat) : Nat → Nat → Nat
  | 0, acc => acc
  | n + 1, acc =>
    let sq := acc * acc % m
    powMod m b e n (if e.testBit n then sq * b % m else sq)

def p25519 : Nat := 2 ^ 255 - 19

/-- Inverse modulo 2^255 - 19, with 0 for 0. -/
def inv25519 (a : Nat) : Nat := powMod p25519 (a % p25519) (p25519 - 2) 255 1

/-- Coordinates of the ladder: x2, z2, x3, z3 and the swap bit. -/
structure Ladder where
  x2 : Nat
  z2 : Nat
  x3 : Nat
  z3 : Nat
  swap : Bool
deriving DecidableEq, Repr

def ladderStep (u k : Nat) (l : Ladder) (t : Nat) : Ladder :=
  let p := p25519
  let kt := k.testBit t
  let sw := l.swap != kt
  let (x2, x3) := if sw then (l.x3, l.x2) else (l.x2, l.x3)
  let (z2, z3) := if sw then (l.z3, l.z2) else (l.z2, l.z3)
  let a := (x2 + z2) % p
  let aa := a * a % p
  let b := (x2 + p - z2) % p
  let bb := b * b % p
  let e := (aa + p - bb) % p
  let c := (x3 + z3) % p
  let d := (x3 + p - z3) % p
  let da := d * a % p
  let cb := c * b % p
  { x3 := (da + cb) * (da + cb) % p
    z3 := u * ((da + p - cb) * (da + p - cb) % p) % p
    x2 := aa * bb % p
    z2 := e * ((aa + 121665 * e) % p) % p
    swap := kt }

/-- The ladder with a scalar taken as it is, over its low 255 bits. -/
def ladder (k u : Nat) : Nat :=
  let r := (List.range 255).reverse.foldl (ladderStep u k) ⟨1, 0, u, 1, false⟩
  let (x, z) := if r.swap then (r.x3, r.z3) else (r.x2, r.z2)
  x * inv25519 z % p25519

/-- Clamping of RFC 7748. -/
def clamp (k : Nat) : Nat := (k % 2 ^ 254) / 8 * 8 + 2 ^ 254

/-- X25519 of 32-byte scalar and u-coordinate. -/
def x25519 (k u : List Byte) : List Byte :=
  toLE 32 (ladder (clamp (leNat k)) (leNat u % 2 ^ 255 % p25519))

/-- The public key of a scalar. -/
def x25519Base (k : List Byte) : List Byte := x25519 k (toLE 32 9)

end Sys2Proof.Machine.Crypto
end

