-- ==== Sys2Proof/Machine/Operands.lean ====
section
/-! DEFINITION. The operands of a Chiwin command: its parameter fields, little-endian, at the offsets of the
opcode's table (R9, R20). -/

set_option autoImplicit false

namespace Sys2Proof

/-- One-, two-, four- and eight-byte parameter fields of a Chiwin packet at a parameter offset. -/
def Packet.u8 (p : Packet) (o : Nat) : Nat := Machine.field p.params o 1
def Packet.u16 (p : Packet) (o : Nat) : Nat := Machine.field p.params o 2
def Packet.u32 (p : Packet) (o : Nat) : Nat := Machine.field p.params o 4
def Packet.u64 (p : Packet) (o : Nat) : Nat := Machine.field p.params o 8
/-- A parameter field of `n` bytes, as a number and as bytes. -/
def Packet.num (p : Packet) (o n : Nat) : Nat := Machine.field p.params o n
def Packet.bytes (p : Packet) (o n : Nat) : List Byte := Machine.slice p.params o n
/-- The connection that a two-byte field names: bits [14:0], whatever the reserved bit 15 holds (R10). -/
def Packet.connAt (p : Packet) (o : Nat) : Nat := p.u16 o % 2 ^ 15

/-- The key slot that a two-byte field names: bits [9:0] (R8, R10). -/
def Packet.slotAt (p : Packet) (o : Nat) : Nat := p.u16 o % 2 ^ 10
/-- Parameter length (R20). -/
def Packet.len (p : Packet) : Nat := p.params.length

end Sys2Proof
end

