-- ==== Sys2Proof/Config.lean ====
section
/-! DEFINITION. The figures the LQ-960 fixes (R4 and the tables that carry limits) and the free values of
the model: opaque constants, for what the manual leaves to physical noise, to an unstated formula or to a
named cryptographic standard whose algorithm is not written out here. Nothing can be proved about the
value of an opaque constant. -/

set_option autoImplicit false

namespace Sys2Proof.Config

/-- Granules of 1 KiB in the allocatable space of one Vat's slice (R79). -/
def granulesPerVat : Nat := 253952
/-- Casks per module (R8). -/
def maxCasks : Nat := 16384
/-- Vintages outside CLOSED and ABORTED per Glove and per module (R103). -/
def maxVintagesGlove : Nat := 32
def maxVintagesModule : Nat := 128
/-- Summaries of terminal Vintages kept per Glove (R103). -/
def maxSummaries : Nat := 64
/-- Connections per module and pinned contexts (R4, R144). -/
def maxConns : Nat := 32768
def maxPinned : Nat := 8192
/-- Staging limits per command queue and per context (R29). -/
def stagePerQueue : Nat := 64
def stagePerContext : Nat := 1024
/-- Packets dispatched in one turn (R31). -/
def packetsPerTurn : Nat := 16
/-- Command queues bound to one reply queue (QUEUE_CREATE, ST_NO_RESOURCE). -/
def queuesPerReply : Nat := 64

/-- Packets that the sideband command buffer holds (R491). -/
def sidebandBuffer : Nat := 4

/-- Lines of 4 KiB in a Vat's spill stripe cache of 4 MiB (R80, R87). -/
def spillLines : Nat := 1024
/-- Unit of an ingress-buffer share in bytes (R333). -/
def ingressUnit : Nat := 262144
/-- The keys of notices and of replies sent as WRA SENDs (R186). -/
def noticeKey : Nat := 0xFFFFFF00
def replyKey : Nat := 0xFFFFFF01
/-- Attempt limit and cap of the retransmission timer in microseconds (R129). -/
def attemptLimit : Nat := 16
def timerCapUs : Nat := 10000
/-- Credit granted above V, and bits of the placement bitmap (R128, R166). -/
def creditWindow : Nat := 4096
/-- Refusals a connection context keeps (R167). -/
def refusalsKept : Nat := 32
/-- Entries of the trigger table of a Glove and counter waits of the module (R142, R143). -/
def triggerEntries : Nat := 4096
def counterWaits : Nat := 16384
/-- Packets a connection may have parked, and the miss buffer's unit in bytes (R145, R146). -/
def parkedPerConn : Nat := 64
def missUnit : Nat := 256
/-- Core cycles in 10 microseconds: the interval of R134 and R368. -/
def tenMicroseconds : Nat := 12500
/-- The interval of R50 in calendar milliseconds. -/
def cmFaultWindowMs : Nat := 600000
/-- The reset magic of GBL_CTRL (R499). -/
def resetKey : Nat := 0xD1E0
/-- The power cap after loss of P3V3_AUX, in watts (R500, R501). -/
def defaultCap : Nat := 1900
/-- Spent-list and revocation-list sizes (R409, R417). -/
def spentEntries : Nat := 4096
def revocationEntries : Nat := 256
/-- Blocks in a Glove's or the reserve's entropy queue (R386, R387). -/
def entropyQueue : Nat := 16
/-- Tiles of a chase and shadows of a probation (R451, R464). -/
def chaseTiles : Nat := 10 ^ 8
def probationTiles : Nat := 10 ^ 9
/-- Records of the unit history (R459). -/
def historyRecords : Nat := 262144
/-- Milliseconds in the 24 hours of R460. -/
def dayMs : Nat := 86400000

/-! ### Free values. Each is applied to `State.free`, a counter that the step advances, so that two draws
are unrelated; a claim about one holds whatever the value is. -/

/-- A byte of the raw samples that a conditioner forms a block from (R382): draw number, block within the draw, and
index in the block's 768-bit input. -/
opaque sampleByte : Nat → Nat → Nat → Byte
/-- Raw samples of a TEST source (R393): read number and index of the byte. -/
opaque rawByte : Nat → Nat → Byte
/-- The number of health-test failures seen during a raw read (ENT_RAW_READ result 0). -/
opaque rawFailures : Nat → Nat
/-- A host-ring slot the host published without writing it (R360 obliges it to write first). -/
opaque hostSlotByte : Nat → Nat → Byte
/-- A byte of a spilled context as its Cuff record holds it: the layout of a context in the Context Store is not given
(R144, R367). -/
opaque contextByte : Nat → Nat → Byte
/-- The next state of the 32-bit fault-injection LFSR, whose taps the manual does not give (R150). -/
opaque lfsrNext : Nat → Nat
/-- Bits [15:8] of the UDP source port of a connection, before they are brought into 0xC0 to 0xFF (R114). -/
opaque sourceTag : Nat → Nat
/-- Where a checkpoint image lies within the Glove's LPDDR (R102): Glove, Cask, slot. -/
opaque imageOffset : Nat → Nat → Nat → Nat
/-- The smoothed round trip of a connection in ns (CONN_QUERY result 3). -/
opaque roundTrip : Nat → Nat
/-- Whether a source passes a retest or RETURN (R390, R392): draw number. -/
opaque retestPasses : Nat → Bool
/-- The start-up test that a source failed (R396): draw number. -/
opaque failedTest : Nat → Nat
/-- Whether a rate in Mb/s that is no whole number is reported rounded up (ENT_STATUS): numerator, denominator. -/
opaque roundsUp : Nat → Nat → Bool
/-- A coordinate of a recipe temporary beyond those its step wrote (R318 does not say what it holds): temporary
and coordinate. -/
opaque staleTemp : Nat → Nat → Nat
/-- The bytes over which the shard digest of R93 is taken: the manual names the parameters, not their order:
Vintage ID, clients, floor, C, S, E, policy, masking flags, degree, threshold; salt and graph seed. -/
opaque shardLayout : List Nat → List Byte → List Byte
/-- MISR signature of a BIST (R463): Vat, kind, draw. -/
opaque misr : Nat → Nat → Nat → Nat
/-- Whether that signature matches the golden one (R463). -/
opaque bistPasses : Nat → Nat → Nat → Bool
/-- Whether the pattern store's signature verifies each time it is loaded (R462): draw number. -/
opaque storeVerifies : Nat → Bool
/-- Whether a flash erase, program or read-back or an OTP burn succeeds (R444): draw number. -/
opaque storeWorks : Nat → Bool
/-- A descriptor class is permitted for an opcode range: class, high byte of the opcode (R47). -/
opaque classPermitted : Nat → Nat → Bool
/-- The module's serial number and its ROM measurement (R443, R431). -/
opaque serialNumber : Nat
/-- GBL_IDENT.VENDOR and GBL_ROM_VERSION, fixed words without a stated value (R443). -/
opaque vendorId : Nat
opaque romVersion : Nat
opaque romMeasurement : List Byte
/-- The firmware image of manufacture, byte by byte (R435). -/
opaque factoryByte : Nat → Byte
/-- Input power over the last millisecond of a second (TEL_PIN.MS): draw number. -/
opaque lastMs : Nat → Nat
/-- The LFSR of Tasting: the manual gives its width and what seeds it, not its taps (R447). -/
opaque tasteSeed : Nat → Nat → Nat → BitVec 32
opaque tasteNext : BitVec 32 → BitVec 32
/-- The syndrome of an UNRESOLVED record, whose words R459 does not define: draw number. -/
opaque unresolvedSyndrome : Nat → Nat
/-- INT_QUERY result 3 for a Vat without a record: draw number. -/
opaque absentSequence : Nat → Nat
/-- Whether both copies of a history record have come to fail their CRC (R459): draw number, sequence. -/
opaque copiesFail : Nat → Nat → Bool
/-- A byte of a CPER record that R466 does not fix: sequence and offset. -/
opaque cperByte : Nat → Nat → Byte
/-- The result of a lattice operation whose residues the manual does not determine (key switching,
rescaling, refresh, encryption): opcode, draw, residue index. Reduced modulo the limb's prime. -/
opaque latticeResidue : Nat → Nat → Nat → Nat
/-- A residue of some encryption under a PUBLIC key of a plaintext whose slots hold given values (R322): values, draw, residue
index. -/
opaque encryptionResidue : List Int → Nat → Nat → Nat
/-- 256-bit blocks of entropy that LAT_ENCRYPT_PK draws: dimension, ciphertexts. The manual gives the rank of
the draw and not its size (R266, LAT_ENCRYPT_PK). -/
opaque encryptBlocks : Nat → Nat → Nat
/-- Derived refresh figures for which R275 to R289 give no formula: B_lwe, P_max and P_ss, from the
refresh configuration's bytes. -/
opaque refreshBlwe : List Byte → Nat
opaque refreshPmax : List Byte → Nat
opaque refreshPss : List Byte → Nat
/-- A bit of the binary secret s_lwe that an LWE_SWITCH key leads to: the engine never sees it, and the key's seed and stored
half determine it (R276, R283): seed, stored half, index. -/
opaque lweSecretBit : List Byte → List (Nat × Nat) → Nat → Nat
/-- Δ of a SWITCH table, which the scheme switch chooses from the table's largest magnitude (R283): that magnitude, q_b. -/
opaque switchDelta : Nat → Nat → Nat
/-- The value of a real slot of a CKKS ciphertext in units of 2^-64, under a secret that the engine never sees (R287):
residues, scale, slot. -/
opaque slotValue : List Nat → Nat → Nat → Int
/-- A residue of some ciphertext whose real slots carry given values, in units of 2^-192: values, scale, draw, residue index
(R287, R289). -/
opaque carryingResidue : List Int → Nat → Nat → Nat → Nat

/-! ### Cryptographic standards the manual names and does not write out. -/

/-- ML-KEM-1024 of FIPS 203: encapsulation key and decapsulation key from the generating randomness, and
decapsulation of a ciphertext. -/
opaque mlkemEk : List Byte → List Byte
opaque mlkemDecaps : List Byte → List Byte → List Byte
/-- SLH-DSA-SHA2-128f public root and signature (FIPS 205) from the three seeds; verification of
SLH-DSA-SHA2-256s under a vendor key held in ROM (signer number), of body and signature. -/
opaque slhPublic : List Byte → List Byte
/-- Measured frequency of a sampling oscillator, and beats of a pair of them, by draw (R381, R396). -/
opaque oscillator : Nat → Nat → Nat
opaque beats : Nat → Nat → Nat → Nat
opaque slhSign : List Byte → List Byte → List Byte
opaque slhVerify : Nat → List Byte → List Byte → Bool

end Sys2Proof.Config
end

