-- ==== Sys2Proof/Machine/State.lean ====
section
/-! DEFINITION. The state of the LQ-960 as plain data: every register, queue, buffer, counter, mode and pin
that the manual gives the module, and the queue of commands that wait (`State.pending`). -/

set_option autoImplicit false

namespace Sys2Proof.Machine

/-- A byte memory: addresses strictly rising, no byte equal to zero, which an unlisted address reads as. -/
abbrev Mem := List Host.Cell

/-- Numbers by key, in the same canonical form: keys strictly rising, no value zero. -/
abbrev Sparse := List (Nat × Nat)

/-! ### Queues and commands in flight -/

/-- Queue types of QUEUE_CREATE. -/
inductive QKind where
  | command | reply | send | receive | completion | event
deriving DecidableEq, Repr, Inhabited

/-- Queue states of QUEUE_QUERY. -/
inductive QState where
  | active | halted | destroying
deriving DecidableEq, Repr, Inhabited

/-- One queue of the pool (R35, R358, R359, R502). `prod` and `cons` are the free-running 32-bit indices. -/
structure Queue where
  id : Nat
  owner : Nat
  kind : QKind
  log2Depth : Nat
  /-- command queues: the bound reply queue, or send queue of the bound connection (R27, R35) -/
  bound : Nat := 0
  conn : Option Nat := none
  base : Nat := 0
  cuff : Bool := false
  vector : Nat := 0
  prod : Nat := 0
  cons : Nat := 0
  /-- host-filled rings: the entries between `cons` and `prod` -/
  slots : List (List Byte) := []
  /-- engine-filled rings: the entries between `cons` and `prod` -/
  entries : List (List Byte) := []
  /-- engine-written rings in a Cuff: the record being filled and its plaintext (R367) -/
  filling : Option (Nat × List Byte) := none
  state : QState := .active
  /-- index of the failed header of a HALTED queue (R33) -/
  failSlot : Option Nat := none
  /-- reply entries, or receive slots, reserved and not yet written (R27, R502) -/
  reserved : Nat := 0
  /-- entries the engine owes a full queue: the work that posts them waits (R77) -/
  backlog : List (List Byte) := []
  badIndex : Bool := false
  /-- completed requests, or messages made visible (R143) -/
  counter : Nat := 0
  /-- a send queue stopped at an entry by a failed read (R362) -/
  stopped : Bool := false
  /-- F of a flush whose last packet straddles F: it is answered once published (R37) -/
  flushTo : Option Nat := none
deriving DecidableEq, Repr, Inhabited

/-- What a dispatched command waits for before its reply is posted. -/
inductive Wait where
  /-- QUEUE_DESTROY: replies of the queue's dispatched packets (R36) -/
  | destroy (queue discarded : Nat)
  /-- WINDOW_REVOKE: placement of packets checked before the bump, by the old key (R137) -/
  | revoke (key result : Nat)
  /-- VINTAGE_CLOSE and VINTAGE_ABORT: the windows' placed writes drain -/
  | ends (glove vintage : Nat) (keys : List Nat) (left : Nat)
  /-- CONN_DESTROY: removal of the connection (R119) -/
  | connGone (conn : Nat)
  /-- VINTAGE_RELEASE in progress (R300) -/
  | release (glove vintage : Nat)
  /-- a draw: rank, blocks still to be served (R388, R389) -/
  | entropy (rank blocks : Nat)
  /-- GLOVE_RESET or GLOVE_RELEASE (R341) -/
  | gloveReset (glove : Nat)
  /-- SHARE_SUBMIT before the survivor exchange has completed (R206) -/
  | exchange (glove vintage : Nat)
  /-- TRELLIS_JOIN: links and first heartbeat -/
  | join
  /-- a lattice opcode that has passed its checks and has not completed (R270 to R273) -/
  | work
deriving DecidableEq, Repr, Inhabited

/-- An object a command names (R40, R41). -/
inductive Obj where
  | vintage (glove id : Nat)
  | cask (glove id : Nat)
  | window (index : Nat)
  | key (slot : Nat)
  | queue (id : Nat)
  | conn (id : Nat)
  | glove (id : Nat)
  | paramSet (glove index : Nat)
  | keySet (glove id : Nat)
  | lut (glove keySet index : Nat)
  | recipe (glove id : Nat)
deriving DecidableEq, Repr, Inhabited

/-- Ciphertexts, or plaintexts, of a Cask that a lattice opcode under way reads or writes: `size` residues each in every
limb (R273). -/
structure Watched where
  cask : Nat
  size : Nat
  first : Nat
  count : Nat
  output : Bool
deriving DecidableEq, Repr, Inhabited

/-- A dispatched command whose reply is not yet posted, with the journal's copy of its packet (R48). -/
structure Outstanding where
  pkt : Packet
  wait : Wait
  rank : Nat := 1
  names : List Obj := []
  committed : Bool := false
  /-- the reply of a committed command, stored while the Cellarmaster restarts (R48) -/
  stored : Option Answer := none
  /-- what a lattice opcode works on, its scratch Cask, and whether something has been placed into it (R260, R272, R273) -/
  watch : List Watched := []
  /-- blocks of lattice randomness that the command draws at rank 3 once the present draw has been served (R388) -/
  later : Nat := 0
  scratch : Option Nat := none
  /-- bound and number of inserted refreshes of each output, as they were predicted at dispatch (R268, R270) -/
  plan : List (Nat × Nat) := []
  touched : Bool := false
deriving DecidableEq, Repr, Inhabited

/-! ### Windows and connections -/

/-- A window (R131 to R138, R507). -/
structure Window where
  index : Nat
  gen : Nat
  owner : Nat
  /-- 0 Cask, 1 host memory, 2 queue -/
  target : Nat
  /-- bits 0 to 4: READ, WRITE, ACCUMULATE, ATOMIC, SEND -/
  rights : Nat
  anyConn : Bool
  countOn : Bool := false
  cuff : Bool := false
  object : Nat := 0
  conn : Nat := 0
  base : Nat := 0
  length : Nat
  eventQ : Nat := 0
  countQ : Nat := 0
  accesses : Nat := 0
  violations : Nat := 0
  /-- the Vintage an export window belongs to (R320) -/
  vintage : Nat := 0
  /-- packets placed through the window by clients still LEES, by client (R227) -/
  hidden : Sparse := []
  /-- cycle of the last WINDOW_VIOLATION event and violations counted since (R134) -/
  lastEvent : Option Nat := none
  uncounted : Nat := 0
  /-- connection, PSN and offset of the first of those -/
  firstHeld : Option (Nat × Nat × Nat) := none
deriving DecidableEq, Repr, Inhabited

/-- Connection states (R119). -/
inductive ConnState where
  | connecting | established | held | closing | error
deriving DecidableEq, Repr, Inhabited

/-- The fate decided for a received packet (R126). -/
inductive Verdict where
  | place
  | refuse (status : Status) (detail : Nat)
deriving DecidableEq, Repr, Inhabited

/-- A received packet whose PSN is used and whose effects are not yet observable (R125, R166). -/
structure Inflight where
  psn : Nat
  op : Nat
  pkt : WraPacket
  stamp : PhaseWord
  verdict : Verdict
  /-- the add or the refusal is complete -/
  complete : Bool := false
  /-- the window as it was when the packet passed the key check (R136) -/
  win : Option Window := none
  /-- placed under standing LEES (R225) -/
  lees : Bool := false
deriving DecidableEq, Repr, Inhabited

/-- The receiving side of one sequence space (R123, R127, R166). -/
structure SeqRx where
  v : Nat := 0xFFFFFFFF
  bitmap : BitVec 4096 := 0
  flight : List Inflight := []
  /-- the last 32 refusals: PSN, status, detail (R167) -/
  refusals : List (Nat × Status × Nat) := []
  duplicates : Nat := 0
  /-- packets become visible since the last ACK -/
  sinceAck : Nat := 0
  highest : Option Nat := none
  /-- the gap for which the one ACK of R127 has been sent -/
  gapTold : Option Nat := none
  cePaths : BitVec 256 := 0
  /-- a duplicate has arrived since the last ACK: its sender has not seen one (R127, R151) -/
  again : Bool := false
  /-- messages begun: message ID, a packet was placed under LEES, a packet was refused (R225) -/
  msgs : List (Nat × Bool × Bool) := []
deriving DecidableEq, Repr, Inhabited

/-- A packet the engine has sent and the peer has not acknowledged (R129). -/
structure TxPacket where
  psn : Nat
  op : Nat
  attempts : Nat := 1
  timerUs : Nat
  pkt : WraPacket
  /-- the SACK field showed it received -/
  sacked : Bool := false
  /-- the Chiwin reply it carries: tag, status code, detail, result 0 (R506) -/
  reply : Option (Nat × Nat × Nat × Nat) := none
  /-- the notice it carries: Vintage ID and kind (R506) -/
  notice : Option (Nat × Nat) := none
  /-- of a PARTIAL, the local Cask and the byte of it that the payload starts at (R160) -/
  cask : Nat := 0
  pos : Nat := 0
deriving DecidableEq, Repr, Inhabited

/-- A message of a work request until every packet of it is acknowledged (R126, R141). -/
structure Message where
  msg : Nat
  op : Nat
  queue : Nat
  wrId : Nat
  signal : Bool
  /-- packets not yet acknowledged -/
  left : Nat
  bytes : Nat
  /-- status of the first NAK, or success code of a STATUS packet -/
  result : Option (Nat × Nat) := none
deriving DecidableEq, Repr, Inhabited

/-- The sending side of one sequence space. -/
structure SeqTx where
  next : Nat := 0
  credit : Nat := 4095
  /-- highest PSN the peer has acknowledged -/
  acked : Nat := 0xFFFFFFFF
  unacked : List TxPacket := []
deriving DecidableEq, Repr, Inhabited

/-- A READ_REQ or ATOMIC the engine issued and that awaits its response (R166). -/
structure Issued where
  msg : Nat
  key : Nat
  offset : Nat
  left : Nat
  total : Nat
  atomic : Bool
  wr : Nat × Nat × Bool
deriving DecidableEq, Repr, Inhabited

/-- A PARTIAL packet the engine has sent and may have to send again (R160): the local Cask and the byte of it that the payload
starts at, its PSN, and the status of its NAK, 0 for none. -/
structure SentPartial where
  cask : Nat
  pos : Nat := 0
  psn : Nat
  refused : Nat := 0
  pkt : WraPacket
deriving DecidableEq, Repr, Inhabited

/-- A packet with its bytes on the wire (R115), and the connection of the engine that sends it: none for a packet that
arrives, is forwarded, or is a heartbeat. -/
structure Framed where
  conn : Option Nat := none
  op : Nat
  pkt : WraPacket
  frame : List Byte := []
deriving DecidableEq, Repr, Inhabited

/-- A packet that injection holds back, and how many must pass first (R150). -/
structure Held where
  left : Nat
  item : Framed
deriving DecidableEq, Repr, Inhabited

/-- Fault injection settings (R150), of a connection or a port, with the state of its LFSR. -/
structure Inject where
  dir : Nat := 0
  drop : Nat := 0
  corrupt : Nat := 0
  reorder : Nat := 0
  depth : Nat := 1
  seed : Nat := 1
  lfsr : Nat := 1
  left : Nat := 0
  count : Nat := 0
  heldRx : List Held := []
  heldTx : List Held := []
deriving DecidableEq, Repr, Inhabited

/-- A packet held in the miss buffer with its stamp (R145). -/
structure Parked where
  op : Nat
  pkt : WraPacket
  stamp : PhaseWord
  /-- the window that the packet's key named when it was checked (R136) -/
  win : Option Window := none
deriving DecidableEq, Repr, Inhabited

/-- A connection and its context (R119 to R130, R144 to R149, R166). -/
structure Conn where
  id : Nat
  owner : Nat
  state : ConnState
  incarnation : Nat
  trellis : Bool := false
  sealedC : Bool := false
  pinned : Bool := false
  ipv4 : Bool := false
  peerConn : Nat := 0
  peerInc : Nat := 0
  peerEpoch : Nat := 0
  paths : Nat := 1
  sendQ : Nat := 0
  recvQ : Nat := 0
  eventQ : Nat := 0
  keySlot : Nat := 0
  address : List Byte := []
  udpPort : Nat := 0
  ports : Nat := 0
  member : Nat := 0
  minTimer : Nat := 20
  req : SeqRx := {}
  resp : SeqRx := {}
  txReq : SeqTx := {}
  txResp : SeqTx := {}
  resident : Bool := true
  fetching : Bool := false
  /-- the Cuff record that holds the spilled context (R367, R369) -/
  store : Option Nat := none
  /-- the source of the request that takes this PSN cannot be read (R362) -/
  readFail : Option (Nat × DmaCause) := none
  parked : List Parked := []
  dropped : Nat := 0
  nextMsg : Nat := 0
  pathHolds : List Nat := []
  rateMbps : Nat := 0
  sealTx : Nat := 0
  sealRx : Nat := 0
  /-- traffic keys derived before the slot of the connection was evicted: direction, index, key; none derives after it
  (R147, R415) -/
  sealKeys : Option (List (Nat × Nat × List Byte)) := none
  inject : Inject := {}
  issued : List Issued := []
  messages : List Message := []
  /-- Casks this connection has placed into since VINTAGE_OPEN (R102) -/
  placedInto : List Nat := []
  /-- rollback fences: Cask and E (R182) -/
  fences : List (Nat × Nat) := []
  /-- replies and notices that wait for the connection to resume (R506) -/
  waiting : List TxPacket := []
  /-- place in the order in which connections had work fall due while none of theirs waited (R146) -/
  dueSince : Nat := 0
  /-- the last use of the context, for the eviction of R145 -/
  lastUse : Nat := 0
  failures : Nat := 0
  /-- next path of the spray (R124) -/
  nextPath : Nat := 0
  /-- cycle of the last halving of the rate (R130) -/
  rateCut : Option Nat := none
  /-- PARTIAL packets kept for R160 -/
  sentPartials : List SentPartial := []
deriving DecidableEq, Repr, Inhabited

/-- A TRIGGERED request in a Glove's trigger table (R142). -/
structure Trigger where
  queue : Nat
  entry : List Byte
  tag : Nat
  needed : Nat
  seen : Nat := 0
deriving DecidableEq, Repr, Inhabited

/-! ### Casks and Vintages -/

/-- A client tally (R171). -/
structure Tally where
  client : Nat
  placed : Nat
  expected : Nat
  conflict : Bool
deriving DecidableEq, Repr, Inhabited

/-- A partial tally of a source member (R158). -/
structure PartialTally where
  member : Nat
  placed : Nat
  expected : Nat
  survivors : Nat
  conflict : Bool
  /-- origin member that its packets carry (R153) -/
  origin : Nat := 0
deriving DecidableEq, Repr, Inhabited

/-- The record of one connection in a checkpoint (R188). -/
structure ConnRecord where
  conn : Nat
  incarnation : Nat
  v : Nat
  bitmap : BitVec 4096
deriving DecidableEq, Repr, Inhabited

/-- A checkpoint slot (R99 to R102). -/
structure Checkpoint where
  index : Nat
  sealCp : Bool
  phase : PhaseWord
  epoch : Nat
  racked : Nat
  image : Mem
  tallies : List Tally
  digests : Sparse
  partials : List PartialTally
  /-- snapshot of the fingerprints at the cut -/
  prints : Sparse
  /-- the Vat list the stripes of the snapshot follow -/
  vats : List Nat
  conns : List ConnRecord
  /-- which of the Cask's two slots it takes (R101) -/
  slot : Nat := 0
  /-- offset of the image within the Glove's LPDDR (R102) -/
  offset : Nat := 0
  /-- the metadata block: header, connection records and the fingerprints of limbs above 0 (R102, R178, R188) -/
  block : List Byte := []
  /-- granules copied ahead of the copier because an add reached them (R80, R100) -/
  flags : List Nat := []
  copied : Bool := false
  verified : Bool := false
deriving DecidableEq, Repr, Inhabited

/-- A rollback in progress (R181). -/
structure Rollback where
  /-- PSN E per connection -/
  fences : List (Nat × Nat)
  stripes : Nat
  phase : PhaseWord
  /-- found at the verification of a seal checkpoint or unmask base (R185) -/
  sealedR : Bool
deriving DecidableEq, Repr, Inhabited

/-- A ciphertext header (R253). -/
structure CtHeader where
  digest : List Byte
  keySet : Nat
  state : Nat
  level : Nat
  engineSum : Bool
  ntt : Bool
  refreshed : Bool
  construction : Nat
  scale : Nat
  noise : Nat
  cohort : Nat
  vintage : Nat
  epoch : Nat
  serial : Nat
deriving DecidableEq, Repr, Inhabited

/-- The binding of a ciphertext Cask (R248). -/
structure Binding where
  keySet : Nat
  ntt : Bool
  level : Nat
  scale : Nat
  size : Nat
  headers : List CtHeader
deriving DecidableEq, Repr, Inhabited

/-- A Cask (R82 to R92). Coordinate i of w bytes stands at bytes w*i of `data`, limb by limb for ring 3. -/
structure Cask where
  glove : Nat
  id : Nat
  vintage : Nat
  ring : Nat
  n : Nat
  limbs : Nat
  moduli : List Nat := []
  role : Nat
  placement : Nat
  spilled : Bool
  granules : Nat
  lpddr : Nat
  shardBase : Nat := 0
  data : Mem := []
  /-- Vats that hold the stripes, in the order of R84 -/
  vats : List Nat := []
  /-- count of ADAM_STEPs that wrote the Cask (R315) -/
  steps : Nat := 0
  tallies : List Tally := []
  digests : Sparse := []
  partials : List PartialTally := []
  /-- the four fingerprints, by fingerprint, stripe index and limb (R174) -/
  prints : Sparse := []
  verified : Option Checkpoint := none
  inProgress : Option Checkpoint := none
  /-- checkpoints that fell due and whose cut has not been taken: index, phase, seal -/
  dueCuts : List (Nat × PhaseWord × Bool) := []
  /-- connections that have placed into the Cask since the verified checkpoint's cut, and since the cut of
  the checkpoint in progress (R181) -/
  placers : List Nat := []
  placersCut : List Nat := []
  rollback : Option Rollback := none
  /-- it has rolled back since its last cut was taken (R78, R184) -/
  rolled : Bool := false
  /-- targets of R235: client, placed; their digests; and the partial tallies as they stood (R158, R185) -/
  target : Option (List Tally × Sparse × List PartialTally) := none
  /-- the verified checkpoint is the unmask base (R211) -/
  baseReady : Bool := false
  /-- stripe indices whose corrections wait to be re-run from the unmask base: every other stripe carries what the ledger
  records as applied (R212, R213) -/
  redo : List Nat := []
  binding : Option Binding := none
  withheld : Bool := false
  /-- stamp of the CASK_ADJUST that removed each client here (R240) -/
  removedAt : Sparse := []
deriving DecidableEq, Repr, Inhabited

/-- A line of a Vat's spill stripe cache: a 4 KiB spill stripe of a spilled Cask and the LPDDR channel that holds it
(R87). -/
structure SpillLine where
  glove : Nat
  cask : Nat
  stripe : Nat
  channel : Nat
deriving DecidableEq, Repr, Inhabited

/-- States of the Vintage state machine in the coding of VINTAGE_QUERY (R16, R104). -/
inductive VState where
  | draft | opened | sealedV | unmasking | ready | released | closed | aborted
deriving DecidableEq, Repr, Inhabited

/-- Standings of a client (R223). -/
inductive Standing where
  | none | lees | racked | retracting | retracted
deriving DecidableEq, Repr, Inhabited

/-- A stored share (R202, R205). -/
structure Share where
  owner : Nat
  holder : Nat
  /-- 1 SELF, 2 SECRET -/
  kind : Nat
  value : Nat
  discarded : Bool := false
deriving DecidableEq, Repr, Inhabited

/-- A rebuilt secret of the Seed Ledger (R208 to R210). -/
structure Secret where
  owner : Nat
  kind : Nat
  value : Nat
  suspect : Bool := false
  final : Bool := false
  /-- the value whose expansion has been applied, in every accumulate Cask -/
  applied : Option Nat := none
deriving DecidableEq, Repr, Inhabited

/-- Masking configuration set by MASK_SETUP. -/
structure Masking where
  uploaded : Bool
  degree : Nat
  threshold : Nat
  commit : Bool
  sealedShares : Bool
  salt : List Byte
  seed : List Byte
  /-- secret of the engine's X25519 pair (R203) -/
  engineKey : List Byte := []
  graph : List (Nat × List Nat) := []
  graphComplete : Bool := false
  /-- registry: client, public key, commitment (R200) -/
  registry : List (Nat × List Byte × List Byte) := []
deriving DecidableEq, Repr, Inhabited

/-- Stages of a release in progress (R300). -/
structure Release where
  /-- 1 while the noise is drawn, 3 while it is added, 4 from then on -/
  stage : Nat
  output : Nat
  phase : PhaseWord
  noiseBits : Nat
  /-- draw number of the noise -/
  draw : Nat
  keys : List Nat := []
  /-- release tile journal: the tiles of the stage in progress that are complete (R80, R302) -/
  journal : List Nat := []
deriving DecidableEq, Repr, Inhabited

/-- A report of a shard held by the lead (R97). -/
structure ShardReport where
  shard : Nat
  conn : Nat
  bytes : Sparse
  have_ : List (Nat × Nat)
  total : Nat
  complete : Bool
  /-- message ID of a RESULT: another message is another RESULT -/
  msg : Nat := 0
deriving DecidableEq, Repr, Inhabited

/-- A Vintage (R103 to R110). -/
structure Vintage where
  glove : Nat
  id : Nat
  state : VState
  encrypted : Bool
  sealAbort : Bool
  noise : Bool
  clients : Nat
  floor : Nat
  recipe : Nat
  c : Nat
  s : Nat
  e : Nat
  k : Nat
  sigma : Nat
  keySet : Nat
  shardCount : Nat
  shardIndex : Nat
  lead : Nat
  /-- LPDDR reserved for ledgers, registries, standings and shard reports, in MiB -/
  lpddr : Nat := 0
  openPhase : Nat := 0
  live : Bool := false
  /-- it has been SEALED -/
  wasSealed : Bool := false
  belowCohort : Bool := false
  shortShares : Bool := false
  shardMismatch : Bool := false
  standings : List (Nat × Standing) := []
  /-- CLIENT_CONFLICT events held back: client and Cask (R227) -/
  heldConflicts : List (Nat × Nat) := []
  /-- messages of Lees clients that have become visible: client, counting queue, trigger tag (R226) -/
  heldMessages : List (Nat × Option Nat × Option Nat) := []
  survivors : List Nat := []
  survivorsFixed : Bool := false
  /-- survivors carried by complete partials (R159) -/
  partialSurvivors : Nat := 0
  sealPhase : PhaseWord := default
  /-- phase word of the tick that made share close fall due (R220) -/
  sharePhase : PhaseWord := default
  leesRetracted : Nat := 0
  checkpoints : Nat := 0
  nextCheckpoint : Nat := 1
  /-- draw number of the four fingerprint keys (R176) -/
  printDraw : Nat := 0
  generation : Nat := 0
  masking : Option Masking := none
  shares : List Share := []
  secrets : List Secret := []
  once : Sparse := []
  ledgerClosed : Bool := false
  release : Option Release := none
  /-- its release has reached stage 5 (R109, R301) -/
  completed : Bool := false
  /-- keys of the export windows (R320) -/
  exports : List Nat := []
  shardDigest : List Byte := []
  reports : List ShardReport := []
  /-- the RESULT as far as it has arrived (R97) -/
  result : Option ShardReport := none
  /-- decryption allowance left (R295) -/
  allowance : Nat := 0
deriving DecidableEq, Repr, Inhabited

/-- The summary of a terminal Vintage (R103). -/
structure Summary where
  id : Nat
  state : VState
  flags : Nat
  racked : Nat
  dropped : Nat
  verified : Nat
  pendingWork : Nat
  floor : Nat
  allowance : Nat
  /-- ABORTED under SEAL_POLICY ABORT -/
  byPolicy : Bool := false
deriving DecidableEq, Repr, Inhabited

/-! ### Gloves -/

/-- Glove states in the coding of GLV_STATE (R323, R349). -/
inductive GState where
  | free | active | resetting | wedged | releasing
deriving DecidableEq, Repr, Inhabited

/-- Phase source types (R55). -/
inductive SrcType where
  | none | coordinator | calendar
deriving DecidableEq, Repr, Inhabited

/-- Kinds of phase event in the order of R65. -/
inductive EvKind where
  | contributionClose | shareClose | checkpoint | keyRotation
deriving DecidableEq, Repr, Inhabited

/-- A phase event that has fallen due and awaits the Cellarmaster (R49, R65). -/
structure DueEvent where
  phase : Nat
  kind : EvKind
  vintage : Nat
  /-- checkpoint index taken (R65) -/
  index : Nat := 0
  /-- phase word of the tick that made it fall due -/
  tick : PhaseWord
  cycle : Nat := 0
  /-- source, queue and arrival order of the PHASE_TICK that made it fall due; none for a tick of the hardware (R41) -/
  byTick : Option (Nat × Nat × Nat) := none
deriving DecidableEq, Repr, Inhabited

/-- A tick of a Glove: the count it left behind, the phase word it set, its cycle, and, where a PHASE_TICK caused it, that
packet's source, queue and arrival order. -/
structure TickRec where
  old : Nat
  word : PhaseWord
  cycle : Nat
  byTick : Option (Nat × Nat × Nat) := none
deriving DecidableEq, Repr, Inhabited

/-- The phase sequencer of a Glove (R53 to R65, R69). -/
structure Phase where
  word : PhaseWord := ⟨0, 0⟩
  /-- word in force before the last change, and the cycle of that change (R61) -/
  before : PhaseWord := ⟨0, 0⟩
  changed : Option Nat := none
  type : SrcType := .none
  source : Nat := 0
  queue : Nat := 0
  limit : Nat := 0
  fallback : Bool := false
  /-- calendar milliseconds elapsed since the later of the two moments of R58 -/
  sinceTick : Nat := 0
  lastTick : PhaseWord := ⟨0xFFFF, 0⟩
  ticks : Nat := 0
  refused : Nat := 0
  /-- PHS_COUNT_HI as latched by a read of the PF, and as latched by a read of the Glove's VF -/
  hiLatch : Nat := 0
  hiLatchVf : Nat := 0
  due : List DueEvent := []
  /-- the ticks that a VINTAGE_OPEN or KEY_ROTATE_SET stamped below them may still have to be judged by (R61, R65) -/
  recent : List TickRec := []
deriving DecidableEq, Repr, Inhabited

/-- A Glove reset in progress (R339 to R343). -/
structure Reset where
  /-- 0 GLOVE_RESET, 1 FLR, 2 GLOVE_RELEASE -/
  source : Nat
  release : Bool
  replied : Bool := false
  flushed : Nat := 0
  preempted : Nat := 0
  start : PhaseWord
  cycle : Nat := 0
  /-- the nonce's draw waits in the reserve stream, since this order of serialization; it has been served (R389, R404) -/
  awaits : Option Nat := none
  nonce : Bool := false
deriving DecidableEq, Repr, Inhabited

/-- Session states (GLV_SESSION). -/
inductive SessState where
  | none | keyed | established
deriving DecidableEq, Repr, Inhabited

/-- A Glove's session and Cuff (R363 to R373). -/
structure Session where
  state : SessState := .none
  confidential : Bool := false
  count : Nat := 0
  ek : List Byte := []
  dk : List Byte := []
  dataBase : Nat := 0
  tagBase : Nat := 0
  log2S : Nat := 0
  ctxRecords : Nat := 0
  ctxFirst : Nat := 0
  keys : List Byte := []
  refused : Nat := 0
  counter : Nat := 0
  /-- the record table of R366: record, direction, counter -/
  records : List (Nat × Nat × Nat) := []
  lastAuth : Option Nat := none
  uncounted : Nat := 0
  /-- record and cause of the first of those -/
  firstHeld : Option (Nat × Nat) := none
deriving DecidableEq, Repr, Inhabited

/-- The per-port part of a Glove's assignment (R325, GLOVE_ASSIGN). -/
structure PortShare where
  rate : Nat := 0
  weight : Nat := 0
  ingress : Nat := 0
  mac : Nat := 0
  vlan : Nat := 0
  ipv4 : Nat := 0
  ipv6 : Nat := 0
deriving DecidableEq, Repr, Inhabited

/-- The resources of a Glove (R325), as GLOVE_ASSIGN sets them. -/
structure GloveCfg where
  masker : Bool := false
  qos : Nat := 0
  ctxHost : Bool := false
  trellis : Bool := false
  taste : Nat := 0
  ports : Nat := 0
  cellar : Nat := 0
  cellarBase : Nat := 0
  channels : Nat := 0
  queueFirst : Nat := 0
  queueBlocks : Nat := 0
  winFirst : Nat := 0
  winBlocks : Nat := 0
  connFirst : Nat := 0
  connBlocks : Nat := 0
  keyFirst : Nat := 0
  keyBlocks : Nat := 0
  casks : Nat := 0
  resident : Nat := 0
  pinned : Nat := 0
  primes : Nat := 0
  luts : Nat := 0
  miss : Nat := 0
  entropy : Nat := 0
  dma : Nat := 0
  slots : Nat := 0
  shares : List PortShare := []
deriving DecidableEq, Repr, Inhabited

/-- A lattice parameter set (R245). -/
structure ParamSet where
  index : Nat
  construction : Nat
  log2N : Nat
  limbs : Nat
  special : Nat
  dnum : Nat
  secret : Nat
  weight : Nat
  sigma : Nat
  n : Nat
  pMin : Nat
  mu : Nat
  t : Nat
  moduli : List Nat
  digest : List Byte
deriving DecidableEq, Repr, Inhabited

/-- An evaluation key in LPDDR (R261, R262): its stored half and seed. -/
structure EvalKey where
  kind : Nat
  element : Nat
  seed : List Byte
  b : Sparse
  mib : Nat
deriving DecidableEq, Repr, Inhabited

/-- A lookup table (R286). -/
structure Lut where
  index : Nat
  switchKind : Bool
  log2t : Nat
  r : Int
  exponent : Int
  entries : List Int
  /-- the test polynomial, as residues modulo q_b (R283) -/
  poly : List Nat
  kib : Nat
deriving DecidableEq, Repr, Inhabited

/-- A refresh configuration (R275), with the reply of REFRESH_SETUP. -/
structure RefreshCfg where
  packed : Bool
  lookup : Bool
  rc : Nat
  rs : Nat
  e : Nat
  log2Nb : Nat
  lb : Nat
  u : Nat
  ls : Nat
  lweSet : Nat
  tMax : Nat
  rMs : Nat
  bLwe : Nat
  pMax : Nat
  pSs : Nat
deriving DecidableEq, Repr, Inhabited

/-- The threshold share of a key set (R292, R293). -/
structure ThrShare where
  party : Nat
  margin : Nat
  /-- key ID that unwrapped it, and the chain of its parents at the load (R293, R416) -/
  parent : Nat
  chain : List Nat := []
  /-- LPDDR it takes, in MiB -/
  mib : Nat
  /-- its parent has been invalidated: it goes at the next Vintage boundary (R293, R416) -/
  draining : Bool := false
  evicted : Bool := false
  /-- the two additive halves of every residue -/
  half0 : Sparse
  half1 : Sparse
deriving DecidableEq, Repr, Inhabited

/-- A key set (R261). -/
structure KeySet where
  id : Nat
  set : Nat
  keys : List EvalKey := []
  refresh : Option RefreshCfg := none
  luts : List Lut := []
  share : Option ThrShare := none
deriving DecidableEq, Repr, Inhabited

/-- A loaded recipe (R314). -/
structure Recipe where
  id : Nat
  steps : List (List Byte)
  digest : List Byte
deriving DecidableEq, Repr, Inhabited

/-- The tasting state of one class in one Glove (R447, R449). -/
structure TasteClass where
  cls : Nat
  tiles : Nat := 0
  tasted : Nat := 0
  /-- the LFSR for the run that the next tile belongs to -/
  lfsr : BitVec 32
  /-- every tile is tasted from now on (R212) -/
  always : Bool := false
deriving DecidableEq, Repr, Inhabited

/-- A Glove (R323 to R345) with everything it owns that is not module-wide. -/
structure Glove where
  state : GState := .free
  wedgeCause : Nat := 0
  resets : Nat := 0
  cfg : GloveCfg := {}
  /-- the 408 parameter bytes of GLOVE_ASSIGN and their SHA-256 -/
  assign : List Byte := []
  digest : List Byte := []
  live : Bool := false
  autoRefresh : Bool := false
  phase : Phase := {}
  reset : Option Reset := none
  session : Session := {}
  owner : Option (List Byte) := none
  /-- reset nonce and data seed (R403, R404) -/
  dataSeed : List Byte := []
  revoked : List Nat := []
  generation : Nat := 0
  rotation : Option Nat := none
  params : List ParamSet := []
  keySets : List KeySet := []
  recipes : List Recipe := []
  serial : Nat := 0
  tastes : List TasteClass := []
  vatList : List Nat := []
  /-- its list differs from the in-service Vats: it restripes at its next boundary (R457) -/
  restripe : Bool := false
  /-- the boundary has come and the restripe runs -/
  restriping : Bool := false
  carried : Bool := false
  triggers : List Trigger := []
  counterWaits : List Nat := []
  summaries : List Summary := []
  /-- released blocks queued for the Glove (R387) -/
  blocks : Nat := 0
  /-- the VF's bus mastering ended with an FLR while the reset still runs (R375) -/
  flrEnded : Bool := false
deriving DecidableEq, Repr, Inhabited

/-! ### Module units -/

/-- Serialization: the present cycle, the next arrival number and the cycles whose precedence pass has
run (R28, R504). -/
structure Clock where
  cycle : Nat := 0
  order : Nat := 0
  passed : List Nat := []
deriving DecidableEq, Repr, Inhabited

/-- Cellarmaster states (GBL_CM_STATUS). -/
inductive CmState where
  | running | restarting | halted | boot
deriving DecidableEq, Repr, Inhabited

/-- The Cellarmaster's status (R44 to R52). -/
structure Cm where
  state : CmState := .boot
  restarts : Nat := 0
  eccCorr : Nat := 0
  lastCause : Nat := 0
  /-- calendar milliseconds of the faults that count toward R50 -/
  faults : List Nat := []
  faultPhase : PhaseWord := default
deriving DecidableEq, Repr, Inhabited

/-- The calendar clock (R67 to R69). `elapsed` counts milliseconds since the boot epoch began, whatever
CAL_SET does (R459). -/
structure Calendar where
  ms : Nat := 0
  valid : Bool := false
  lost : Bool := false
  vbatLow : Bool := false
  tamperSeen : Bool := false
  trim : BitVec 11 := 0
  hiLatch : Nat := 0
  elapsed : Nat := 0
  /-- stopped for lack of VBAT until power returns (R68) -/
  stopped : Bool := false
deriving DecidableEq, Repr, Inhabited

/-- Power states (R493). -/
inductive PowerState where
  | off | aux | standby | on | tripped
deriving DecidableEq, Repr, Inhabited

/-- Power, throttling and start-up (R471 to R481, R493 to R501). -/
structure Power where
  state : PowerState := .on
  auxPresent : Bool := true
  inputGood : Bool := true
  pwrEn : Bool := true
  pwrGood : Bool := true
  perst : Bool := false
  /-- PERST_N has been deasserted before the end of the 100 ms after PWR_GOOD (R494) -/
  perstEarly : Bool := false
  ready : Bool := false
  tripCause : Nat := 0
  slotId : Nat := 0
  thermtrip : Bool := false
  cap : Nat := 1900
  capNext : Option Nat := none
  level : Nat := 0
  causes : Nat := 0
  /-- the level was above 0 at some moment of the present second -/
  throttled : Bool := false
  reported : Bool := false
  thrCount : Nat := 0
  vin : Nat := 0
  iin : Nat := 0
  pinMs : Nat := 0
  pinSec : Nat := 0
  pinPeak : Nat := 0
  inlet : Nat := 0
  outlet : Nat := 0
  vatTj : Nat := 0
  hubTj : Nat := 0
  flow : Nat := 0
  auxMv : Nat := 0
  vbatMv : Nat := 0
deriving DecidableEq, Repr, Inhabited

/-- An MSI-X vector of a function that is not in its reset state (R337, R338). -/
structure Vector where
  fn : Nat
  index : Nat
  count : Nat := 0
  masked : Bool := false
  pendingBit : Bool := false
  /-- message address and data of the MSI-X table (R354) -/
  address : Nat := 0
  data : Nat := 0
  sent : Nat := 0
deriving DecidableEq, Repr, Inhabited

/-- The host port: SR-IOV, MSI-X, the memory of the host and the last value read from a BAR. -/
structure HostPort where
  vfEnable : Bool := false
  numVfs : Nat := 0
  vectors : List Vector := []
  /-- host memory as the engine reaches it by DMA; key 2^64 * function + I/O virtual address -/
  mem : Mem := []
  /-- bytes of host memory that the engine has last written as entries of its queues and as spilled contexts, by the same key:
  the byte plus 1 -/
  rings : Sparse := []
  lastRead : Word32 := 0
  /-- functions whose FLR has not completed (R375) -/
  flr : List Nat := []
  /-- functions with Bus Master Enable, and with Memory Space Enable, set (R375) -/
  busMaster : List Nat := []
  memorySpace : List Nat := []
  /-- RRS period of the PF ended by Device Readiness Status (R352) -/
  drsSent : Bool := false
  /-- RWL fields have been sealed (R11) -/
  cfgSealed : Bool := false
deriving DecidableEq, Repr, Inhabited

/-- What leaves the engine on the sideband: a reply, or an MCTP error completion (R491). -/
inductive SidebandOut where
  | reply (bytes : List Byte)
  | bufferFull
deriving DecidableEq, Repr, Inhabited

/-- The sideband endpoint (R491, R492). -/
structure SidebandSt where
  address : Option Nat := none
  /-- packets in the command buffer that are not fetched yet: the Cellarmaster restarts or boots (R48, R49) -/
  held : List (List Byte) := []
  out : List SidebandOut := []
  /-- an in-band interrupt signals pending replies (R491) -/
  interrupt : Bool := false
deriving DecidableEq, Repr, Inhabited

/-- What leaves the engine on a port (R112, R115). -/
inductive Wire where
  | packet (p : Framed)
  | arpReply (port address mac target : Nat)
  | neighbourAdvert (port address mac target : Nat)
  | echoReply (port : Nat) (v6 : Bool) (address target : Nat) (payload : List Byte)
deriving DecidableEq, Repr, Inhabited

/-- The registers of one port (R111, FIJ_). -/
structure PortRegs where
  enable : Bool := false
  ipv4 : Bool := true
  ipv6 : Bool := true
  linkUp : Bool := false
  fecLock : Bool := false
  markKib : Nat := 0x0800
  dropIntegrity : Nat := 0
  dropCredit : Nat := 0
  naks : Nat := 0
  inject : Inject := {}
deriving DecidableEq, Repr, Inhabited

/-- The Trellis membership (R152 to R155). -/
structure Trellis where
  member : Nat := 0
  /-- 0 BYPASSED, 1 SWITCHING, 2 INSERTED -/
  bypass : Nat := 0
  members : List Nat := []
  ringEpoch : Nat := 0
  forwarded : Nat := 0
  hopDrops : Nat := 0
deriving DecidableEq, Repr, Inhabited

/-- The network side of the module. -/
structure Net where
  ports : List PortRegs
  udp : Nat := 0xC5A8
  missDrop : Nat := 0
  /-- packets for a connection that does not exist, dropped and counted at step 2 of R131; no register shows it -/
  stray : Nat := 0
  trellis : Trellis := {}
  out : List Wire := []
deriving DecidableEq, Repr, Inhabited

/-- Roles of a noise source (R379). -/
inductive SrcRole where
  | starting | active | standby | quarantined | test
deriving DecidableEq, Repr, Inhabited

/-- One noise source (R379, R396). -/
structure Source where
  role : SrcRole := .starting
  lastFail : Nat := 0
  startup : Bool := false
  fails : Nat := 0
  /-- ENT_SRC_n.FREQ: the measured oscillator frequency -/
  freq : Nat := 0
  /-- start-up tests: 1 passed, 2 to be tested once more (R390) -/
  trial : Nat := 0
deriving DecidableEq, Repr, Inhabited

/-- Entropy Unit states (ENT_STATUS.STATE). -/
inductive EntState where
  | startup | ready | degraded | failed
deriving DecidableEq, Repr, Inhabited

/-- A conditioned block that is not released yet: the sources of its segments, and the times between which its samples
were taken, in nanoseconds (R382, R383). -/
structure PendingBlock where
  sources : List Nat
  start : Nat
  stop : Nat
deriving DecidableEq, Repr, Inhabited

/-- A stream of a conditioner: the time of its last block boundary in nanoseconds, and its unreleased blocks, oldest first. -/
structure EntropyStream where
  now : Nat := 0
  pending : List PendingBlock := []
deriving DecidableEq, Repr, Inhabited

/-- The Entropy Unit (R379 to R396). -/
structure Entropy where
  /-- the main and the reserve conditioner (R382 to R386) -/
  main : EntropyStream := {}
  spare : EntropyStream := {}
  state : EntState := .startup
  sources : List Source
  blocks : Nat := 0
  hiLatch : Nat := 0
  discard : Nat := 0
  unused : Nat := 0
  /-- position in the frame of R387 -/
  position : Nat := 0
  /-- main blocks counted for the 16th of R386 -/
  sixteenth : Nat := 0
  reserve : Nat := 0
  /-- sources that move to ACTIVE at the next block boundary (R392) -/
  promote : List Nat := []
  /-- ENT_BEAT_MIN: the lowest beat count of R381's last interval, and the two sources of that pair -/
  beatMin : Nat × Nat × Nat := (0xFFFF, 0, 0)
deriving DecidableEq, Repr, Inhabited

/-- Key-slot states (R412). -/
inductive SlotState where
  | empty | loaded | draining | lost
deriving DecidableEq, Repr, Inhabited

/-- A key slot that is not EMPTY (R407, R412, R413): the key is held as two shares. -/
structure KeySlot where
  slot : Nat
  owner : Nat
  state : SlotState
  keyId : Nat
  parent : Nat
  /-- the parent and its own chain of parents, as they were when the key was loaded (R416) -/
  chain : List Nat := []
  usage : Nat
  kind : Nat
  lifetime : Nat
  /-- uses left of a COUNTED key -/
  left : Nat
  share0 : List Byte
  share1 : List Byte
  split : Bool := false
deriving DecidableEq, Repr, Inhabited

/-- Life-cycle states (R423). -/
inductive LifeCycle where
  | mfg | prov | deployed | rma
deriving DecidableEq, Repr, Inhabited

/-- The Root Store and key store (R397 to R422). -/
structure Keys where
  /-- identity root of a life-cycle state, if present -/
  roots : List (LifeCycle × List Byte)
  tenantRoot : Option (List Byte)
  zeroized : Bool := false
  /-- KEY_TAMPER bits 0 to 5 -/
  tamper : BitVec 6 := 0
  slots : List KeySlot := []
  spent : List (List Byte) := []
  /-- the Vintner's revocation list (R417) -/
  revoked : List Nat := []
  remask : Nat := 0
  remaskLate : Nat := 0
  /-- slots that the re-mask round under way has still to serve (R413) -/
  remasking : List Nat := []
deriving DecidableEq, Repr, Inhabited

/-- Firmware slot states (R436). -/
inductive FwState where
  | empty | writing | verified | pending | active | invalid
deriving DecidableEq, Repr, Inhabited

/-- A firmware slot: its state, the bytes written, and the tried mark of R438. -/
structure FwSlot where
  state : FwState := .empty
  /-- the slot holds the image of manufacture, whose bytes are `Config.factoryByte` -/
  factory : Bool := false
  image : Mem := []
  written : Nat := 0
  tried : Bool := false
deriving DecidableEq, Repr, Inhabited

/-- A certificate of the chain (R428): body and signature. -/
structure Cert where
  body : List Byte
  signature : List Byte
deriving DecidableEq, Repr, Inhabited

/-- Life cycle, debug and firmware (R423 to R443). -/
structure Firmware where
  lc : LifeCycle
  debug : Bool := false
  debugPending : Bool := false
  slotA : FwSlot
  slotB : FwSlot := {}
  /-- 0 A, 1 B -/
  running : Nat := 0
  trial : Bool := false
  recovery : Bool := false
  rollback : Nat := 0
  endorsement : Option Cert := none
  chain : List Cert := []
  /-- RMA entered by R430 and no endorsement has followed -/
  relink : Bool := false
  ordering : Nat := 0
  epoch : Nat := 0
deriving DecidableEq, Repr, Inhabited

/-- Vat states (R452). -/
inductive VatState where
  | active | suspect | testing | retired | probation | joining
deriving DecidableEq, Repr, Inhabited

/-- One Vat (R452, R470). -/
structure Vat where
  state : VatState := .active
  permanent : Bool := false
  shadows : Nat := 0
  /-- it has left service (R454) -/
  out : Bool := false
  /-- the scan that it is TESTING in was scheduled for it as a suspect (R454) -/
  scheduled : Bool := false
  /-- Tasting buffer: the output of the last tasted tile that it ran (R80, R448) -/
  buffer : List Nat := []
deriving DecidableEq, Repr, Inhabited

/-- A chase (R451). -/
structure Chase where
  vat : Nat
  cls : Nat
  glove : Nat
  left : Nat
deriving DecidableEq, Repr, Inhabited

/-- A record of the unit history (R459). -/
structure Record where
  kind : Nat
  unit : Nat
  cls : Nat := 0
  outcome : Nat := 0
  glove : Nat := 0xFF
  seq : Nat := 0
  epoch : Nat := 0
  time : Nat := 0
  timeValid : Bool := false
  vats : List Nat := []
  syndrome : Nat := 0
  tile : Nat := 0
  /-- both copies in flash fail their CRC (R459) -/
  lost : Bool := false
deriving DecidableEq, Repr, Inhabited

/-- The integrity controller (R445 to R470). -/
structure Integrity where
  vats : List Vat
  chases : List Chase := []
  /-- the Vat whose stripes are carried (R454) -/
  carrying : Option Nat := none
  history : List Record := []
  seq : Nat := 0
  tasted : Nat := 0
  hiLatch : Nat := 0
  arbitrated : Nat := 0
  unresolved : Nat := 0
  storeOk : Bool := false
  /-- works already re-issued once (R450) -/
  reissued : List TastedWork := []
  /-- works with an unresolved tile, which are re-issued once the first scheduled scan has ended (R450) -/
  waiting : List TastedWork := []
  /-- Glove and output Cask of lattice work with an unresolved tile, whose opcode has not ended (R450) -/
  faulted : List (Nat × Nat) := []
  /-- Casks whose carried stripes are not yet verified: Glove, Cask -/
  verifying : List (Nat × Nat) := []
deriving DecidableEq, Repr, Inhabited

/-- The whole module. `free` is the model's own field: the number of free values used so far. -/
structure State where
  pending : List Instr
  clock : Clock
  cm : Cm
  cal : Calendar
  pwr : Power
  host : HostPort
  side : SidebandSt
  net : Net
  ent : Entropy
  keys : Keys
  fw : Firmware
  int : Integrity
  gloves : List Glove
  queues : List Queue
  staged : List Packet
  outstanding : List Outstanding
  windows : List Window
  /-- the last window revoked at each index, whose event queue and event interval a stale key still has (R134) -/
  revokedWins : List Window
  /-- generation by window index; 256 marks a retired index (R135) -/
  gens : Sparse
  conns : List Conn
  /-- incarnation by connection ID (R120) -/
  incs : Sparse
  casks : List Cask
  /-- the spill stripe cache of each Vat, the line least recently used first (R80, R87) -/
  spill : List (List SpillLine)
  vintages : List Vintage
  free : Nat
deriving DecidableEq, Repr

/-- Why the model stops with a fault. No command of the block does: every refusal the manual describes is a
status reply, a NAK, a drop or a register bit, and is a next state. Kept for the interface; nothing raises
it (safe). -/
inductive Fault where
  /-- raised by no meaning -/
  | none
deriving DecidableEq, Repr

/-- Why the model refuses a command. -/
inductive Refusal where
  /-- a command without a meaning yet, by its mnemonic; raised by arms of `exec` only (safe) -/
  | notModelled (mnemonic : String)
deriving DecidableEq, Repr

/-- The module right after a full reset, before readiness (R495, R496): every register at the value its
table gives, the Gloves FREE (R327), no object of any kind, boot epoch 1 and the values of
notes/assumptions/ where the manual gives none. The calendar's registers, whose reset column reads Running or Kept on
VBAT, start at 0 and false (DESIGN CHOICE, notes/assumptions/125.md). -/
def State.reset : State where
  pending := []
  clock := {}
  cm := {}
  cal := {}
  pwr := {}
  host := {}
  side := {}
  net := { ports := List.replicate 10 {} }
  ent := { sources := List.replicate 6 {} }
  keys := { roots := [(.deployed, List.replicate 32 0)], tenantRoot := some (List.replicate 32 0) }
  fw := { lc := .deployed, slotA := { state := .active, factory := true }, epoch := 1 }
  int := { vats := List.replicate 8 {} }
  gloves := List.replicate 16 {}
  queues := []
  staged := []
  outstanding := []
  windows := []
  revokedWins := []
  gens := []
  conns := []
  incs := []
  casks := []
  spill := List.replicate 8 []
  vintages := []
  free := 0

end Sys2Proof.Machine
end

