-- ==== Sys2Proof/Machine/Flags.lean ====
section
/-! DEFINITION. Status words (R12, R39 and the chapters that add codes), the status reply (R24) and the
registers that are read whole. -/

set_option autoImplicit false

namespace Sys2Proof.Machine

/-- The status word of a status code: class in bits [15:8], code in bits [7:0] (R12). -/
def statusWord : Status → Nat
  | .ok => 0x0000
  | .placedSpec => 0x0001
  | .racked => 0x0002
  | .refreshedAuto => 0x0003
  | .badOpcode => 0x0101
  | .badParam => 0x0102
  | .badHeader => 0x0103
  | .digestMismatch => 0x0104
  | .badState => 0x0201
  | .overruled => 0x0202
  | .busyRetry => 0x0203
  | .wedged => 0x0204
  | .flushed => 0x0205
  | .engineHalted => 0x0206
  | .accessViolation => 0x0301
  | .keyRevoked => 0x0302
  | .keyExpired => 0x0303
  | .hostFault => 0x0304
  | .rootZeroized => 0x0305
  | .noResource => 0x0401
  | .spilled => 0x0402
  | .peerLost => 0x0403
  | .keyMismatch => 0x0501
  | .noiseSpent => 0x0502
  | .shareUnwrap => 0x0503
  | .cuffAuth => 0x0504
  | .blobAuth => 0x0505
  | .onceRule => 0x0601
  | .belowCohort => 0x0602
  | .shareConflict => 0x0603
  | .shareAuth => 0x0604
  | .notAggregate => 0x0605
  | .entropyNotReady => 0x0701
  | .entropyFailed => 0x0702
  | .replayRequested => 0x0801
  | .integrityFault => 0x0802
  | .rollbackRefused => 0x0901
  | .imageAuth => 0x0902
  | .storeFault => 0x0903

/-- Class of a status word (R12). -/
def statusClass (w : Nat) : Nat := w / 256

/-- The 8 bytes of a phase word: count in bits [47:0], source ID above (R53). -/
def phaseBytes (w : PhaseWord) : List Byte := toLE 6 w.count ++ toLE 2 w.src

/-- A phase word as one number (R53). -/
def phaseNum (w : PhaseWord) : Nat := w.count % 2 ^ 48 + 2 ^ 48 * w.src

/-- The 32 bytes of a status reply (R24). -/
def replyBytes (p : Packet) (a : Answer) : List Byte :=
  toLE 4 p.tag ++ toLE 2 (statusWord a.status) ++ toLE 2 a.detail ++
  toLE 4 a.r0 ++ toLE 4 a.r1 ++ toLE 4 a.r2 ++ toLE 4 a.r3 ++ phaseBytes p.stamp

/-- The opcode named to the loser of a conflict: 0x0701 for any Glove reset (R25). -/
def winningOpcode (op : Nat) : Nat := if op = 0x0703 then 0x0701 else op

def queueStateCode : QState → Nat
  | .active => 0
  | .halted => 1
  | .destroying => 2

def connStateCode : ConnState → Nat
  | .connecting => 0
  | .established => 1
  | .held => 2
  | .closing => 3
  | .error => 4

def gloveStateCode : GState → Nat
  | .free => 0
  | .active => 1
  | .resetting => 2
  | .wedged => 3
  | .releasing => 4

def sourceTypeCode : SrcType → Nat
  | .none => 0
  | .coordinator => 1
  | .calendar => 2

def sessionStateCode : SessState → Nat
  | .none => 0
  | .keyed => 1
  | .established => 2

def vintageStateCode : VState → Nat
  | .draft => 0
  | .opened => 1
  | .sealedV => 2
  | .unmasking => 3
  | .ready => 4
  | .released => 5
  | .closed => 6
  | .aborted => 7

/-- GLV_STATE (chapter 12). -/
def regGlvState (g : Glove) : Nat :=
  gloveStateCode g.state + g.wedgeCause % 16 * 2 ^ 8 + min 65535 g.resets * 2 ^ 16

/-- GLV_CFG (chapter 12). -/
def regGlvCfg (g : Glove) : Nat :=
  b2n g.live + 2 * b2n g.autoRefresh + 4 * b2n g.cfg.masker + 8 * g.cfg.qos + 32 * b2n g.cfg.ctxHost +
  64 * b2n g.cfg.trellis + 256 * g.cfg.taste

/-- Slots held by a Glove. -/
def slotCount (slots : Nat) : Nat := popcount 256 slots

/-- GLV_SLOTS.MAX_GAP: longest cyclic run of slots not held. -/
def slotGap (slots : Nat) : Nat :=
  if slots % 2 ^ 256 = 0 then 0 else
  ((List.range 512).foldl (fun (best, run) i =>
    if slots.testBit (i % 256) then (best, 0) else (max best (run + 1), run + 1)) (0, 0)).1

def regGlvSlots (g : Glove) : Nat := slotCount g.cfg.slots + slotGap g.cfg.slots * 2 ^ 16

def regGlvShares (g : Glove) : Nat := g.cfg.entropy + g.cfg.dma * 2 ^ 9 + g.cfg.miss * 2 ^ 18

/-- GLV_SESSION (R356). -/
def regGlvSession (g : Glove) : Nat :=
  sessionStateCode g.session.state + 4 * b2n g.session.confidential + g.session.count % 65536 * 2 ^ 16

def cmStateCode : CmState → Nat
  | .running => 0
  | .restarting => 1
  | .halted => 2
  | .boot => 3

/-- GBL_CM_STATUS (R52). -/
def regCmStatus (c : Cm) : Nat :=
  cmStateCode c.state + min 255 c.restarts * 2 ^ 8 + min 255 c.eccCorr * 2 ^ 16 + c.lastCause * 2 ^ 24

end Sys2Proof.Machine
end

