-- ==== Sys2Proof/Machine/Base.lean ====
section
/-! DEFINITION. Access to the parts of the state: Gloves, queues, windows, connections, Casks and Vintages,
the ranges a context owns (R325, R354), the phase word in force, and the posting of queue entries and
events. Every later file reads and writes objects through these operations. -/

set_option autoImplicit false

namespace Sys2Proof.Machine

/-! ### Gloves and phase -/

/-- The context number of the Vintner (R8). -/
def vintner : Nat := 16

def gloveOf (s : State) (g : Nat) : Glove := s.gloves.getD g {}

def setGlove (s : State) (g : Nat) (f : Glove → Glove) : State := { s with gloves := setAt s.gloves g f }

/-- The calendar phase word (R54). -/
def calendarWord (s : State) : PhaseWord := ⟨0xFFFF, s.cal.ms % 2 ^ 48⟩

/-- The phase word in force in a context (R24). -/
def contextWord (s : State) (ctx : Nat) : PhaseWord :=
  if ctx < 16 then (gloveOf s ctx).phase.word else calendarWord s

/-- The stamp of an arrival in a serialization cycle: an arrival in the cycle of a tick comes before the
tick (R61). -/
def stampAt (s : State) (g cycle : Nat) : PhaseWord :=
  let p := (gloveOf s g).phase
  if p.changed = some cycle then p.before else p.word

/-- The stamp a packet receives from its context's serializer (R28). In the cycle of a calendar millisecond a Vintner or
sideband packet takes the calendar's count after it: R61's tie rule speaks of a Glove's arrivals alone (DESIGN CHOICE,
notes/assumptions/121.md). -/
def contextStamp (s : State) (ctx cycle : Nat) : PhaseWord :=
  if ctx < 16 then stampAt s ctx cycle else calendarWord s

/-- The Glove's guarantee is EXACT (GLV_CFG.GUARANTEE). -/
def isExact (s : State) (g : Nat) : Bool := !(gloveOf s g).live

/-! ### Ranges (R325, R354, R507) -/

def inBlocks (unit first blocks x : Nat) : Bool := unit * first ≤ x && x < unit * (first + blocks)

def queueInRange (s : State) (ctx q : Nat) : Bool :=
  if ctx < 16 then inBlocks 64 (gloveOf s ctx).cfg.queueFirst (gloveOf s ctx).cfg.queueBlocks q else q < 256

def windowInRange (s : State) (ctx i : Nat) : Bool :=
  if ctx < 16 then inBlocks 4096 (gloveOf s ctx).cfg.winFirst (gloveOf s ctx).cfg.winBlocks i else i < 4096

def connInRange (s : State) (ctx c : Nat) : Bool :=
  ctx < 16 && inBlocks 64 (gloveOf s ctx).cfg.connFirst (gloveOf s ctx).cfg.connBlocks c

def slotInRange (s : State) (ctx k : Nat) : Bool :=
  if ctx < 16 then inBlocks 16 (gloveOf s ctx).cfg.keyFirst (gloveOf s ctx).cfg.keyBlocks k else k < 16

def caskInRange (s : State) (ctx c : Nat) : Bool := ctx < 16 && c < (gloveOf s ctx).cfg.casks

def vectorInRange (ctx v : Nat) : Bool := if ctx < 16 then v < 256 else v < 64

/-! ### Objects -/

def queueOf (s : State) (q : Nat) : Option Queue := s.queues.find? (fun x => x.id == q)

def setQueue (s : State) (q : Nat) (f : Queue → Queue) : State :=
  { s with queues := mapIf (fun x => x.id == q) f s.queues }

/-- A queue of a context and kind. -/
def ownQueue (s : State) (ctx q : Nat) (kind : QKind) : Bool :=
  match queueOf s q with
  | some x => x.owner == ctx && x.kind == kind
  | none => false

def connOf (s : State) (c : Nat) : Option Conn := s.conns.find? (fun x => x.id == c)

def setConn (s : State) (c : Nat) (f : Conn → Conn) : State :=
  { s with conns := mapIf (fun x => x.id == c) f s.conns }

def windowOf (s : State) (i : Nat) : Option Window := s.windows.find? (fun x => x.index == i)

def setWindow (s : State) (i : Nat) (f : Window → Window) : State :=
  { s with windows := mapIf (fun x => x.index == i) f s.windows }

/-- The 32-bit key of an index and a generation (R8). -/
def windowKey (index gen : Nat) : Nat := 256 * index + gen

/-- The generation an index carries; 256 when it has retired (R135). -/
def generationOf (s : State) (i : Nat) : Nat := Sparse.get s.gens i

def caskOf (s : State) (g c : Nat) : Option Cask := s.casks.find? (fun x => x.glove == g && x.id == c)

def setCask (s : State) (g c : Nat) (f : Cask → Cask) : State :=
  { s with casks := mapIf (fun x => x.glove == g && x.id == c) f s.casks }

def vintageOf (s : State) (g v : Nat) : Option Vintage := s.vintages.find? (fun x => x.glove == g && x.id == v)

def setVintage (s : State) (g v : Nat) (f : Vintage → Vintage) : State :=
  { s with vintages := mapIf (fun x => x.glove == g && x.id == v) f s.vintages }

/-- CLOSED or ABORTED (R108). -/
def terminalState : VState → Bool
  | .closed => true
  | .aborted => true
  | _ => false

/-- The Casks of a Glove bound to a Vintage. -/
def casksBound (s : State) (g v : Nat) : List Cask :=
  s.casks.filter (fun x => x.glove == g && x.vintage == v && v != 0)

/-- Accumulate Casks have role 0 (CASK_ALLOC). -/
def accumulateCasks (s : State) (g v : Nat) : List Cask := (casksBound s g v).filter (fun x => x.role == 0)

/-- Bytes of one coordinate of a ring (R82). -/
def coordBytes : Nat → Nat
  | 0 => 2
  | 1 => 4
  | 2 => 8
  | 3 => 8
  | 4 => 4
  | _ => 2

/-- Bytes of a Cask (R83). -/
def caskBytes (c : Cask) : Nat := coordBytes c.ring * c.n * c.limbs

def keySlotOf (s : State) (k : Nat) : Option KeySlot := s.keys.slots.find? (fun x => x.slot == k)

def setKeySlot (s : State) (k : Nat) (f : KeySlot → KeySlot) : State :=
  { s with keys := { s.keys with slots := mapIf (fun x => x.slot == k) f s.keys.slots } }

/-- The key of a slot: the sum of its shares (R413). -/
def slotKey (k : KeySlot) : List Byte := xorBytes k.share0 k.share1

/-- A slot's key under another mask (R413). -/
def maskSlot (m : List Byte) (k : KeySlot) : KeySlot := { k with share0 := xorBytes (slotKey k) m, share1 := m }

/-- The next free value: its draw number, and the state after it. -/
def drawFree (s : State) : Nat × State := (s.free, { s with free := s.free + 1 })

/-- The name of a draw of entropy: its draw number, and above that the set of the ACTIVE sources, whose samples its blocks
hold (R382). -/
def entropyDraw (s : State) : Nat :=
  let active (i : Nat) : Bool := (s.ent.sources.getD i {}).role == .active
  s.free + 2 ^ 64 * ((List.range 6).filter active).foldl (fun m i => m + 2 ^ i) 0

/-- A block of a draw: SHA-256 over 768 bits of raw samples, in equal segments of each contributing source in ascending
number (R382, R385). The samples are free. -/
def entropyBlock (draw j : Nat) : List Byte :=
  let sources := (List.range 6).filter (fun i => (draw / 2 ^ 64).testBit i)
  let segment := 96 / max 1 sources.length
  Crypto.sha256 ((List.range 96).map (fun i =>
    Config.sampleByte (sources.getD (i / segment) 0) (draw % 2 ^ 64) (j * segment + i % segment)))

/-- Byte i of the blocks of a draw. -/
def entropyByte (draw i : Nat) : Byte := (entropyBlock draw (i / 32)).getD (i % 32) 0

/-- `n` bytes of drawn entropy (R382), and the state after the draw. -/
def drawBytes (s : State) (n : Nat) : List Byte × State :=
  ((List.range n).map (entropyByte (entropyDraw s)), { s with free := s.free + 1 })

/-! ### Queue entries and events -/

/-- Function number: the PF for the Vintner, VF g + 1 for Glove g (R351). -/
def functionOf (ctx : Nat) : Nat := if ctx < 16 then ctx + 1 else 0

/-- An entry raises the pending count of the queue's vector (R337). -/
def bumpVector (s : State) (fn v : Nat) : State :=
  let vs := s.host.vectors
  let vs' := if vs.any (fun x => x.fn == fn && x.index == v)
    then mapIf (fun x => x.fn == fn && x.index == v) (fun x => { x with count := x.count + 1 }) vs
    else vs ++ [{ fn := fn, index := v, count := 1 }]
  { s with host := { s.host with vectors := vs' } }

/-- The record table with a record's last counter in one direction (R366). -/
def noteRecord (l : List (Nat × Nat × Nat)) (record dir counter : Nat) : List (Nat × Nat × Nat) :=
  l.filter (fun r => !(r.1 == record && r.2.1 == dir)) ++ [(record, dir, counter)]

/-- The engine seals a Cuff record again: its counter rises by one and the record table keeps it (R365,
R366, R367). -/
def sealRecord (s : State) (g record : Nat) : State :=
  setGlove s g (fun x =>
    let n := x.session.counter + 1
    { x with session := { x.session with counter := n, records := noteRecord x.session.records record 1 n } })

/-! ### Host memory (R351, R361) -/

/-- The VF of a function number exists (R351). -/
def vfExists (s : State) (fn : Nat) : Bool := s.host.vfEnable && 1 ≤ fn && fn ≤ s.host.numVfs

/-- The DMA of a context's function reaches host memory: the PF's, or that of an existing VF whose Glove is not WEDGED
(R351, R376). -/
def dmaReaches (s : State) (ctx : Nat) : Bool :=
  ctx == vintner || (vfExists s (functionOf ctx) && (gloveOf s ctx).state != .wedged)

/-- Key of a byte of host memory as a function reaches it. -/
def hostKey (fn addr : Nat) : Nat := 2 ^ 64 * fn + addr % 2 ^ 64

/-- The byte of host memory at a key: what the engine last wrote there as a queue's entry, or else what `mem` holds. -/
def hostByte (s : State) (k : Nat) : Byte :=
  match Sparse.get s.host.rings k with
  | 0 => Memory.read s.host.mem k
  | v + 1 => BitVec.ofNat 8 v

def hostRead (s : State) (fn addr n : Nat) : List Byte := (List.range n).map (fun i => hostByte s (hostKey fn addr + i))

/-- The keys from one on hold no queue entry any more. -/
def clearRing (m : Sparse) (k n : Nat) : Sparse := m.filter (fun x => x.1 < k || k + n ≤ x.1)

def hostWrite (s : State) (fn addr : Nat) (bs : List Byte) : State :=
  { s with host := { s.host with
      mem := Memory.writeN s.host.mem (hostKey fn addr) bs, rings := clearRing s.host.rings (hostKey fn addr) bs.length } }

/-- The engine writes bytes of a queue's ring. -/
def ringWrite (s : State) (fn addr : Nat) (bs : List Byte) : State :=
  { s with host := { s.host with rings :=
      (List.zip (List.range bs.length) bs).foldl (fun m x => Sparse.set m (hostKey fn addr + x.1) (x.2.toNat + 1)) s.host.rings } }

/-! ### Cuff records as the engine writes them (R364 to R367) -/

/-- The tag entry of a record without its tag: bytes 0 to 15 (R364). -/
def tagFront (record dir counter : Nat) : List Byte := toLE 4 record ++ toLE 1 dir ++ zeros 3 ++ toLE 8 counter

/-- Record j sealed with a plaintext under the engine's direction: tag entry, then ciphertext with its tag (R365). -/
def sealBytes (s : State) (g j : Nat) (plain : List Byte) : List Byte × List Byte :=
  let x := (gloveOf s g).session
  let front := tagFront j 1 x.counter
  (front, Crypto.gcmSeal (slice x.keys 32 32) (zeros 4 ++ toLE 8 x.counter) front plain)

/-- The engine seals record j, by one way of writing host memory. -/
def cuffSealBy (write : State → Nat → Nat → List Byte → State) (s : State) (g j : Nat) (plain : List Byte) : State :=
  let s1 := sealRecord s g j
  let x := (gloveOf s1 g).session
  let (front, out) := sealBytes s1 g j plain
  write (write s1 (functionOf g) (x.dataBase + 4096 * j) (out.take 4096))
    (functionOf g) (x.tagBase + 32 * j) (front ++ out.drop 4096)

def cuffSeal : State → Nat → Nat → List Byte → State := cuffSealBy hostWrite

/-- Size of an entry of an engine-filled queue (R24, R141, R502). -/
def entryBytes : QKind → Nat
  | .receive => 64
  | .command => 64
  | .send => 64
  | _ => 32

/-- The entries the producer of a queue may still write before it is `depth` ahead of the consumer (R360). -/
def freeEntries (q : Queue) : Nat := 2 ^ q.log2Depth - circle 32 q.prod q.cons - q.reserved

/-- The plaintext of a record of an engine-written ring with an entry put into it: the record being filled is kept on
chip, and another starts with zeros (R367). -/
def filledRecord (q : Queue) (addr : Nat) (entry : List Byte) : List Byte :=
  let old := match q.filling with
    | some (j, plain) => if j = addr / 4096 then plain else zeros 4096
    | none => zeros 4096
  old.take (addr % 4096) ++ entry ++ old.drop (addr % 4096 + entry.length)

/-- An entry reaches the ring's memory: the function's host memory, or its Cuff record, sealed again (R359, R361,
R367). A write that fails has no other effect here (R362). -/
def storeEntry (s : State) (q : Queue) (entry : List Byte) : State :=
  let addr := q.base + entryBytes q.kind * (q.prod % 2 ^ q.log2Depth)
  if ¬ dmaReaches s q.owner then s
  else if q.cuff ∧ q.owner < 16 then
    let plain := filledRecord q addr entry
    cuffSealBy ringWrite (setQueue s q.id (fun x => { x with filling := some (addr / 4096, plain) })) q.owner (addr / 4096) plain
  else ringWrite s (functionOf q.owner) addr entry

/-- Write one entry into an engine-filled queue at its producer index. -/
def pushEntry (s : State) (q : Queue) (entry : List Byte) : State :=
  let s1 := setQueue (storeEntry s q entry) q.id (fun x => { x with
    entries := x.entries ++ [entry], prod := (x.prod + 1) % 2 ^ 32 })
  if q.kind = .receive then s1 else bumpVector s1 (functionOf q.owner) q.vector

/-- Post an entry to a reply, completion or event queue. A full queue keeps the entry waiting (R77). An
entry for a Glove whose VF's Function Level Reset has completed while its reset still runs is discarded
(R375, R77). An entry for a queue that does not exist goes nowhere. -/
def postTo (s : State) (id : Nat) (entry : List Byte) : State :=
  match queueOf s id with
  | none => s
  | some q =>
    if q.owner < 16 ∧ (gloveOf s q.owner).flrEnded then s
    else if q.backlog = [] ∧ 0 < freeEntries q then pushEntry s q entry
    else setQueue s id (fun x => { x with backlog := x.backlog ++ [entry] })

/-- Post a reply into the entry that was reserved for it at fetch: replies that wait for room do not hold it
back (R27). Without a reservation it is posted as any entry is. -/
def postReserved (s : State) (id : Nat) (entry : List Byte) : State :=
  match queueOf s id with
  | none => s
  | some q =>
    if q.reserved = 0 then postTo s id entry
    else
      let s1 := setQueue s id (fun x => { x with reserved := x.reserved - 1 })
      if q.owner < 16 ∧ (gloveOf s q.owner).flrEnded then s1 else pushEntry s1 q entry

/-- Entries that waited for room are posted in order, as far as room goes. -/
def drainBacklog : Nat → State → Nat → State
  | 0, s, _ => s
  | n + 1, s, id =>
    match queueOf s id with
    | none => s
    | some q =>
      match q.backlog with
      | [] => s
      | e :: rest =>
        if 0 < freeEntries q then
          drainBacklog n (pushEntry (setQueue s id (fun x => { x with backlog := rest })) q e) id
        else s

/-- "The event queue" of a context: its event queue with the lowest ID (DESIGN CHOICE,
notes/assumptions/7.md). -/
def eventQueueOf (s : State) (ctx : Nat) : Option Nat :=
  s.queues.foldl (fun best q =>
    if q.owner == ctx && q.kind == .event then
      match best with
      | some b => some (min b q.id)
      | none => some q.id
    else best) none

/-- Events that wait for room in a context's event queue: they stall the work that posts to it (R77). -/
def eventsStalled (s : State) (ctx : Nat) : Bool :=
  (((eventQueueOf s ctx).bind (queueOf s)).map (fun q => !q.backlog.isEmpty)).getD false

/-- Work that started in `s` and left `t` behind had to wait for room: it posted to an event or completion queue of `s` in
which earlier entries wait already. -/
def stalledBy (s t : State) : Bool :=
  s.queues.any (fun q => (q.kind == .event || q.kind == .completion) && !q.backlog.isEmpty &&
    ((queueOf t q.id).map (fun r => decide (q.backlog.length < r.backlog.length))).getD false)

/-- A full completion or event queue stalls the work that posts to it: the work is not done until the queue has taken what
waits for it (R77). One piece of work may leave its entries waiting; the next that posts there stalls. -/
def unlessStalled (s t : State) : State := if stalledBy s t then s else t

/-- Post a 32-byte event to a context's event queue. -/
def postEvent (s : State) (ctx : Nat) (entry : List Byte) : State :=
  match eventQueueOf s ctx with
  | some q => postTo s q entry
  | none => s

/-! ### Records of the unit history (R459, R467) -/

/-- Coding of a Vat's state in INT_VAT and in events (R452). -/
def vatStateCode : VatState → Nat
  | .active => 0
  | .suspect => 1
  | .testing => 2
  | .retired => 3
  | .probation => 4
  | .joining => 5

def vatOf (s : State) (v : Nat) : Vat := s.int.vats.getD v {}

def setVat (s : State) (v : Nat) (f : Vat → Vat) : State :=
  { s with int := { s.int with vats := setAt s.int.vats v f } }

/-- The INT_RECORD event of a record (R467): ST_INTEGRITY_FAULT for UNRESOLVED. -/
def recordEvent (s : State) (r : Record) : List Byte :=
  toLE 2 0x0B10 ++ toLE 2 (statusWord (if r.kind = 2 then .integrityFault else .ok)) ++
  toLE 1 r.kind ++ toLE 1 r.unit ++ toLE 1 r.cls ++
  toLE 1 (if r.unit < 8 then vatStateCode (vatOf s r.unit).state else 0xFF) ++
  toLE 4 r.seq ++ zeros 4 ++ phaseBytes (calendarWord s) ++ zeros 8

/-- A new record overwrites the oldest record whose kind is not STATE once the log is full (R459). -/
def keepHistory (l : List Record) : List Record :=
  if l.length ≤ Config.historyRecords then l
  else
    match posOf (fun r => r.kind != 6) l with
    | some i => l.take i ++ l.drop (i + 1)
    | none => l.drop 1

/-- Write a record to the unit history and post INT_RECORD to the Vintner (R459, R467). -/
def addRecord (s : State) (r : Record) : State :=
  let r' := { r with
    seq := s.int.seq, epoch := s.fw.epoch
    time := (if s.cal.valid then s.cal.ms else s.cal.elapsed) % 2 ^ 48, timeValid := s.cal.valid }
  let s1 := { s with int := { s.int with
    history := keepHistory (s.int.history ++ [r']), seq := (s.int.seq + 1) % 2 ^ 32 } }
  postEvent s1 vintner (recordEvent s1 r')

end Sys2Proof.Machine
end

