-- ==== Sys2Proof/Machine/Net.lean ====
section
/-! DEFINITION. The sending side of WRA: packet layout (R115 to R117), sealing (R147, R148), fault injection
(R150), PSNs, credit and retransmission records (R123, R128, R129), work that waits for a connection
(R146, R506), completions (R141) and context residency (R145). -/

set_option autoImplicit false

namespace Sys2Proof.Machine

/-- PSN order on the circle of 2^32: `a` at or below `b` (R123). -/
def psnLe (a b : Nat) : Bool := circle 32 b a < 2 ^ 31

def psnAdd (a n : Nat) : Nat := (a + n) % 2 ^ 32

/-- READ_RESP and ATOMIC_RESP use the response space (R123). -/
def isResponse (op : Nat) : Bool := op == 0x03 || op == 0x06

/-! ### Layout of a packet -/

def trellisBytes (t : TrellisHeader) : List Byte :=
  toLE 2 t.dest ++ toLE 2 t.source ++ toLE 2 t.origin ++ toLE 1 (b2n t.subclass + 2 * t.hops) ++ zeros 1

/-- The flags byte of R116. -/
def wraFlags (p : WraPacket) (sealedC : Bool) : Nat :=
  b2n p.first + 2 * b2n p.last + 4 * b2n p.spec + 8 * b2n sealedC + 16 * b2n p.trigger + 32 * b2n p.ackReq +
  64 * b2n p.trellis.isSome

/-- The base header of R116. -/
def wraHeader (op : Nat) (p : WraPacket) (sealedC : Bool) : List Byte :=
  toLE 1 p.version ++ toLE 1 op ++ toLE 1 (wraFlags p sealedC) ++ toLE 1 p.path ++ toLE 2 p.conn ++
  toLE 2 p.incarnation ++ toLE 4 p.psn ++ toLE 4 p.msg ++ toLE 4 p.key ++ toLE 4 p.trigTag ++ toLE 8 p.offset

/-- Items 1 to 3 of R115. -/
def wraFront (op : Nat) (p : WraPacket) (sealedC : Bool) : List Byte :=
  wraHeader op p sealedC ++ ((p.trellis.map trellisBytes).getD []) ++ p.ext

/-- Traffic key of a direction (R147): label, direction, connection, incarnation, boot epoch, key index. -/
def sealKey (s : State) (c : Conn) (dir index : Nat) : List Byte :=
  match c.sealKeys, keySlotOf s c.keySlot with
  | some l, _ => ((l.find? (fun x => x.1 == dir && x.2.1 == index)).map (fun x => x.2.2)).getD []
  | none, some k => Crypto.kdf108 (slotKey k) (ascii "WRA-SEAL-V1")
      (toLE 1 dir ++ toLE 2 c.id ++ toLE 2 c.incarnation ++ toLE 4 s.fw.epoch ++ toLE 4 index) 32
  | none, none => []

/-- The connection has a key for the next packet it seals. -/
def canSeal (s : State) (c : Conn) : Bool := !c.sealedC || !(sealKey s c 0 (c.sealTx / 2 ^ 32)).isEmpty

/-- The bytes of a packet without a seal: items 1 to 5 of R115 closed by the ICRC. -/
def plainFrame (op : Nat) (p : WraPacket) : List Byte :=
  let body := wraFront op p false ++ p.payload
  body ++ toLE 4 (Crypto.crc32c body)

/-- The bytes of a packet on the wire (R115): sealed with the counter of R148, or closed by the ICRC. -/
def wraFrame (s : State) (c : Conn) (op : Nat) (p : WraPacket) : List Byte :=
  if c.sealedC then
    let front := wraFront op p true ++ toLE 8 c.sealTx
    let key := sealKey s c 0 (c.sealTx / 2 ^ 32)
    front ++ Crypto.gcmSeal key (zeros 4 ++ toLE 8 c.sealTx) front p.payload
  else plainFrame op p

/-- The bytes of a packet that goes on as it came, but for its Trellis header (R153). -/
def passedFrame (op : Nat) (p : WraPacket) : List Byte :=
  if p.sealedP then wraFront op p true ++ toLE 8 p.counter ++ p.payload ++ p.tag else plainFrame op p

/-- An arrival on a connection with its payload opened: the GCM tag under the key of direction 1 on a sealed
connection, and no seal on another (R131 step 1, R147, R148). -/
def openArrival (s : State) (c : Conn) (op : Nat) (w : WraPacket) : Option WraPacket :=
  if ¬ w.intact ∨ w.sealedP ≠ c.sealedC then none
  else if c.sealedC then
    let front := wraFront op w true ++ toLE 8 w.counter
    if (sealKey s c 1 (w.counter / 2 ^ 32)).isEmpty then none
    else (Crypto.gcmOpen (sealKey s c 1 (w.counter / 2 ^ 32)) (zeros 4 ++ toLE 8 w.counter) front (w.payload ++ w.tag)).map
      (fun plain => { w with payload := plain })
  else some w

/-! ### Fault injection (R150) -/

/-- The injection of one direction is on. -/
def injectOn (i : Inject) (rx : Bool) : Bool := if rx then i.dir % 2 == 1 else i.dir / 2 == 1

/-- The LFSR after `n` steps. -/
def lfsrAfter (n l : Nat) : Nat := n.repeat (fun x => Config.lfsrNext x % 2 ^ 32) l

/-- What the LFSR chooses for one packet, one step for each fault: 0 nothing, 1 drop, 2 corruption, 3 reordering. -/
def injectChoice (i : Inject) : Nat :=
  if lfsrAfter 1 i.lfsr % 65536 < i.drop then 1
  else if lfsrAfter 2 i.lfsr % 65536 < i.corrupt then 2
  else if lfsrAfter 3 i.lfsr % 65536 < i.reorder then 3 else 0

/-- Settings after one packet: four steps of the LFSR, faults counted, and injection off after the set number of
packets. -/
def injectCount (i : Inject) (choice : Nat) : Inject :=
  { i with
    lfsr := lfsrAfter 4 i.lfsr
    count := satAdd (2 ^ 32 - 1) i.count (if choice = 0 then 0 else 1)
    left := i.left - 1
    dir := if i.left = 1 then 0 else i.dir }

/-- Bytes with one bit turned over. -/
def flipBit (bs : List Byte) (bit : Nat) : List Byte := setAt bs (bit / 8) (fun b => b ^^^ BitVec.ofNat 8 (2 ^ (bit % 8)))

/-- Corruption flips one payload bit, after the ICRC or tag was computed: the packet fails its check. A packet without a
payload loses a bit of what closes its frame (DESIGN CHOICE, notes/assumptions/127.md). -/
def corruptItem (x : Framed) (draw : Nat) : Framed :=
  let n := x.pkt.payload.length
  let closing := if x.pkt.sealedP then 16 else 4
  let bit := draw % (8 * max 1 n)
  { x with
    pkt := { x.pkt with payload := flipBit x.pkt.payload bit, intact := false }
    frame := flipBit x.frame (8 * (x.frame.length - closing - n) + bit) }

/-- One packet through an injector: the packets that go on, in order, and the settings after it. A packet
held back follows the next DEPTH packets. -/
def injectPass (i : Inject) (rx : Bool) (x : Framed) : List Framed × Inject :=
  let held := if rx then i.heldRx else i.heldTx
  let choice := if injectOn i rx then injectChoice i else 0
  let passes := match choice with
    | 0 => [x]
    | 2 => [corruptItem x (lfsrAfter 4 i.lfsr)]
    | _ => []
  let aged := held.map (fun h => { h with left := h.left - 1 })
  let ready := (aged.filter (fun h => h.left == 0)).map (fun h => h.item)
  let kept := aged.filter (fun h => h.left != 0) ++ (if choice = 3 then [{ left := i.depth, item := x }] else [])
  let i' := if injectOn i rx then injectCount i choice else i
  (passes ++ ready, if rx then { i' with heldRx := kept } else { i' with heldTx := kept })

def portOf (s : State) (p : Nat) : PortRegs := s.net.ports.getD p {}

def setPort (s : State) (p : Nat) (f : PortRegs → PortRegs) : State :=
  { s with net := { s.net with ports := setAt s.net.ports p f } }

/-- A packet through a port's injector. -/
def injectPort (s : State) (rx : Bool) (port : Nat) (x : Framed) : List Framed × State :=
  let (ps, i) := injectPass (portOf s port).inject rx x
  (ps, setPort s port (fun r => { r with inject := i }))

/-- A packet through the connection's injector and then the port's. -/
def injectAll (s : State) (rx : Bool) (cid port : Nat) (x : Framed) : List Framed × State :=
  let (ps, s1) := match connOf s cid with
    | some c =>
      let (ps, i) := injectPass c.inject rx x
      (ps, setConn s cid (fun c => { c with inject := i }))
    | none => ([x], s)
  ps.foldl (fun (acc : List Framed × State) q =>
    let (qs, s2) := injectPort acc.2 rx port q
    (acc.1 ++ qs, s2)) ([], s1)

/-! ### Transmission -/

/-- A SEND that carries a notice or a Chiwin reply (R186). -/
def isNotice (op key : Nat) : Bool := op == 0x07 && (key == Config.noticeKey || key == Config.replyKey)

/-- The port a connection's packets leave by: the lowest of its data ports, where R111 leaves open which of several it
is (DESIGN CHOICE, notes/assumptions/148.md), or T1 for a Trellis request and T0 for a Trellis response or notice (R152). -/
def egressPort (c : Conn) (op key : Nat) : Nat :=
  if c.trellis then (if isResponse op || op == 0x08 || op == 0x09 || op == 0x0B || isNotice op key then 8 else 9)
  else ((bitList 8 c.ports).headD 0)

/-- The next path of the spray that takes new packets: the first from `nextPath` on that is not barred (R124). -/
def freePath (c : Conn) : Option Nat :=
  ((List.range c.paths).map (fun i => (c.nextPath + i) % max 1 c.paths)).find? (fun p => !c.pathHolds.contains p)

/-- The path a packet takes; one that is no new packet may take a barred path where every path is barred (R124). -/
def pickPath (c : Conn) : Nat := (freePath c).getD c.nextPath

/-- The UDP source port of a connection's packet (R114). -/
def sourcePort (c : Conn) (path : Nat) : Nat := 256 * (0xC0 + Config.sourceTag c.id % 64) + path % 256

/-- The IP and UDP fields of a packet the engine sends: the Glove's address on the port, and the peer's (R112, R114,
CONN_CREATE). -/
def ipFor (s : State) (c : Conn) (port path : Nat) : IpInfo :=
  let sh := (gloveOf s c.owner).cfg.shares.getD port {}
  { ipv4 := c.ipv4
    vlan := if sh.vlan = 0 then none else some sh.vlan
    source := if c.ipv4 then sh.ipv4 else sh.ipv6
    dest := if c.ipv4 then leNat (c.address.drop 12) else leNat c.address
    srcPort := sourcePort c path
    dstPort := if c.udpPort = 0 then s.net.udp else c.udpPort }

/-- The Trellis header of a packet that this member starts on a Trellis connection: to the member that a PARTIAL
request names, else to the connection's peer (R139, R153). -/
def trellisFor (s : State) (c : Conn) (p : WraPacket) : Option TrellisHeader :=
  if c.trellis then
    some { dest := (p.trellis.map (fun t => t.dest)).getD c.member, source := s.net.trellis.member
           origin := (p.trellis.map (fun t => t.origin)).getD s.net.trellis.member, subclass := false, hops := 0 }
  else none

/-- A connection whose engine side may speak: not HELD, where it waits for the peer, nor ERROR (R119, R121). -/
def maySpeak (c : Conn) : Bool := c.state != .held && c.state != .error

/-- Mark a context as used now (R145). -/
def touchConn (s : State) (cid : Nat) : State :=
  let n := s.conns.foldl (fun n c => max n (c.lastUse + 1)) 0
  setConn s cid (fun c => { c with lastUse := n })

/-- Packets on the fibre: none of the Trellis while the bypass switch is closed (R154). -/
def transmit (s : State) (ps : List Framed) : State :=
  { s with net := { s.net with out := s.net.out ++
      (ps.filter (fun q => q.pkt.port < 8 || s.net.trellis.bypass != 0)).map Wire.packet } }

/-- A packet that no connection of the engine sends, through send-side injection of its port. -/
def emitRaw (s : State) (op : Nat) (p : WraPacket) : State :=
  let (outs, s1) := injectPort s false p.port { op := op, pkt := p, frame := passedFrame op p }
  transmit s1 outs

/-- Put a packet on the wire: it is framed, with the counter of a sealed connection, and goes through send-side
injection (R115, R148, R150). -/
def putOnWire (s : State) (cid op : Nat) (p : WraPacket) : State :=
  match (connOf s cid).filter (fun c => maySpeak c && canSeal s c) with
  | none => s
  | some c =>
    let path := pickPath c
    let port := egressPort c op p.key
    let p' := { p with
      path := path, conn := c.peerConn, incarnation := c.peerInc, port := port, trellis := trellisFor s c p
      ip := ipFor s c port path, sealedP := c.sealedC, counter := c.sealTx }
    let s1 := setConn (touchConn s cid) cid (fun c => { c with
      nextPath := (path + 1) % max 1 c.paths, sealTx := c.sealTx + b2n c.sealedC })
    let (outs, s2) := injectAll s1 false cid port { conn := some cid, op := op, pkt := p', frame := wraFrame s c op p' }
    transmit s2 outs

/-- An ACK, STATUS or CONNECT_ACK, which consumes no PSN (R123). -/
def sendControl (s : State) (cid op psn : Nat) (ext : List Byte) : State :=
  putOnWire s cid op { port := 0, conn := 0, incarnation := 0, psn := psn, ext := ext }

def connTx (c : Conn) (resp : Bool) : SeqTx := if resp then c.txResp else c.txReq
def setTx (c : Conn) (resp : Bool) (f : SeqTx → SeqTx) : Conn :=
  if resp then { c with txResp := f c.txResp } else { c with txReq := f c.txReq }
def connRx (c : Conn) (resp : Bool) : SeqRx := if resp then c.resp else c.req
def setRx (c : Conn) (resp : Bool) (f : SeqRx → SeqRx) : Conn :=
  if resp then { c with resp := f c.resp } else { c with req := f c.req }

/-- The UNDELIVERED event of a reply or notice (R506); nothing for other work. -/
def undelivered (s : State) (c : Conn) (t : TxPacket) : State :=
  let event (key psn off : Nat) := toLE 2 0x0605 ++ toLE 2 (statusWord .peerLost) ++ toLE 4 key ++
    toLE 2 c.id ++ toLE 2 1 ++ toLE 4 psn ++ phaseBytes (contextWord s c.owner) ++ toLE 8 off
  match t.reply, t.notice with
  | some (tag, st, detail, r0), _ => postTo s c.eventQ (event tag 0 (st + 2 ^ 16 * detail + 2 ^ 32 * r0))
  | none, some (v, kind) => postTo s c.eventQ (event v (2 ^ 31 + kind) 0)
  | none, none => s

/-- Resident contexts of a Glove (R336). -/
def residentCount (s : State) (g : Nat) : Nat :=
  (s.conns.filter (fun c => c.owner == g && (c.resident || c.fetching))).length

/-- The context that R145 evicts: the least recently used of the Glove's that may go. -/
def evictable (s : State) (g : Nat) : Option Conn :=
  (s.conns.filter (fun c => c.owner == g && c.resident && !c.pinned && c.parked.isEmpty &&
    c.txReq.unacked.isEmpty && c.txResp.unacked.isEmpty)).foldl (fun best c =>
      match best with
      | some b => if c.lastUse < b.lastUse then some c else some b
      | none => some c) none

/-- The lowest record of the Cuff's Context Store that holds no context. -/
def freeStore (s : State) (g : Nat) : Option Nat :=
  let x := (gloveOf s g).session
  ((List.range x.ctxRecords).map (· + x.ctxFirst)).find? (fun j => !s.conns.any (fun c => c.owner == g && c.store == some j))

/-- A context leaves the engine for the Context Store; in host memory it takes a Cuff record, written whole, whose lowest
free one the model takes (R367, R369; DESIGN CHOICE, notes/assumptions/165.md). -/
def spillContext (s : State) (c : Conn) : State :=
  match (if (gloveOf s c.owner).cfg.ctxHost then freeStore s c.owner else none) with
  | some j =>
    let s1 := setConn s c.id (fun c => { c with resident := false, store := some j })
    let image := (List.range 4096).map (Config.contextByte (gloveOf s c.owner).session.counter)
    if dmaReaches s c.owner then cuffSealBy ringWrite s1 c.owner j image else s1
  | none => setConn s c.id (fun c => { c with resident := false })

/-- Make room for one resident context of a Glove, if R145 allows. -/
def makeRoom (s : State) (g : Nat) : Option State :=
  if residentCount s g < (gloveOf s g).cfg.resident then some s
  else (evictable s g).map (spillContext s)

/-- Start the fetch of a spilled context, if a slot can be had (R145, R146). -/
def startFetch (s : State) (cid : Nat) : State :=
  match connOf s cid with
  | some c =>
    if c.resident ∨ c.fetching then s
    else match makeRoom s c.owner with
      | some s' => setConn s' cid (fun c => { c with fetching := true })
      | none => s
  | none => s

/-- Fetch contexts of a Glove whose outbound work waits for a resident slot, in the order in which the work fell due (R146). -/
def retryFetches (s : State) (g : Nat) : State :=
  (sortBy (fun c => c.dueSince) (s.conns.filter (fun c => c.owner == g && !c.waiting.isEmpty))).foldl (fun s c => startFetch s c.id) s

/-- A waiting packet that begins no message: its message is under way, or waits behind its first packet. -/
def continues (t : TxPacket) : Bool := !isResponse t.op && !t.pkt.first

/-- A reply or notice that leaves as a SEND waits for no request's credit (R75); but a message's PSNs are consecutive, so it
follows a message that is partly sent (R118). Any other packet waits for the credit of its space (R128;
DESIGN CHOICE, notes/assumptions/128.md). -/
def creditAllows (c : Conn) (t : TxPacket) : Bool :=
  if t.reply.isSome || t.notice.isSome then !c.waiting.any continues
  else psnLe (connTx c (isResponse t.op)).next (connTx c (isResponse t.op)).credit

/-- Transmit one packet of waiting work under the next PSN of its space, if credit and a path allow; otherwise it
stays waiting (R124, R128). -/
def sendOne (cid : Nat) (s : State) (t : TxPacket) : State :=
  match connOf s cid with
  | none => s
  | some c =>
    let tx := connTx c (isResponse t.op)
    if creditAllows c t ∧ (freePath c).isSome then
      let t' := { t with psn := tx.next, timerUs := c.minTimer, attempts := 1, pkt := { t.pkt with path := pickPath c } }
      let s1 := setConn s cid (fun c => setTx c (isResponse t.op) (fun x =>
        { x with next := psnAdd x.next 1, unacked := x.unacked ++ [t'] }))
      let s1 := if t.op = 0x0D then setConn s1 cid (fun c => { c with
          sentPartials := c.sentPartials ++ [{ cask := t.cask, pos := t.pos, psn := tx.next, pkt := t.pkt }] })
        else s1
      putOnWire s1 cid t.op { t.pkt with psn := tx.next }
    else setConn s cid (fun c => { c with waiting := c.waiting ++ [t] })

/-- The rest of a message that is partly sent goes first (R118); then replies and responses before notices, and these before
requests (R75). -/
def creditClass (l : List TxPacket) (t : TxPacket) : Nat :=
  if continues t && !l.any (fun x => x.pkt.first && x.pkt.msg == t.pkt.msg) then 0
  else if isResponse t.op || t.reply.isSome then 1 else if t.notice.isSome then 2 else 3

/-- Waiting work that a connection may send now: all of it once the handshake is done, before it the CONNECT alone
(R119). -/
def mayPump (c : Conn) (t : TxPacket) : Bool :=
  c.state == .established || c.state == .closing || (c.state == .connecting && t.op == 0x0A)

/-- Send what waits on a connection that may send (R119, R146, R506), class by class (R75). CONNECTING and HELD
connections keep it; a spilled context is fetched first. -/
def pump (s : State) (cid : Nat) : State :=
  match connOf s cid with
  | none => s
  | some c =>
    if c.waiting.any (mayPump c) then
      if c.resident then
        (sortBy (creditClass c.waiting) (c.waiting.filter (mayPump c))).foldl (sendOne cid)
          (setConn s cid (fun c => { c with waiting := c.waiting.filter (fun t => !mayPump c t) }))
      else startFetch s cid
    else s

/-- Hand work to a connection (R506). In ERROR a reply or notice becomes UNDELIVERED. -/
def submit (s : State) (cid : Nat) (t : TxPacket) : State :=
  match connOf s cid with
  | none => s
  | some c =>
    if c.state = .error then undelivered s c t
    else
      let n := s.conns.foldl (fun n c => max n (c.dueSince + 1)) 0
      pump (setConn s cid (fun c => { c with
        waiting := c.waiting ++ [t], dueSince := if c.waiting.isEmpty then n else c.dueSince })) cid

/-- A SEND of the engine on a connection, FIRST and LAST set, under a key of R186. -/
def sendMessage (s : State) (cid key : Nat) (payload : List Byte)
    (reply : Option (Nat × Nat × Nat × Nat)) (notice : Option (Nat × Nat)) : State :=
  match connOf s cid with
  | none => s
  | some c =>
    let s1 := setConn s cid (fun c => { c with nextMsg := (c.nextMsg + 1) % 2 ^ 32 })
    submit s1 cid {
      psn := 0, op := 0x07, timerUs := c.minTimer, reply := reply, notice := notice
      pkt := { port := 0, conn := 0, incarnation := 0, first := true, last := true, msg := c.nextMsg,
               key := key, payload := payload } }

/-! ### Completions -/

/-- "The completion queue" of a Glove: its completion queue with the lowest ID (DESIGN CHOICE,
notes/assumptions/7.md). -/
def completionQueueOf (s : State) (g : Nat) : Option Nat :=
  s.queues.foldl (fun best q =>
    if q.owner == g && q.kind == .completion then
      match best with
      | some b => some (min b q.id)
      | none => some q.id
    else best) none

/-- Completions that wait for room, or no room for one: the work that posts them waits (R77). -/
def completionsStalled (s : State) (g : Nat) : Bool :=
  (((completionQueueOf s g).bind (queueOf s)).map (fun q => !q.backlog.isEmpty || freeEntries q == 0)).getD false

/-- Post a completion entry (R141). -/
def postCompletion (s : State) (g wrId status detail op bytes conn : Nat) : State :=
  match completionQueueOf s g with
  | some q => postTo s q (toLE 8 wrId ++ toLE 2 status ++ toLE 2 detail ++ toLE 1 op ++ zeros 3 ++
      toLE 4 bytes ++ toLE 4 conn ++ phaseBytes (contextWord s g))
  | none => s

/-- A request of a send queue has completed: the queue's counter rises, and a completion is posted when
SIGNAL is set or the request failed (R141, R143). -/
def completeRequest (s : State) (g queue wrId : Nat) (signal : Bool) (status detail op bytes conn : Nat) :
    State :=
  let s1 := setQueue s queue (fun q => { q with counter := q.counter + 1 })
  if signal ∨ statusClass status ≠ 0 then postCompletion s1 g wrId status detail op bytes conn else s1

/-- The work requests of a connection whose message a test picks end with a status: messages, issued reads and
atomics. -/
def failSome (s : State) (c : Conn) (st : Status) (sel : Nat → Bool) : State :=
  let ms := c.messages.filter (fun m => sel m.msg)
  let is := c.issued.filter (fun i => sel i.msg)
  let s1 := ms.foldl (fun s m => completeRequest s c.owner m.queue m.wrId m.signal (statusWord st) 0 m.op 0 c.id) s
  let s2 := is.foldl (fun s i =>
    completeRequest s c.owner i.wr.1 i.wr.2.1 i.wr.2.2 (statusWord st) 0 (if i.atomic then 5 else 2) 0 c.id) s1
  setConn s2 c.id (fun c => { c with
    messages := c.messages.filter (fun m => !sel m.msg), issued := c.issued.filter (fun i => !sel i.msg)
    failures := c.failures + ms.length + is.length })

/-- Every outstanding work request of a connection ends with a status (R119, R121, R341). -/
def failRequests (s : State) (c : Conn) (st : Status) : State := failSome s c st (fun _ => true)

/-- Every reply and notice outstanding on a connection becomes UNDELIVERED (R506). -/
def undeliverAll (s : State) (c : Conn) : State :=
  let s1 := (c.txReq.unacked ++ c.waiting).foldl (fun s t => undelivered s c t) s
  setConn s1 c.id (fun c => { c with
    waiting := [], txReq := { c.txReq with unacked := [] }, txResp := { c.txResp with unacked := [] } })

end Sys2Proof.Machine
end

