-- ==== Sys2Proof/Machine/Ops.lean ====
section
/-! DEFINITION. The operations all commands share: the checks of R32 and the reply of R24, windows as commands
reach them (R140), Cuff records (R363 to R368), host memory, and the frame of a Chiwin command. -/

set_option autoImplicit false

namespace Sys2Proof.Machine

/-! ### Answers -/

/-- Host memory that could not be read: why, and the record table of the Cuff after the records that were accepted before
(R362, R366, R368). -/
structure ReadFail where
  cause : DmaCause
  records : List (Nat × Nat × Nat) := []
deriving DecidableEq, Repr, Inhabited

/-- Why a command is refused: its reply, and why host memory could not be read for it, if that was the reason (R362,
R368). -/
structure Refused where
  answer : Answer
  host : Option ReadFail := none
deriving DecidableEq, Repr

/-- A check: the refusal that ends the command, or success. -/
abbrev Check := Except Refused Unit

def fail {α : Type} (st : Status) (detail : Nat := 0) : Except Refused α :=
  .error { answer := { status := st, detail := detail } }

def need (c : Bool) (st : Status) (detail : Nat := 0) : Check := if c then .ok () else fail st detail

/-- A refusal with result words. -/
def failWith {α : Type} (a : Answer) : Except Refused α := .error { answer := a }

/-- What an object lookup must find. -/
def want {α : Type} (o : Option α) (st : Status) (detail : Nat := 0) : Except Refused α :=
  match o with
  | some x => .ok x
  | none => fail st detail

/-! ### Replies (R24, R25, R27, R48, R506) -/

/-- The detail of a reply: a command that won a conflict names the command it overruled, whatever its own
status (R25, R41, R504); a command overruled itself names its winner. -/
def finalAnswer (p : Packet) (a : Answer) : Answer :=
  if p.overruled ≠ 0 ∧ a.status ≠ .overruled then { a with detail := p.overruled } else a

/-- Put a reply where its route carries it: the sideband, the connection of a connection-bound queue, or the
bound reply queue, as `post` puts it there (R27). -/
def deliverBy (post : State → Nat → List Byte → State) (s : State) (p : Packet) (a : Answer) : State :=
  let a' := finalAnswer p a
  match p.route with
  | .sideband => { s with side := { s.side with out := s.side.out ++ [.reply (replyBytes p a')], interrupt := true } }
  | _ =>
    match queueOf s p.queue with
    | none => s
    | some q =>
      match q.conn with
      | some c => sendMessage s c Config.replyKey (replyBytes p a')
          (some (p.tag, statusWord a'.status, a'.detail, a'.r0)) none
      | none => post s q.bound (replyBytes p a')

/-- Give up the reservation that the packets of a connection-bound queue hold in its send queue: the reply is handed
to the connection, which keeps it until it is acknowledged (R27, R506). -/
def releaseSend (s : State) (p : Packet) : State :=
  match (if p.route = .sideband then none else queueOf s p.queue) with
  | some q => if q.conn.isSome then setQueue s q.bound (fun r => { r with reserved := r.reserved - 1 }) else s
  | none => s

/-- The reply of a packet that was fetched: it has a reserved entry (R27). -/
def deliver (s : State) (p : Packet) (a : Answer) : State := deliverBy postReserved (releaseSend s p) p a

/-- A QUEUE_DESTROY ends once no other dispatched packet of its queue awaits a reply (R36). -/
def destroyReady (s : State) (q : Nat) : Bool :=
  !s.outstanding.any (fun o => o.pkt.queue == q && o.pkt.route != .sideband)

/-- Remove a queue from the pool. -/
def removeQueue (s : State) (q : Nat) : State := { s with queues := s.queues.filter (fun x => x.id != q) }

/-- The commands whose reply is not yet posted, but for the one of a packet. -/
def dropOutstanding (s : State) (order : Nat) : State :=
  { s with outstanding := s.outstanding.filter (fun o => o.pkt.order != order) }

/-- End the QUEUE_DESTROY commands whose wait is over. -/
def settleDestroys (s : State) : State :=
  s.outstanding.foldl (fun s o =>
    match o.wait with
    | .destroy q n =>
      if destroyReady s q then
        deliver (removeQueue (dropOutstanding s o.pkt.order) q) o.pkt (Answer.mk .ok 0 n 0 0 0)
      else s
    | _ => s) s

/-- Post the one reply of a command (R24). While the Cellarmaster restarts, the reply of a dispatched
command is stored and posted once it resumes (R48). -/
def reply (s : State) (p : Packet) (a : Answer) : State :=
  if s.cm.state = .restarting then
    let keep (o : Outstanding) : Outstanding := { o with committed := true, stored := some a }
    { s with outstanding := mapIf (fun o => o.pkt.order == p.order) keep s.outstanding }
  else
    settleDestroys (deliver (dropOutstanding s p.order) p a)

/-- How a command's work ends at dispatch: with its reply, with a reply that comes later, or without one (a
full reset, R24). -/
inductive Done where
  | answer (a : Answer)
  | waits (w : Wait)
  | silent
deriving DecidableEq, Repr

/-- Which contexts may issue an opcode (R32, step 3). -/
inductive Issuer where
  | any | glove | vintner
deriving DecidableEq, Repr

/-- A Chiwin command: the fixed columns of its chapter, and its checks and effect in the order of R32.
`form` answers the packet offset of the first field in error; `draw` the entropy it draws: rank, and
256-bit blocks (R388). -/
structure Cmd where
  op : Nat
  sideband : Bool := false
  issuer : Issuer := .glove
  rank : Nat := 1
  names : Packet → State → List Obj := fun _ _ => []
  access : Packet → State → Check := fun _ _ => .ok ()
  form : Packet → State → Option Nat := fun _ _ => none
  state : Packet → State → Check := fun _ _ => .ok ()
  draw : Packet → State → Option (Nat × Nat) := fun _ _ => none
  /-- blocks of lattice encryption randomness, rank 3, that follow the draw at a lower rank -/
  later : Packet → State → Nat := fun _ _ => 0
  /-- answered by the auxiliary domain while the module is not ON (R492) -/
  aux : Bool := false
  /-- checks that come before the draw although they rank behind it in `body` (R270) -/
  ready : Packet → State → Check := fun _ _ => .ok ()
  /-- the command runs on after its dispatch turn; what it then works on, and its scratch Cask (R260, R272, R273) -/
  works : Bool := false
  watch : Packet → State → List Watched := fun _ _ => []
  scratch : Packet → State → Option Nat := fun _ _ => none
  /-- what its checks at dispatch found, and its completion by that (R268, R270) -/
  plan : Packet → State → List (Nat × Nat) := fun _ _ => []
  complete : Outstanding → Packet → State → Except Refused (State × Done) := fun _ _ s => .ok (s, .silent)
  /-- what a refusal leaves behind besides its reply: nothing (R32), but for the key pair of R372 -/
  spent : Packet → State → State := fun _ s => s
  body : Packet → State → Except Refused (State × Done)

/-- The reply ST_OK with result words 0 to 3. -/
def okAnswer (r0 : Nat := 0) (r1 : Nat := 0) (r2 : Nat := 0) (r3 : Nat := 0) : Answer :=
  { status := .ok, r0 := r0 % 2 ^ 32, r1 := r1 % 2 ^ 32, r2 := r2 % 2 ^ 32, r3 := r3 % 2 ^ 32 }

/-- ST_OK with the first 16 bytes of a string in results 0 to 3. -/
def bytesAnswer (l : List Byte) : Answer := okAnswer (field l 0 4) (field l 4 4) (field l 8 4) (field l 12 4)

def okWith (r0 : Nat := 0) (r1 : Nat := 0) (r2 : Nat := 0) (r3 : Nat := 0) : Done := .answer (okAnswer r0 r1 r2 r3)

def okBytes (l : List Byte) : Done := .answer (bytesAnswer l)

/-- First field in error of a packet (R10, R25, R32 step 4): header fields with a reserved bit set, the
length, a Vintage ID where the opcode names none, then the parameter fields in the order given; each with
its parameter offset and whether it is right. -/
def formError (p : Packet) (lenOk namesVintage : Bool) (fields : List (Nat × Bool)) : Option Nat :=
  let header := p.reservedAt.getD 64
  if header < 10 then some header
  else if !lenOk then some 10
  else if header < 16 then some header
  else if !namesVintage ∧ p.vintage ≠ 0 then some 16
  else if header < 64 then some header
  else (fields.find? (fun f => !f.2)).map (fun f => 64 + f.1)

/-- A refused record is counted and posts CUFF_AUTH, at most one per 10 µs, with the failures in between
counted in the next (R368). The moment is the present serialization cycle. -/
def cuffRefused (s : State) (g record cause : Nat) : State :=
  let x := (gloveOf s g).session
  let quiet := ((x.lastAuth).map (fun c => decide (s.clock.cycle < c + Config.tenMicroseconds))).getD false
  let first := x.firstHeld.getD (record, cause)
  if quiet then
    setGlove s g (fun y => { y with session := { y.session with
      refused := y.session.refused + 1, uncounted := y.session.uncounted + 1, firstHeld := some first } })
  else
    let s1 := setGlove s g (fun y => { y with session := { y.session with
      refused := y.session.refused + 1, uncounted := 0, firstHeld := none, lastAuth := some s.clock.cycle } })
    postEvent s1 g (toLE 2 0x0020 ++ toLE 2 (statusWord .cuffAuth) ++ toLE 4 first.1 ++
      toLE 2 (x.uncounted + 1) ++ toLE 1 first.2 ++ zeros 5 ++ phaseBytes (contextWord s g) ++ zeros 8)

/-- The status of work whose host memory could not be read (R362, R368). -/
def dmaStatus : DmaCause → Status
  | .hostFault => .hostFault
  | _ => .cuffAuth

/-- The record table keeps what was accepted before the record that failed (R366). -/
def keepRecords (s : State) (g : Nat) (f : ReadFail) : State :=
  setGlove s g (fun x => { x with session := { x.session with records := f.records } })

/-- The report of a refused Cuff record; a failed DMA read has none. -/
def dmaReport (s : State) (g : Nat) (f : ReadFail) : State :=
  match f.cause with
  | .hostFault => s
  | .cuffTag r => cuffRefused (keepRecords s g f) g r 1
  | .cuffFresh r => cuffRefused (keepRecords s g f) g r 2

/-! ### Dispatch (R32) -/

/-- The context whose turns dispatch a packet: the owner of its queue, the Vintner for the sideband (R31). The
context of its header is judged only at dispatch (R32, step 3). -/
def turnOf (s : State) (p : Packet) : Nat :=
  if p.route = .sideband then vintner else ((queueOf s p.queue).map (fun q => q.owner)).getD p.ctx

/-- Step 2: the opcode is accepted on the route (R26, R370, R505). -/
def checkRoute (c : Cmd) (p : Packet) (s : State) : Check :=
  if p.route = .sideband then need c.sideband .badOpcode
  else match queueOf s p.queue with
    | some q => need (!(q.owner < 16 && (gloveOf s q.owner).session.confidential && !q.cuff && q.conn.isNone &&
        0x100 ≤ c.op)) .badOpcode
    | none => .ok ()

/-- Step 3, the part common to all opcodes: the context owns the command queue, and may issue the opcode.
Sideband packets are the Vintner's. -/
def checkIssuer (c : Cmd) (p : Packet) (s : State) : Check := do
  match p.route with
  | .sideband => need (p.ctx == vintner) .accessViolation
  | _ => need (((queueOf s p.queue).map (fun q => q.owner)) == some p.ctx) .accessViolation
  match c.issuer with
  | .any => .ok ()
  | .glove => need (p.ctx < 16) .accessViolation
  | .vintner => need (p.ctx == vintner) .accessViolation

/-- Step 5, the part common to all opcodes: the state of the issuing Glove (R32, R340, R344). -/
def checkGlove (p : Packet) (s : State) : Check :=
  if p.ctx < 16 then
    match (gloveOf s p.ctx).state with
    | .wedged => fail .wedged
    | .resetting => fail .overruled 0x0701
    | .releasing => fail .overruled 0x0701
    | _ => .ok ()
  else .ok ()

/-- Steps 2 to 5. Step 1 is made at fetch (R33), and step 6 in the precedence pass (R504). GLOVE_QUERY is
answered in every state of its Glove (R344). -/
def checks (c : Cmd) (p : Packet) (s : State) : Check := do
  checkRoute c p s
  checkIssuer c p s
  c.access p s
  match c.form p s with
  | some off => fail .badParam off
  | none => .ok ()
  if c.op = 0x0705 then .ok () else checkGlove p s
  c.state p s

/-- A command whose reply comes later has passed its commit point, but for a draw, a survivor exchange, lattice work and
a release before stage 3 (R42, R272, R300, R389). -/
def waitCommitted : Wait → Bool
  | .entropy _ _ => false
  | .exchange _ _ => false
  | .release _ _ => false
  | .work => false
  | _ => true

/-- Blocks that follow at rank 3 the draw a command waits for. -/
def laterBlocks (c : Cmd) (s : State) (p : Packet) : Wait → Nat
  | .entropy rank _ => if rank < 3 then c.later p s else 0
  | _ => 0

/-- The end of a command's work at dispatch. -/
def finish (c : Cmd) (s : State) (p : Packet) : Done → State
  | .answer a => reply s p a
  | .waits w => { s with
      outstanding := s.outstanding.filter (fun o => o.pkt.order != p.order) ++
        [{ pkt := p, wait := w, rank := c.rank, names := c.names p s, committed := waitCommitted w
           watch := c.watch p s, later := laterBlocks c s p w, scratch := c.scratch p s, plan := c.plan p s }] }
  | .silent => s

/-- A command that is refused has no effect but its reply, and the report of a refused Cuff record. -/
def refuse (s : State) (p : Packet) (r : Refused) : State :=
  match r.host with
  | some f => reply (dmaReport s p.ctx f) p r.answer
  | none => reply s p r.answer

/-- Steps 7 and 8 and the effect. -/
def runBody (c : Cmd) (p : Packet) (s : State) : State :=
  match c.body p s with
  | .error r => refuse (c.spent p s) p r
  | .ok (s', d) => finish c s' p d

/-- Blocks released and queued for a context: a Glove's queue, or the reserve's for the Vintner (R386,
R387). -/
def queuedBlocks (s : State) (ctx : Nat) : Nat := if ctx < 16 then (gloveOf s ctx).blocks else s.ent.reserve

def takeBlocks (s : State) (ctx n : Nat) : State :=
  if ctx < 16 then setGlove s ctx (fun g => { g with blocks := g.blocks - n })
  else { s with ent := { s.ent with reserve := s.ent.reserve - n } }

/-- A command that has passed its checks: it first draws its entropy in whole blocks, and waits where they
have not been released (R388, R389). In FAILED every draw ends with ST_ENTROPY_FAILED (R385). A lattice opcode makes the
rest of its checks before it draws (R270). -/
def start (c : Cmd) (p : Packet) (s : State) : State :=
  match (if p.drawn then none else c.draw p s) with
  | none => runBody c p s
  | some (rank, blocks) =>
    match c.ready p s with
    | .error r => refuse s p r
    | .ok () =>
      if s.ent.state = .failed then reply s p { status := .entropyFailed } else
      let have_ := queuedBlocks s p.ctx
      let all := blocks + c.later p s
      if all ≤ have_ then runBody c { p with drawn := true } (takeBlocks s p.ctx all)
      else finish c (takeBlocks s p.ctx have_) p
        (.waits (if blocks ≤ have_ then .entropy 3 (all - have_) else .entropy rank (blocks - have_)))

/-- Checks and work of a packet that is judged now. -/
def perform (c : Cmd) (p : Packet) (s : State) : State :=
  match checks c p s with
  | .error r => refuse (c.spent p s) p r
  | .ok () => start c p s

/-- Opcodes that the interpreter of RECOVERY performs (R440): FW_STAGE, FW_SELECT, FW_QUERY, MODULE_RESET. -/
def recoveryOpcodes : List Nat := [0x0910, 0x0911, 0x0912, 0x0D01]

/-- A packet at dispatch. While the module is not ON, only the sideband reaches the auxiliary domain, which
answers MODULE_STATUS and POWER_CAP_SET and refuses every other packet (R492). In RECOVERY the ROM serves four
opcodes on the sideband (R440). A halted Cellarmaster answers nothing else than ST_ENGINE_HALTED (R50); while it
restarts or boots the packet stays staged (R48). -/
def dispatch (c : Cmd) (p : Packet) (s : State) : State :=
  if s.pwr.state ≠ .on then
    if p.route = .sideband ∧ s.pwr.state ≠ .off then
      if c.aux then perform c p s else deliver s p { status := .badState, detail := 1 }
    else s
  else if s.fw.recovery then
    if p.route = .sideband then
      if recoveryOpcodes.contains c.op then perform c p s else deliver s p { status := .badOpcode }
    else s
  else match s.cm.state with
  | .running => perform c p s
  | .halted => deliver s p { status := .engineHalted }
  | _ => { s with staged := s.staged ++ [p] }

/-- A lattice opcode as a dispatch turn runs it: checked now, completed in a later turn of its context (R270 to R273;
DESIGN CHOICE, notes/assumptions/30.md). -/
def timed (c : Cmd) : Cmd :=
  if c.works then
    { c with body := fun p s =>
        match (if p.drawn then .ok () else c.ready p s) with
        | .error r => .error r
        | .ok () => .ok (s, .waits .work) }
  else c

/-- The meaning of a Chiwin row: its packet reaches dispatch. A lattice opcode presented by itself is
checked, works and completes in the one step, with nothing placed in between (notes/assumptions/30.md). -/
def runCmd (c : Cmd) (p : Packet) (s : State) : Host.Outcome State Fault Refusal := .next (dispatch c p s)

/-! ### Cuff records (R363 to R368) -/

/-- The last counter of a record in one direction (R366). -/
def recordCounter (x : Session) (j dir : Nat) : Option Nat :=
  (x.records.find? (fun r => r.1 == j && r.2.1 == dir)).map (fun r => r.2.2)

/-- A record passes the freshness test of R366. -/
def recordFresh (x : Session) (j dir counter : Nat) : Bool :=
  if dir = 1 then recordCounter x j 1 == some counter
  else ((recordCounter x j 0).map (fun n => decide (n < counter))).getD true

/-- The plaintext of record j, or why it is refused (R366, R368). -/
def cuffOpen (s : State) (g j : Nat) : Except ReadFail (List Byte × State) :=
  let x := (gloveOf s g).session
  let fn := functionOf g
  let entry := hostRead s fn (x.tagBase + 32 * j) 32
  let data := hostRead s fn (x.dataBase + 4096 * j) 4096
  let dir := field entry 4 1
  let counter := field entry 8 8
  let key := slice x.keys (32 * dir) 32
  match Crypto.gcmOpen key (zeros 4 ++ toLE 8 counter) (entry.take 16) (data ++ entry.drop 16) with
  | none => .error { cause := .cuffTag j, records := x.records }
  | some plain =>
    if field entry 0 4 ≠ j ∨ ¬ allZero (slice entry 5 3) ∨ 1 < dir then .error { cause := .cuffTag j, records := x.records }
    else if ¬ recordFresh x j dir counter then .error { cause := .cuffFresh j, records := x.records }
    else if dir = 1 then .ok (plain, s)
    else .ok (plain, setGlove s g (fun y => { y with session := { y.session with
      records := noteRecord y.session.records j 0 counter } }))

/-- The records that `n` bytes at an offset touch. -/
def recordsOf (off n : Nat) : List Nat :=
  if n = 0 then [] else (List.range ((off + n - 1) / 4096 + 1 - off / 4096)).map (· + off / 4096)

/-- Bytes of the Cuff: the plaintext, or why a record is refused. -/
def cuffRead (s : State) (g off n : Nat) : Except ReadFail (List Byte × State) := do
  let (plain, s') ← (recordsOf off n).foldlM (fun (acc : List Byte × State) j => do
    let (b, s') ← cuffOpen acc.2 g j
    .ok (acc.1 ++ b, s')) ([], s)
  .ok (slice plain (off % 4096) n, s')

/-- The new plaintext of record j as `bs` are written at an offset: one written only in part is read, checked and opened
first (R367). -/
def cuffPlain (s : State) (g off : Nat) (bs : List Byte) (j : Nat) : Except ReadFail (List Byte × State) :=
  let first := 4096 * j
  let from_ := off - first
  let part := if off ≤ first then (bs.drop (first - off)).take 4096 else bs.take (4096 - from_)
  if part.length = 4096 then .ok (part, s)
  else do
    let (old, s') ← cuffOpen s g j
    .ok (old.take from_ ++ part ++ old.drop (from_ + part.length), s')

/-- Write bytes into the Cuff record by record, each written whole (R367): none is written where one that must be read is
refused (DESIGN CHOICE, notes/assumptions/12.md). -/
def cuffWrite (s : State) (g off : Nat) (bs : List Byte) : Except ReadFail State := do
  let (plains, s1) ← (recordsOf off bs.length).foldlM (fun (acc : List (Nat × List Byte) × State) j => do
    let (plain, s') ← cuffPlain acc.2 g off bs j
    .ok (acc.1 ++ [(j, plain)], s')) ([], s)
  .ok (plains.foldl (fun s x => cuffSeal s g x.1 x.2) s1)

/-! ### Windows as commands and work requests reach them (R140) -/

/-- Rights bits of WINDOW_CREATE. -/
def rightRead : Nat := 0
def rightWrite : Nat := 1
def rightAccumulate : Nat := 2
def rightAtomic : Nat := 3
def rightSend : Nat := 4

/-- The window refuses plaintext host memory in confidential mode (R370). -/
def plaintextBarred (s : State) (w : Window) : Bool :=
  w.target == 1 && !w.cuff && w.owner < 16 && (gloveOf s w.owner).session.confidential

/-- The Cask a window maps is withheld (R468). -/
def mapsWithheld (s : State) (w : Window) : Bool :=
  w.target == 0 && ((caskOf s w.owner w.object).map (fun c => c.withheld)).getD false

/-- Whole coordinates of the Cask that a window maps: the offset and the length that R118 asks for (R131 step 8). -/
def localAligned (s : State) (w : Window) (off n : Nat) : Bool :=
  match (if w.target = 0 then caskOf s w.owner w.object else none) with
  | some k => w.base % coordBytes k.ring == 0 && off % coordBytes k.ring == 0 && n % coordBytes k.ring == 0
  | none => true

/-- Steps 3, 4, 6, 7 and 8 of R131 for a context's own access, then the rule of R370 (R140). Step 8 is R118's, which
speaks of ACCUMULATE and PARTIAL: `whole` says that the access is for one of these. -/
def localWindow (s : State) (ctx key right off n : Nat) (whole : Bool := false) : Except Refused Window := do
  need (windowInRange s ctx (key / 256)) .accessViolation 1
  let w ← want ((windowOf s (key / 256)).filter (fun w => w.gen == key % 256)) .accessViolation 2
  need (w.rights.testBit right) .accessViolation 4
  need (off + n ≤ w.length) .accessViolation 5
  need (!whole || localAligned s w off n) .accessViolation 6
  need (!plaintextBarred s w) .accessViolation 7
  .ok w

/-- The check of R140 as step 3 of R32, where the parameters have the length of their opcode. -/
def windowCheck (s : State) (ctx key right off n : Nat) (lenOk : Bool := true) : Check :=
  if lenOk then (localWindow s ctx key right off n).map (fun _ => ()) else .ok ()

/-- The bytes of a window's object, after its check. A DMA read of a function that does not reach host memory fails, as a
Cuff record can, whose reading can change the record table (R351, R362, R368; DEDUCED, notes/assumptions/142.md). -/
def windowBytes (s : State) (w : Window) (off n : Nat) : Except ReadFail (List Byte × State) :=
  match w.target with
  | 0 => .ok (((caskOf s w.owner w.object).map (fun c => Memory.readN c.data (w.base + off) n)).getD (zeros n), s)
  | 1 => if ¬ dmaReaches s w.owner then .error { cause := .hostFault }
      else if w.cuff then cuffRead s w.owner (w.base + off) n
      else .ok (hostRead s (functionOf w.owner) (w.base + off) n, s)
  | _ => .ok (zeros n, s)

/-- The ciphertexts of a bound Cask whose residues some bytes touch are INVALID from then on (R249, R251). -/
def spoilHeaders (c : Cask) (off n : Nat) : Cask :=
  match c.binding with
  | none => c
  | some b =>
    let touched (i : Nat) : Bool :=
      (List.range c.limbs).any (fun l =>
        let first := 8 * (l * c.n + i * b.size)
        decide (off < first + 8 * b.size ∧ first < off + n))
    let spoil (x : Nat × CtHeader) : CtHeader := if touched x.1 then { x.2 with state := 0 } else x.2
    { c with binding := some { b with headers := (List.zip (List.range b.headers.length) b.headers).map spoil } }

/-- Bytes stored into a Cask (R251). -/
def storeCask (off : Nat) (bs : List Byte) (c : Cask) : Cask :=
  spoilHeaders { c with data := Memory.writeN c.data off bs } off bs.length

/-- Bytes of a Cask touch residues that a lattice opcode under way works on. -/
def watchHit (c : Cask) (off n : Nat) (w : Watched) : Bool :=
  let i (r : Nat) : Nat := r % max 1 c.n / max 1 w.size
  w.cask == c.id && (List.range (ceilDiv (off + n) 8 - off / 8)).any (fun k =>
    decide (w.first ≤ i (off / 8 + k)) && decide (i (off / 8 + k) < w.first + w.count))

/-- Bytes stored into a Cask while a lattice opcode works on it spoil that opcode's outputs at its end (R273). -/
def touchOpcodes (s : State) (g cask off n : Nat) : State :=
  match caskOf s g cask with
  | none => s
  | some c => { s with
      outstanding := mapIf (fun o => o.pkt.ctx == g && o.watch.any (watchHit c off n)) (fun o => { o with touched := true })
        s.outstanding }

/-- Store bytes into a window's object. A DMA write that fails has no other effect here (R362). -/
def windowStore (s : State) (w : Window) (off : Nat) (bs : List Byte) : Except ReadFail State :=
  match w.target with
  | 0 => .ok (touchOpcodes (setCask s w.owner w.object (storeCask (w.base + off) bs)) w.owner w.object (w.base + off) bs.length)
  | 1 => if ¬ dmaReaches s w.owner then .ok s
      else if w.cuff then cuffWrite s w.owner (w.base + off) bs
      else .ok (hostWrite s (functionOf w.owner) (w.base + off) bs)
  | _ => .ok s

/-- An access of a command counts as placed in its window (WINDOW_QUERY). -/
def countAccess (s : State) (w : Window) : State :=
  setWindow s w.index (fun w => { w with accesses := w.accesses + 1 })

/-- A command ends because host memory could not be read for it (R362, R368). -/
def hostRefused {α : Type} : Except ReadFail α → Except Refused α
  | .ok r => .ok r
  | .error f => .error { answer := { status := dmaStatus f.cause }, host := some f }

/-- A command reads `n` bytes of a window (R140). -/
def readWindow (s : State) (ctx key off n : Nat) : Except Refused (List Byte × State) := do
  let w ← localWindow s ctx key rightRead off n
  need (!mapsWithheld s w) .badState
  hostRefused (windowBytes s w off n)

/-- A command writes bytes to a window (R140). -/
def writeWindow (s : State) (ctx key off : Nat) (bs : List Byte) : Except Refused State := do
  let w ← localWindow s ctx key rightWrite off bs.length
  need (!mapsWithheld s w) .badState
  hostRefused (windowStore s w off bs)

/-- ST_ENTROPY_NOT_READY before start-up has passed, ST_ENTROPY_FAILED once the unit has failed (R385,
R391). -/
def entropyReady (s : State) : Check := do
  need (s.ent.state != .startup) .entropyNotReady
  need (s.ent.state != .failed) .entropyFailed

/-- 256-bit blocks that `n` bytes take (R388). -/
def blocksFor (n : Nat) : Nat := ceilDiv n 32

/-- The Glove whose work a tasted tile belongs to. -/
def workGlove : TastedWork → Nat
  | .press g _ _ => g
  | .lattice g _ _ => g
  | .release g _ _ _ => g
  | .move g _ => g

end Sys2Proof.Machine
end

