-- ==== Sys2Proof/Machine/Casks.lean ====
section
/-! DEFINITION. Casks: ring arithmetic and stripes (R82 to R84), fingerprints and client digests (R174 to R178,
R233), client tallies (R171, R172), checkpoints (R99 to R102), rollback and the notices to gateways (R180 to
R189, R239, R240). -/

set_option autoImplicit false

namespace Sys2Proof.Machine

/-! ### Coordinates and stripes -/

/-- The modulus of a coordinate's ring in one limb (R82). -/
def caskModulus (c : Cask) (limb : Nat) : Nat :=
  match c.ring with
  | 0 => 2 ^ 16
  | 1 => 2 ^ 32
  | 2 => 2 ^ 64
  | 3 => c.moduli.getD limb 1
  | 4 => 2 ^ 32
  | _ => 2 ^ 16

/-- The stored coordinate (residue for ring 3, limb by limb) at an index. -/
def coord (c : Cask) (i : Nat) : Nat :=
  leNat (Memory.readN c.data (coordBytes c.ring * i) (coordBytes c.ring))

def setCoord (c : Cask) (i v : Nat) : Cask :=
  { c with data := Memory.writeN c.data (coordBytes c.ring * i) (toLE (coordBytes c.ring) v) }

/-- Coordinates of a Cask over all limbs. -/
def caskCount (c : Cask) : Nat := c.n * c.limbs

def limbOf (c : Cask) (i : Nat) : Nat := i / max 1 c.n

/-- Global index of a coordinate (R94). -/
def globalIndex (c : Cask) (i : Nat) : Nat := c.shardBase + i % max 1 c.n

/-- Stripe length of R84 for `count` coordinates of `w` bytes over `m` Vats. -/
def stripeLength (count w m : Nat) : Nat := ceilDiv (ceilDiv count (max 1 m)) (1024 / w) * (1024 / w)

/-- Granules a resident Cask reserves in each Vat (R84). -/
def stripeGranules (count w m : Nat) : Nat := stripeLength count w m * w / 1024

/-- Stripe index of a coordinate. -/
def stripeOf (c : Cask) (i : Nat) : Nat :=
  i / max 1 (stripeLength (caskCount c) (coordBytes c.ring) c.vats.length)

/-! ### Fingerprints and digests (R174, R175, R233) -/

/-- The four keys of a Vintage, drawn at VINTAGE_OPEN (R176). -/
def printKey (draw f : Nat) : List Byte := (List.range 32).map (fun j => entropyByte draw (32 * f + j))

/-- The multiplier a_f of R175 for a Cask ID, ring, limb modulus, global index and limb. -/
def printMult (key : List Byte) (ring cask modulus i limb : Nat) : Nat :=
  let block (j l : Nat) := leNat (Crypto.aesEnc key (toLE 8 j ++ toLE 2 cask ++ toLE 1 l ++ zeros 5))
  if ring < 3 then
    let w := coordBytes ring
    let c := 16 / w
    bitsAt (block (i / c) 0) (8 * w * (i % c)) (8 * w) ||| 1
  else
    let a := block i limb % modulus
    if a = 0 then 1 else a

/-- Key of a fingerprint value in `Cask.prints`: fingerprint, stripe index, limb. -/
def printKeyOf (f stripe limb : Nat) : Nat := (8 * f + stripe) * 64 + limb

/-- Key of a digest value in `Cask.digests`: client, fingerprint, limb. -/
def digestKeyOf (client f limb : Nat) : Nat := (4 * client + f) * 64 + limb

def addMod (m a b : Nat) : Nat := (a + b) % m
def subMod (m a b : Nat) : Nat := (a + (m - b % m)) % m

/-- Add or subtract a value in one coordinate of a Cask. -/
def adjustCoord (c : Cask) (minus : Bool) (i x : Nat) : Cask :=
  let m := caskModulus c (limbOf c i)
  setCoord c i (if minus then subMod m (coord c i) x else addMod m (coord c i) x)

/-- The terms of one coordinate in the four fingerprints, and in the digest of a client if one is named. -/
def printCoord (draw : Nat) (c : Cask) (minus : Bool) (client : Option Nat) (i x : Nat) : Cask :=
  let limb := limbOf c i
  let m := caskModulus c limb
  let op (a b : Nat) := if minus then subMod m a b else addMod m a b
  (List.range 4).foldl (fun c f =>
    let t := printMult (printKey draw f) c.ring c.id m (globalIndex c i) limb * x % m
    let k := printKeyOf f (stripeOf c i) limb
    { c with
      prints := Sparse.set c.prints k (op (Sparse.get c.prints k) t)
      digests := match client with
        | some u => Sparse.set c.digests (digestKeyOf u f limb) (op (Sparse.get c.digests (digestKeyOf u f limb)) t)
        | none => c.digests }) c

/-- Values added or subtracted from a coordinate on, with their fingerprint terms (R165 step 7, R177). -/
def placeValues (draw : Nat) (minus : Bool) (client : Option Nat) : Cask → Nat → List Nat → Cask
  | c, _, [] => c
  | c, i, x :: xs =>
    placeValues draw minus client (printCoord draw (adjustCoord c minus i x) minus client i x) (i + 1) xs

/-- The coordinates that a payload spells. -/
def payloadValues (c : Cask) (bs : List Byte) : List Nat := (pieces (coordBytes c.ring) bs).map leNat

/-- The fingerprints of an image laid out as the Cask is: the values that verification computes (R101,
R180). -/
def imagePrints (draw : Nat) (c : Cask) (image : Mem) : Sparse :=
  let blank : Cask := { c with prints := [], digests := [] }
  let img : Cask := { c with data := image }
  ((List.range (caskCount c)).foldl (fun acc i =>
    if coord img i = 0 then acc else printCoord draw acc false none i (coord img i)) blank).prints

/-- Stripe indices in which two sets of fingerprints differ, as a bitmap. -/
def printDiff (a b : Sparse) : Nat :=
  let keys := dedup ((a ++ b).map Prod.fst)
  (keys.filter (fun k => Sparse.get a k != Sparse.get b k)).foldl (fun m k => m ||| 2 ^ (k / 64 % 8)) 0

/-- The four digest values of a vector, limb by limb, under a Cask's keys (R235, pass 1). -/
def vectorDigest (draw : Nat) (c : Cask) (client : Nat) (values : List Nat) : Sparse :=
  (placeValues draw false (some client) { c with data := [], prints := [], digests := [] } 0 values).digests

/-- The digest of one client. -/
def clientDigest (d : Sparse) (client : Nat) : Sparse :=
  d.filter (fun x => x.1 / 256 == client)

/-! ### Client tallies (R171, R172) -/

def tallyOf (l : List Tally) (u : Nat) : Tally :=
  (l.find? (fun t => t.client == u)).getD ⟨u, 0, 0, false⟩

def setTally (l : List Tally) (t : Tally) : List Tally :=
  if l.any (fun x => x.client == t.client) then mapIf (fun x => x.client == t.client) (fun _ => t) l
  else insertBy (fun x => x.client) t l

/-- A contribution to one Cask is complete (R171). -/
def tallyComplete (t : Tally) : Bool := t.placed == t.expected && !t.conflict && t.expected != 0

/-- One placed packet of a client that gives `count` packets: the tally after it, and whether CONFLICT is
set now (R172). -/
def tallyPlace (t : Tally) (count : Nat) : Tally × Bool :=
  let expected := if t.expected = 0 then count else t.expected
  let clash := count ≠ expected ∨ expected < t.placed + 1
  ({ t with placed := t.placed + 1, expected := expected, conflict := t.conflict || clash },
   clash && !t.conflict)

/-- The client has a contribution to the Vintage: complete in every accumulate Cask (R163). -/
def hasContribution (s : State) (g v u : Nat) : Bool :=
  (accumulateCasks s g v).all (fun c => tallyComplete (tallyOf c.tallies u))

/-- The client has at least one placed packet in some accumulate Cask. -/
def hasPlaced (s : State) (g v u : Nat) : Bool :=
  (accumulateCasks s g v).any (fun c => (tallyOf c.tallies u).placed != 0 ||
    !(clientDigest c.digests u).isEmpty)

def standingOf (v : Vintage) (u : Nat) : Standing :=
  ((v.standings.find? (fun x => x.1 == u)).map Prod.snd).getD .none

def setStanding (v : Vintage) (u : Nat) (st : Standing) : Vintage :=
  let l := if v.standings.any (fun x => x.1 == u)
    then mapIf (fun x => x.1 == u) (fun x => (x.1, st)) v.standings
    else insertBy Prod.fst (u, st) v.standings
  { v with standings := l }

/-- Clients with a Racked contribution (R105, R163). -/
def rackedClients (s : State) (v : Vintage) : List Nat :=
  (v.standings.filter (fun x => x.2 == .racked && hasContribution s v.glove v.id x.1)).map Prod.fst

/-! ### Vintage events (R110) -/

/-- Bits [7:4] of VINTAGE_QUERY result 0. -/
def vintageFlags (s : State) (v : Vintage) : Nat :=
  b2n v.belowCohort + 2 * b2n v.shortShares + 4 * b2n v.shardMismatch +
    8 * b2n ((casksBound s v.glove v.id).any (fun c => c.spilled))

/-- A Vintage event: code, status, Cask, cause, A, phase word, B, C. -/
def vintageEvent (s : State) (v : Vintage) (code : Nat) (st : Status) (cask cause a : Nat) (w : PhaseWord)
    (b c : Nat) : State :=
  postEvent s v.glove (toLE 2 code ++ toLE 2 (statusWord st) ++ toLE 4 v.id ++ toLE 2 cask ++
    toLE 1 (vintageFlags s v) ++ toLE 1 cause ++ toLE 4 a ++ phaseBytes w ++ toLE 4 b ++ toLE 4 c)

/-! ### Spill mode (R80, R87) -/

/-- The granules that `n` coordinates from one on touch. -/
def granulesOf (c : Cask) (first n : Nat) : List Nat :=
  let w := coordBytes c.ring
  if n = 0 then [] else (List.range ((first + n) * w / 1024 + 1 - first * w / 1024)).filterMap (fun j =>
    let gr := first * w / 1024 + j
    if gr * 1024 < (first + n) * w then some gr else none)

/-- The LPDDR channel of a spill stripe: the stripes are interleaved across the Glove's channels in channel order (R87). -/
def spillChannel (s : State) (g stripe : Nat) : Nat :=
  let l := bitList 96 (gloveOf s g).cfg.channels
  l.getD (stripe % max 1 l.length) 0

/-- A line is used: it becomes the most recent, and beyond the cache's size the least recently used one is written back
(R87). -/
def touchLine (line : SpillLine) (l : List SpillLine) : List SpillLine :=
  let l1 := l.filter (fun x => x != line) ++ [line]
  l1.drop (l1.length - Config.spillLines)

/-- The Vat that handles stripes on a Vat: itself, or the stand-in of a Vat whose stripes are carried, which is the next
in-service Vat of the Glove's list (R455). -/
def standIn (s : State) (g vat : Nat) : Nat :=
  if s.int.carrying = some vat then
    (((List.range 8).map (fun i => (vat + 1 + i) % 8)).find? (gloveOf s g).vatList.contains).getD vat
  else vat

/-- Adds into a spilled Cask, or into a carried stripe, bring their spill stripes into the caches of the Vats that handle
the coordinates (R84, R87, R455). -/
def spillTouch (s : State) (c : Cask) (first n : Nat) : State :=
  let vatAt (gr : Nat) : Nat := c.vats.getD (stripeOf c (gr * (1024 / coordBytes c.ring))) 0
  let cached := (granulesOf c first n).filter (fun gr => c.spilled || s.int.carrying == some (vatAt gr))
  let touched := dedup (cached.map (fun gr => (standIn s c.glove (vatAt gr), gr / 4)))
  touched.foldl (fun s x => { s with
      spill := setAt s.spill x.1 (touchLine ⟨c.glove, c.id, x.2, spillChannel s c.glove x.2⟩) }) s

/-- Spill stripes that are no longer anyone's leave the caches. -/
def dropLines (s : State) (sel : SpillLine → Bool) : State :=
  { s with spill := s.spill.map (fun l => l.filter (fun x => !sel x)) }

/-- An add reaches granules that the copier of a checkpoint in progress has not reached: they are copied first and flagged
(R80, R100). -/
def flagGranules (first n : Nat) (c : Cask) : Cask :=
  { c with inProgress := c.inProgress.map (fun cp =>
      if cp.copied then cp else { cp with flags := dedup (cp.flags ++ granulesOf c first n) }) }

/-! ### Notices (R186) -/

/-- A RACK_SAFE or REPLAY notice. -/
def noticePayload (s : State) (kind flags cask vintage index vcut e : Nat) (w : PhaseWord)
    (bitmap : Option (BitVec 4096)) : List Byte :=
  toLE 1 kind ++ toLE 1 flags ++ toLE 2 cask ++ toLE 4 vintage ++ toLE 4 index ++ toLE 4 vcut ++ toLE 4 e ++
  toLE 4 s.fw.epoch ++ phaseBytes w ++ zeros 32 ++
  (match bitmap with
   | some b => toLE 512 b.toNat
   | none => [])

def sendNotice (s : State) (conn vintage kind : Nat) (payload : List Byte) : State :=
  sendMessage s conn Config.noticeKey payload none (some (vintage, kind))

/-- Connections that have placed into an accumulate Cask of a Vintage since VINTAGE_OPEN (R239). -/
def placingConns (s : State) (g v : Nat) : List Nat :=
  let ids := (accumulateCasks s g v).map (fun c => c.id)
  (s.conns.filter (fun c => c.owner == g && c.placedInto.any ids.contains)).map (fun c => c.id)

/-- REMOVE notices that list clients, at most 1,000 in each (R239). -/
def sendRemoves (s : State) (v : Vintage) (rollback : Bool) (clients : List Nat) (w : PhaseWord) : State :=
  let parts := pieces 1000 clients
  (placingConns s v.glove v.id).foldl (fun s conn =>
    (List.zip (List.range parts.length) parts).foldl (fun s x =>
      sendNotice s conn v.id 3 (toLE 1 3 ++ toLE 1 (b2n rollback) ++ zeros 2 ++ toLE 4 v.id ++ toLE 4 x.1 ++
        toLE 4 parts.length ++ toLE 4 x.2.length ++ toLE 4 s.fw.epoch ++ phaseBytes w ++ zeros 32 ++
        (x.2.map (toLE 4)).flatten)) s) s

/-- The window that a received packet was checked against maps the Cask. -/
def windowHits (g cask : Nat) (w : Option Window) : Bool :=
  match w with
  | some w => w.owner == g && w.target == 0 && w.object == cask
  | none => false

/-! ### The charge of a mismatch to a Vat (R460, R461) -/

/-- MISMATCH records charged to a Vat that count with one of now: within 24 hours of VALID calendar time, or
of the same boot epoch (R460). -/
def recentMismatches (s : State) (vat : Nat) : Nat :=
  (s.int.history.filter (fun r => r.kind == 1 && r.unit == vat &&
    (if r.timeValid && s.cal.valid then decide (s.cal.ms ≤ r.time + Config.dayMs)
     else r.epoch == s.fw.epoch && (r.timeValid || s.cal.valid || s.cal.elapsed ≤ r.time + Config.dayMs)))).length

/-- A Vat changes state; a STATE record is written (R459). -/
def changeVat (s : State) (vat glove : Nat) (st : VatState) : State :=
  if (vatOf s vat).state = st then s
  else addRecord (setVat s vat (fun v => { v with state := st }))
    { kind := 6, unit := vat, outcome := vatStateCode st, glove := glove }

/-- A Vat is retired for good (R460, R452). -/
def retireVat (s : State) (vat glove : Nat) : State :=
  changeVat (setVat s vat (fun v => { v with permanent := true })) vat glove .retired

/-- Write a MISMATCH record and charge it to a Vat, which becomes permanent, and retires, on the third within 24 hours. -/
def chargeVat (s : State) (vat cls outcome glove : Nat) (runs : List Nat) (syndrome tile : Nat) : State :=
  let s1 := addRecord s { kind := 1, unit := vat, cls := cls, outcome := outcome, glove := glove, vats := runs, syndrome := syndrome, tile := tile }
  if 3 ≤ recentMismatches s1 vat then retireVat s1 vat glove else s1

/-! ### Rollback (R181 to R185, R240) -/

/-- A fingerprint mismatch in the stripes of a bitmap goes to the unit history; one in a single stripe is charged to the Vat
that holds it (R181, R459, R461). -/
def recordMismatch (s : State) (g stripes : Nat) (vats : List Nat) : State :=
  let s1 := addRecord s { kind := 3, unit := 0x30 + g, glove := g, vats := [stripes] }
  match bitList 8 stripes with
  | [i] => chargeVat s1 (vats.getD i 0) 0 0 g [] 0 0
  | _ => s1

/-- The add of a packet accepted for a Cask is still in progress on a connection. -/
def addsInto (g cask : Nat) (c : Conn) : Bool :=
  c.owner == g && c.req.flight.any (fun f => !f.complete && f.verdict == .place && windowHits g cask f.win)

/-- Connections that a rollback concerns, each with the highest PSN received on it: those that have placed into the Cask
since the verified cut, or whose accepted packet is still being placed (R181). -/
def rollbackFences (s : State) (c : Cask) : List (Nat × Nat) :=
  (s.conns.filter (fun k => c.placers.contains k.id || c.placersCut.contains k.id || addsInto c.glove c.id k)).filterMap
    (fun k => k.req.highest.map (fun e => (k.id, e)))

/-- Steps 1 and 2 of R181, when a mismatch is found in the stripes of a bitmap, which lie on `vats`: packets are refused
from now on, and each connection concerned gets a fence. A Cask rolls back at most once for each checkpoint: a second
mismatch before the next cut is recorded and charged, and the verification of that cut's image judges the Cask (R78, R184;
DESIGN CHOICE, notes/assumptions/161.md). -/
def startRollback (s : State) (g cask stripes : Nat) (vats : List Nat) (sealedR : Bool) : State :=
  match caskOf s g cask with
  | none => s
  | some c =>
    let es := rollbackFences s c
    let s1 := es.foldl (fun s x => setConn s x.1 (fun k => { k with fences := k.fences ++ [(cask, x.2)] })) s
    let s2 := setCask s1 g cask (fun c => { c with
      inProgress := none
      rollback := some { fences := es, stripes := stripes, phase := contextWord s g, sealedR := sealedR }
      rolled := true
      target := if sealedR ∧ c.target.isNone then some (c.tallies, c.digests, c.partials) else c.target
      baseReady := false })
    recordMismatch (if c.rolled then s else s2) g stripes vats

/-- The clients whose completed removal the restored image undoes: their packets are placed again. Those that were
RETRACTED return to RETRACTING (R239, R240; DEDUCED, log 44: an adjustment after the seal is not covered by the seal
checkpoint, whose phase its stamp may equal). -/
def undoRemovals (s : State) (v : Vintage) (c : Cask) : State × List Nat :=
  let now := ((caskOf s c.glove c.id).getD c)
  let back := (c.removedAt.map Prod.fst).filter (fun u =>
    (tallyOf now.tallies u).placed != 0 || !(clientDigest now.digests u).isEmpty)
  let s1 := setVintage s v.glove v.id (fun v => back.foldl (fun v u =>
    if standingOf v u = .retracted then setStanding v u .retracting else v) v)
  (setCask s1 c.glove c.id (fun c => { c with removedAt := c.removedAt.filter (fun x => !back.contains x.1) }), back)

/-- A packet of a client that was accepted into one of these Casks is still in progress. -/
def clientInFlight (s : State) (g : Nat) (casks : List Cask) (u : Nat) : Bool :=
  s.conns.any (fun c => c.owner == g && c.req.flight.any (fun f =>
    f.op == 0x04 && !f.complete && f.verdict == .place && field f.pkt.ext 0 4 == u &&
      casks.any (fun k => windowHits g k.id f.win)))

/-- The removal of a client is complete: placed and digest are 0 in every accumulate Cask (R236). -/
def removalComplete (s : State) (g vid u : Nat) : Bool :=
  (accumulateCasks s g vid).all (fun c => (tallyOf c.tallies u).placed == 0 && (clientDigest c.digests u).isEmpty)

/-- RETRACTING clients whose removal is complete, with no packet in progress, become RETRACTED (R236). -/
def settleRemovals (s : State) (g vid : Nat) : State :=
  match vintageOf s g vid with
  | none => s
  | some v =>
    let ended := (v.standings.filter (fun x => x.2 == .retracting && removalComplete s g vid x.1 &&
      !clientInFlight s g (accumulateCasks s g vid) x.1)).map Prod.fst
    setVintage s g vid (fun v => ended.foldl (fun v u => setStanding v u .retracted) v)

/-- The record that a checkpoint holds of a connection as it is now: one of an earlier incarnation is none (R120, R186). -/
def connRecordOf (s : State) (cp : Option Checkpoint) (conn : Nat) : Option ConnRecord :=
  cp.bind (fun k => k.conns.find? (fun y => y.conn == conn &&
    ((connOf s conn).map (fun c => c.incarnation)) == some y.incarnation))

/-- Steps 3 to 5 of R181: the image, tallies and digests return to the verified checkpoint, or to the empty start (R101);
the fingerprints are those of the image in the present layout (R457). CASK_ROLLBACK and the REPLAY notices go out, and
packets are accepted again. Where no checkpoint is verified, the event and the notices name index 0, and the notices the
phase of VINTAGE_OPEN with source ID 0 (DESIGN CHOICE, notes/assumptions/156.md). -/
def finishRollback (s : State) (g cask : Nat) : State :=
  match caskOf s g cask with
  | none => s
  | some c =>
    match c.rollback, vintageOf s g c.vintage with
    | some r, some v =>
      let cp := c.verified
      let image := (cp.map (fun x => x.image)).getD []
      let s1 := setCask s g cask (fun c => { c with
        data := image
        tallies := (cp.map (fun x => x.tallies)).getD []
        digests := (cp.map (fun x => x.digests)).getD []
        partials := (cp.map (fun x => x.partials)).getD []
        prints := imagePrints v.printDraw c image
        placersCut := []
        rollback := none })
      let phase := (cp.map (fun x => x.phase)).getD ⟨0, v.openPhase⟩
      let (s2, back) := undoRemovals s1 v c
      let index := (cp.map (fun x => x.index)).getD 0
      let s3 := postEvent s2 g (toLE 2 0x0110 ++ toLE 2 (statusWord .replayRequested) ++ toLE 4 v.id ++
        toLE 2 cask ++ toLE 2 (min 65535 r.fences.length) ++ toLE 4 index ++ phaseBytes r.phase ++
        toLE 1 r.stripes ++ toLE 1 (b2n r.sealedR) ++ zeros 6)
      let s4 := r.fences.foldl (fun s x =>
        let rec_ := connRecordOf s cp x.1
        let vcut := (rec_.map (fun y => y.v)).getD 0xFFFFFFFF
        sendNotice s x.1 v.id 2 (noticePayload s 2 (b2n rec_.isNone + 2 * b2n r.sealedR) cask v.id index vcut
          x.2 phase (some ((rec_.map (fun y => y.bitmap)).getD 0)))) s3
      settleRemovals (if back.isEmpty then s4 else sendRemoves s4 v true back r.phase) g v.id
    | _, _ => setCask s g cask (fun c => { c with rollback := none })

/-! ### Checkpoints (R99 to R102, R178, R187) -/

/-- Work stamped at or below a phase that the cut waits for: packets of the Cask in progress or parked, and
CASK_ADJUST commands not yet complete (R99, R237). -/
def cutWaits (s : State) (g cask phase : Nat) : Bool :=
  s.conns.any (fun c => c.owner == g &&
    (c.req.flight.any (fun f => !f.complete && windowHits g cask f.win && f.stamp.count ≤ phase) ||
     c.parked.any (fun p => windowHits g cask p.win && p.stamp.count ≤ phase))) ||
  (s.staged ++ s.outstanding.map (fun o => o.pkt)).any (fun p =>
    p.ctx == g && p.opcode == 0x0122 && p.u16 0 == cask && p.stamp.count ≤ phase)

/-- A bitmap without the PSNs still in progress (R166, R188). -/
def settledBitmap (rx : SeqRx) : BitVec 4096 :=
  rx.flight.foldl (fun b f => if f.complete then b else b &&& ~~~(1#4096 <<< (circle 32 f.psn rx.v - 1))) rx.bitmap

/-- The fingerprints of one limb as a checkpoint holds them: by fingerprint and stripe index, 8 bytes each (R178). -/
def printBlock (prints : Sparse) (limb : Nat) : List Byte :=
  (List.range 4).flatMap (fun f => (List.range 8).flatMap (fun i => toLE 8 (Sparse.get prints (printKeyOf f i limb))))

/-- The record of a connection (R188). -/
def connRecordBytes (r : ConnRecord) : List Byte :=
  toLE 2 r.conn ++ toLE 2 r.incarnation ++ toLE 4 r.v ++ toLE 512 r.bitmap.toNat

/-- The metadata block of a checkpoint: the 4 KiB header, the connection records, and the fingerprints of limbs 1 and up
(R102, R178, R188). It is kept in plaintext here; the channel's inline encryption of R404 is of no effect inside the
engine (DESIGN CHOICE, notes/assumptions/133.md). -/
def metadataBlock (c : Cask) (cp : Checkpoint) : List Byte :=
  toLE 4 0x4B504343 ++ toLE 4 c.vintage ++ toLE 2 c.id ++ toLE 1 c.glove ++ toLE 1 (b2n cp.verified + 2 * b2n cp.sealCp) ++
  toLE 4 cp.index ++ phaseBytes cp.phase ++ toLE 4 cp.epoch ++ toLE 4 cp.conns.length ++ toLE 8 cp.racked ++
  toLE 8 cp.offset ++ printBlock cp.prints 0 ++ zeros 3792 ++ (cp.conns.map connRecordBytes).flatten ++
  (List.range (c.limbs - 1)).flatMap (fun l => printBlock cp.prints (l + 1))

/-- A checkpoint with its metadata block as it stands now. -/
def withBlock (c : Cask) (cp : Checkpoint) : Checkpoint := { cp with block := metadataBlock c cp }

/-- The slot of a Cask's next checkpoint: the one that does not hold the verified one (R101). -/
def freeSlot (c : Cask) : Nat :=
  match c.verified with
  | some cp => 1 - cp.slot
  | none => 0

/-- The cut of the first checkpoint due for a Cask of an ACTIVE Glove (R330). One that falls due while another is in progress, or while the Cask
rolls back (R184), waits: the rules give a Cask one copy at a time (DESIGN CHOICE, notes/assumptions/132.md). -/
def takeCut (s : State) (g cask : Nat) : State :=
  match caskOf s g cask with
  | none => s
  | some c =>
    match c.dueCuts, vintageOf s g c.vintage with
    | (k, word, sealCp) :: rest, some v =>
      if c.inProgress.isSome ∨ c.rollback.isSome ∨ cutWaits s g cask word.count ∨ (gloveOf s g).state ≠ .active then s
      else
        let conns := (s.conns.filter (fun x => x.owner == g && x.placedInto.contains cask)).map (fun x =>
          ({ conn := x.id, incarnation := x.incarnation, v := x.req.v, bitmap := settledBitmap x.req } : ConnRecord))
        let cp : Checkpoint := {
          index := k, sealCp := sealCp, phase := word, epoch := s.fw.epoch
          racked := (rackedClients s v).length, slot := freeSlot c, offset := Config.imageOffset g cask (freeSlot c) % 2 ^ 64
          image := c.data, tallies := c.tallies, digests := c.digests
          partials := c.partials, prints := c.prints, vats := c.vats, conns := conns }
        setCask s g cask (fun c => { c with
          dueCuts := rest, inProgress := some (withBlock c cp), placersCut := [], rolled := false })
    | _, _ => s

/-- RACK_SAFE to every connection with a record in a checkpoint; a sharded Vintage sends none before its
exchange has completed (R187). -/
def sendRackSafe (s : State) (v : Vintage) (cask : Nat) (cp : Checkpoint) : State :=
  if 1 < v.shardCount ∧ ¬ v.survivorsFixed then s
  else (cp.conns.filter (fun r => ((connOf s r.conn).map (fun c => c.incarnation)) == some r.incarnation)).foldl
    (fun s r => sendNotice s r.conn v.id 1 (noticePayload s 1 0 cask v.id cp.index r.v 0 cp.phase none)) s

/-- A checkpoint becomes verified (R101, R110). The verified seal checkpoint is the unmask base unless a
removal is pending, one was made since the cut, or a later seal checkpoint is due (R211). -/
def acceptCheckpoint (s : State) (v : Vintage) (c : Cask) (cp : Checkpoint) (removalsPending : Bool) : State :=
  let s1 := setCask s c.glove c.id (fun c => { c with
    verified := some (withBlock c { cp with verified := true }), inProgress := none, placers := c.placersCut
    baseReady := cp.sealCp && !removalsPending && c.dueCuts.isEmpty && cp.tallies == c.tallies && cp.digests == c.digests })
  let s2 := setVintage s1 v.glove v.id (fun v => { v with checkpoints := v.checkpoints + 1 })
  sendRackSafe (vintageEvent s2 v 0x0114 .ok c.id 0 cp.index cp.phase (min (2 ^ 32 - 1) cp.racked) 0) v c.id cp

end Sys2Proof.Machine
end

