-- ==== Sys2Proof/Machine/Phase.lean ====
section
/-! DEFINITION. Phase: ticks and the events they make fall due (R53 to R66), the phase commands 0x0C01 to
0x0C04, the calendar's milliseconds and stall fallback. -/

set_option autoImplicit false

namespace Sys2Proof.Machine

/-! ### Phase events (R62 to R65) -/

/-- The Vintage holds R57's and R58's source: OPEN, SEALED, UNMASKING or READY. -/
def isLiveVintage (v : Vintage) : Bool :=
  v.state == .opened || v.state == .sealedV || v.state == .unmasking || v.state == .ready

/-- Contribution close and share close are events of a Vintage until share close has fallen due. -/
def closesPending (v : Vintage) : Bool := v.state == .opened || v.state == .sealedV

def evKindOrder : EvKind → Nat
  | .contributionClose => 0
  | .shareClose => 1
  | .checkpoint => 2
  | .keyRotation => 3

/-- Highest checkpoint index of an OPEN Vintage with a phase in [old, new) below contribution close, and how
many such indices there are. Checkpoints at or above contribution close find the Vintage sealed (R64, R65). -/
def checkpointsDue (v : Vintage) (old new : Nat) : Option (Nat × Nat) :=
  if v.state ≠ .opened ∨ v.k = 0 then none
  else
    let top := min new v.c
    let first := max v.nextCheckpoint (ceilDiv (old - v.openPhase) v.k)
    let last := (top - 1 - v.openPhase) / v.k
    if v.openPhase < top ∧ first ≤ last ∧ 1 ≤ last then some (last, last + 1 - max 1 first) else none

/-- The order of R65. -/
def dueOrder (l : List DueEvent) : List DueEvent :=
  sortBy (fun e => e.phase) (sortBy (fun e => evKindOrder e.kind) (sortBy (fun e => e.vintage) l))

/-- An event comes before another in the order of R65. -/
def dueBefore (a b : DueEvent) : Bool :=
  a.phase < b.phase || (a.phase == b.phase &&
    (evKindOrder a.kind < evKindOrder b.kind || (a.kind == b.kind && a.vintage < b.vintage)))

/-- An event that a tick makes fall due. -/
def dueEvent (t : TickRec) (phase : Nat) (kind : EvKind) (vintage index : Nat) : DueEvent :=
  { phase := phase, kind := kind, vintage := vintage, index := index, tick := t.word, cycle := t.cycle, byTick := t.byTick }

/-- The events of one Vintage that a tick makes fall due: those with a phase in [old, new). -/
def vintageEvents (v : Vintage) (t : TickRec) : List DueEvent :=
  let within (d : Nat) := closesPending v && t.old ≤ d && d < t.word.count
  (if within v.c then [dueEvent t v.c .contributionClose v.id 0] else []) ++
  (if within v.s then [dueEvent t v.s .shareClose v.id 0] else []) ++
  (match checkpointsDue v t.old t.word.count with
   | some (k, _) => [dueEvent t (v.openPhase + k * v.k) .checkpoint v.id k]
   | none => [])

/-- A Vintage after a tick: the checkpoint indices up to the one taken are passed (R65). -/
def passTick (v : Vintage) (t : TickRec) : Vintage :=
  match checkpointsDue v t.old t.word.count with
  | some (k, _) => { v with nextCheckpoint := k + 1 }
  | none => v

/-- What ticks do to a Vintage that is open while they come: the Vintage after them, and its events that fall due. -/
def replayTicks (v : Vintage) (l : List TickRec) : Vintage × List DueEvent :=
  l.foldl (fun x t => (passTick x.1 t, x.2 ++ vintageEvents x.1 t)) (v, [])

/-- Serialized commands of an opcode in a Glove that have not taken effect: staged, or waiting for their draw. -/
def notActed (s : State) (g op : Nat) : List Packet :=
  (s.staged ++ s.outstanding.map (fun o => o.pkt)).filter (fun p => p.opcode == op && p.ctx == g)

/-- A Vintage as VINTAGE_OPEN leaves it, at the count of its stamp (R63, R64). -/
def asOpened (v : Vintage) (o : Nat) : Vintage := { v with state := .opened, openPhase := o, nextCheckpoint := 1 }

/-- The Vintage that a serialized VINTAGE_OPEN will open: the DRAFT one, or the one of a VINTAGE_CREATE staged before it. -/
def openingOf (s : State) (p : Packet) : Option Vintage :=
  let found : Option Vintage := match vintageOf s p.ctx p.vintage with
    | some v => some v
    | none => ((notActed s p.ctx 0x0101).find? (fun x => x.vintage == p.vintage && x.order < p.order)).map (fun x =>
        { (default : Vintage) with
          glove := p.ctx, id := p.vintage, state := .draft, c := x.u64 16, s := x.u64 24, k := x.u64 40 })
  (found.filter (fun v => v.state == .draft && p.stamp.count < v.c)).map (fun v => asOpened v p.stamp.count)

/-- The Vintages of a Glove that serialized VINTAGE_OPEN commands will open. Their events fall due as those of OPEN ones,
however late the command is processed (R61, R63, R64). -/
def openings (s : State) (g : Nat) : List Vintage :=
  (notActed s g 0x0104).foldl (fun l p =>
    match openingOf s p with
    | some v => if l.any (fun w => w.id == v.id) then l else l ++ [v]
    | none => l) []

/-- Events of those Vintages that have fallen due: each acts once its Vintage is open. -/
def openingEvents (s : State) (g : Nat) : List DueEvent :=
  (openings s g).flatMap (fun v => (replayTicks v (gloveOf s g).phase.recent).2)

/-- Events that have fallen due join those of a Glove that have not acted yet. -/
def addDue (s : State) (g : Nat) (l : List DueEvent) : State :=
  setGlove s g (fun x => { x with phase := { x.phase with due := dueOrder (x.phase.due ++ l) } })

/-- The rotation that a tick makes fall due (R420). -/
def rotationDue (r : Option Nat) (t : TickRec) : List DueEvent :=
  match r with
  | some d => if t.old ≤ d ∧ d < t.word.count then [dueEvent t d .keyRotation 0 0] else []
  | none => []

/-- Everything in a Glove that a tick makes fall due. -/
def eventsDue (s : State) (g : Nat) (t : TickRec) : List DueEvent :=
  (s.vintages.filter (fun v => v.glove == g)).flatMap (fun v => vintageEvents v t) ++ rotationDue (gloveOf s g).rotation t

/-- How many events a tick makes fall due, of the Vintages that wait for their VINTAGE_OPEN too: every checkpoint counts,
though one is taken for them (R65). -/
def countDue (s : State) (g : Nat) (t : TickRec) : Nat :=
  let vs := s.vintages.filter (fun v => v.glove == g) ++
    (openings s g).map (fun v => (replayTicks v (gloveOf s g).phase.recent).1)
  let of (v : Vintage) : Nat :=
    (vintageEvents v t).length + ((checkpointsDue v t.old t.word.count).map (fun x => x.2 - 1)).getD 0
  sumOf of vs + (rotationDue (gloveOf s g).rotation t).length

/-- The ticks kept after one in a cycle: those of that cycle, in which a command with a stamp of before it may still be
serialized (R61), and those above the stamp of a command that has not taken effect. -/
def keptTicks (s : State) (g cycle : Nat) : List TickRec :=
  let stamps := (notActed s g 0x0104 ++ notActed s g 0x0807).map (fun p => p.stamp.count)
  (gloveOf s g).phase.recent.filter (fun t => t.cycle == cycle || stamps.any (fun c => decide (c < t.word.count)))

/-- The record of a tick of a Glove to a target. -/
def tickRec (s : State) (g src target cycle : Nat) (byTick : Option (Nat × Nat × Nat)) : TickRec :=
  { old := (gloveOf s g).phase.word.count, word := ⟨src, target⟩, cycle := cycle, byTick := byTick }

/-- A tick of a Glove to a target above its count: the count changes at the end of the cycle, and events
fall due (R61, R65). A checkpoint that falls due is taken once, under its highest index; a rotation that falls due is
no longer scheduled (R420). -/
def applyTick (s : State) (g src target cycle : Nat) (byTick : Option (Nat × Nat × Nat)) : State :=
  let p := (gloveOf s g).phase
  if target ≤ p.word.count then s
  else
    let t := tickRec s g src target cycle byTick
    let kept := keptTicks s g cycle
    let due := eventsDue s g t
    let s1 := setGlove s g (fun x => { x with
      rotation := if (rotationDue x.rotation t).isEmpty then x.rotation else none
      phase := { x.phase with
        word := t.word
        before := if p.changed = some cycle then p.before else p.word
        changed := some cycle
        recent := kept ++ [t] } })
    addDue { s1 with vintages := s1.vintages.map (fun v => if v.glove = g then passTick v t else v) } g due

/-- What the serialization of a VINTAGE_OPEN fixes: the guarantee (R70), the key generation (R419), and the members to
which the Glove holds an ESTABLISHED Trellis connection (R97), each as its bit. -/
def openMark (live : Bool) (generation : Nat) (members : List Nat) : Nat :=
  b2n live + 2 * (generation % 2 ^ 32) + 2 ^ 33 * (dedup members).foldl (fun n m => n + 2 ^ m) 0

def markLive (mark : Nat) : Bool := mark % 2 == 1
def markGeneration (mark : Nat) : Nat := mark / 2 % 2 ^ 32
def markMember (mark member : Nat) : Bool := (mark / 2 ^ 33).testBit member

/-- PHS_TICKS rises by one, saturating. -/
def countTick (s : State) (g : Nat) : State :=
  setGlove s g (fun x => { x with phase := { x.phase with ticks := satAdd (2 ^ 32 - 1) x.phase.ticks 1 } })

/-- Phase of the next event to fall due (PHS_NEXT, PHASE_QUERY). -/
def nextDue (s : State) (g : Nat) : Option Nat :=
  let count := (gloveOf s g).phase.word.count
  let ofVintage (v : Vintage) : List Nat :=
    if v.glove = g ∧ closesPending v then
      [v.c, v.s] ++ (if v.state = .opened ∧ v.k ≠ 0 ∧ v.openPhase + v.nextCheckpoint * v.k < v.c
        then [v.openPhase + v.nextCheckpoint * v.k] else [])
    else []
  let all := (s.vintages.flatMap ofVintage ++ (gloveOf s g).rotation.toList).filter (fun d => count ≤ d)
  match all with
  | [] => none
  | d :: ds => some (ds.foldl min d)

/-! ### PHASE_TICK (R58, R61, R62) -/

/-- The source of a packet in the order of R41. -/
def routeRank : Route → Nat
  | .sideband => 1
  | .pf => 2
  | .vf => 3
  | .wra => 4

/-- The check of R62, made at serialization: steps 3 to 5 of R32 for PHASE_TICK. In a fallback that is suspended a tick
must exceed the count as in any other (DESIGN CHOICE, notes/assumptions/122.md). -/
def tickCheck (p : Packet) (s : State) : Check := do
  let ph := (gloveOf s p.ctx).phase
  need (p.ctx < 16) .accessViolation
  need (ph.type != .coordinator || p.queue == ph.queue) .accessViolation
  match formError p (p.len = 16) false
      [(0, p.u16 0 != 0 && p.u16 0 != 0xFFFE && p.u16 0 != 0xFFFF), (2, p.num 2 6 == 0), (8, p.num 14 2 == 0)] with
  | some off => fail .badParam off
  | none => .ok ()
  need (ph.type == .coordinator) .badState 1
  need (p.u16 0 == ph.source) .badState 2
  need (if ph.fallback then ph.word.count < p.u64 8 else ph.word.count ≤ p.u64 8) .badState 3

/-- An accepted tick: it ends fallback, restarts the timing of L and moves the count; the reply it will
receive at dispatch (R58, R62). -/
def tickAccept (p : Packet) (s : State) : Answer × State :=
  let ph := (gloveOf s p.ctx).phase
  let target := p.u64 8
  let place := (routeRank p.route, p.queue, p.order)
  let n := if ph.word.count < target then countDue s p.ctx (tickRec s p.ctx (p.u16 0) target p.cycle (some place)) else 0
  let s1 := applyTick s p.ctx (p.u16 0) target p.cycle (some place)
  let s2 := setGlove (countTick s1 p.ctx) p.ctx (fun x => { x with phase := { x.phase with
    fallback := false, sinceTick := 0, lastTick := calendarWord s } })
  ({ status := .ok, r0 := n, r1 := target % 2 ^ 32, r2 := target / 2 ^ 32 }, s2)

/-- PHASE_TICK at its serialization: the result that its reply will report, and the state after it. -/
def serializeTick (p : Packet) (s : State) : Answer × State :=
  match tickCheck p s with
  | .ok () => tickAccept p s
  | .error r => (r.answer, setGlove s p.ctx (fun x => { x with phase := { x.phase with
      refused := satAdd (2 ^ 32 - 1) x.phase.refused 1 } }))

def cmdPhaseTick : Cmd where
  op := 0x0C01
  body p s :=
    match p.tick with
    | some a => .ok (s, .answer a)
    | none =>
      let (a, s') := serializeTick p s
      .ok (s', .answer a)

/-- PHASE_TICK: the reply reports the check and the tick made at serialization (R62). -/
def execPhaseTick (p : Packet) (s : State) : Host.Outcome State Fault Refusal := runCmd cmdPhaseTick p s

/-! ### PHASE_SOURCE_SET (R55, R57) -/

def sourceTypeOf : Nat → SrcType
  | 0 => .none
  | 1 => .coordinator
  | _ => .calendar

/-- In stall fallback the command ends the fallback where it sets no stall limit or another type; otherwise the fallback
goes on, and the timing of L starts again (DESIGN CHOICE, notes/assumptions/123.md). -/
def cmdPhaseSourceSet : Cmd where
  op := 0x0C02
  names p _ := [.glove p.ctx]
  access p s := need (p.u8 0 != 1 || queueInRange s p.ctx (p.u16 4)) .accessViolation
  form p _ :=
    let t := p.u8 0
    formError p (p.len = 16) false
      [(0, t ≤ 2), (1, p.u8 1 == 0), (2, if t = 1 then p.u16 2 != 0 && p.u16 2 ≤ 0xFFFD else p.u16 2 == 0),
       (4, t == 1 || p.u16 4 == 0), (6, p.u16 6 == 0),
       (8, if t = 1 then p.u32 8 == 0 || (1000 ≤ p.u32 8 && p.u32 8 ≤ 3600000) else p.u32 8 == 0),
       (12, p.u32 12 == 0)]
  state p s := do
    let g := gloveOf s p.ctx
    let t := sourceTypeOf (p.u8 0)
    need ((t == g.phase.type && p.u16 2 == g.phase.source) ||
      !s.vintages.any (fun v => v.glove == p.ctx && isLiveVintage v)) .badState 1
    need (t != .calendar || s.cal.valid) .badState 2
    need (t != .calendar || g.phase.word.count ≤ s.cal.ms) .badState 3
    need (p.u32 8 == 0 || g.live) .badState 4
    need (t != .coordinator || ownQueue s p.ctx (p.u16 4) .command) .badState 5
  body p s :=
    let t := sourceTypeOf (p.u8 0)
    let s1 := setGlove s p.ctx (fun x => { x with phase := { x.phase with
      type := t, source := p.u16 2, queue := p.u16 4, limit := p.u32 8, sinceTick := 0
      fallback := x.phase.fallback && t == .coordinator && p.u32 8 != 0 } })
    let s2 := if t = .calendar then applyTick s1 p.ctx 0xFFFF s.cal.ms s.clock.cycle none else s1
    let w := (gloveOf s2 p.ctx).phase.word
    .ok (s2, okWith w.count (w.count / 2 ^ 32))

/-- PHASE_SOURCE_SET. -/
def execPhaseSourceSet (p : Packet) (s : State) : Host.Outcome State Fault Refusal := runCmd cmdPhaseSourceSet p s

/-! ### CAL_SET (R66) -/

def calendarGloves (s : State) : List Nat :=
  (List.range 16).filter (fun g => (gloveOf s g).phase.type == .calendar && (gloveOf s g).state != .wedged)

/-- One tick of every CALENDAR Glove to the calendar's count. -/
def tickCalendarGloves (s : State) (cycle : Nat) : State :=
  (calendarGloves s).foldl (fun s g =>
    if (gloveOf s g).phase.word.count < s.cal.ms then
      countTick (applyTick s g 0xFFFF s.cal.ms cycle none) g
    else s) s

def cmdCalSet : Cmd where
  op := 0x0C03
  sideband := true
  issuer := .vintner
  form p _ := formError p (p.len = 8) false [(0, p.num 6 2 == 0)]
  state p s := need (s.cal.ms ≤ p.u64 0 || (calendarGloves s).isEmpty) .badState
  body p s :=
    let old := s.cal.ms
    let s1 := { s with cal := { s.cal with ms := p.u64 0, valid := true } }
    .ok (tickCalendarGloves s1 s.clock.cycle, okWith old (old / 2 ^ 32))

/-- CAL_SET. -/
def execCalSet (p : Packet) (s : State) : Host.Outcome State Fault Refusal := runCmd cmdCalSet p s

/-! ### PHASE_QUERY -/

def cmdPhaseQuery : Cmd where
  op := 0x0C04
  sideband := true
  issuer := .any
  names p _ := if p.u8 0 < 16 then [.glove (p.u8 0)] else []
  access p _ := need (p.ctx == vintner || 16 ≤ p.u8 0 || p.u8 0 == p.ctx) .accessViolation
  form p _ := formError p (p.len = 8) false [(0, p.u8 0 ≤ 16), (1, p.num 1 7 == 0)]
  state p s := need (16 ≤ p.u8 0 || (gloveOf s (p.u8 0)).state != .wedged) .wedged
  body p s :=
    if p.u8 0 = 16 then
      .ok (s, okWith s.cal.ms (bitsAt s.cal.ms 32 16 + 2 ^ 16 * 0xFFFF) (2 ^ 32 - 1) 0xFFFF)
    else
      let ph := (gloveOf s (p.u8 0)).phase
      let next := (nextDue s (p.u8 0)).getD (2 ^ 48 - 1)
      .ok (s, okWith ph.word.count (bitsAt ph.word.count 32 16 + 2 ^ 16 * ph.word.src) next
        (bitsAt next 32 16 + 2 ^ 16 * sourceTypeCode ph.type + 2 ^ 18 * b2n ph.fallback))

/-- PHASE_QUERY. -/
def execPhaseQuery (p : Packet) (s : State) : Host.Outcome State Fault Refusal := runCmd cmdPhaseQuery p s

/-! ### The calendar millisecond and stall fallback (R55, R58, R59) -/

/-- CALENDAR_MS_TICK: the calendar counts, every CALENDAR Glove ticks with it, and the milliseconds that
elapse count toward the stall limit of every COORDINATOR Glove. A stopped calendar does not count (R68). -/
def execCalendarMsTick (cycle : Nat) (s : State) : Host.Outcome State Fault Refusal :=
  if s.cal.stopped then .next s else
  let s1 := { s with
    cal := { s.cal with ms := (s.cal.ms + 1) % 2 ^ 48, elapsed := s.cal.elapsed + 1 }
    clock := { s.clock with cycle := cycle }
    gloves := s.gloves.map (fun x =>
      if x.phase.type = .coordinator then
        { x with phase := { x.phase with sinceTick := x.phase.sinceTick + 1 } }
      else x) }
  .next (tickCalendarGloves s1 cycle)

/-- Fallback is suspended while a Vintage opened under EXACT is OPEN, SEALED, UNMASKING or READY (R58). -/
def fallbackSuspended (s : State) (g : Nat) : Bool :=
  s.vintages.any (fun v => v.glove == g && isLiveVintage v && !v.live)

/-- The STALL_FALLBACK event of a sequencer that enters fallback (R59). -/
def fallbackEvent (ph : Phase) : List Byte :=
  toLE 2 0x0C10 ++ toLE 2 0 ++ toLE 2 ph.source ++ toLE 2 ph.queue ++ toLE 4 ph.limit ++ zeros 4 ++
    phaseBytes ⟨0xFFFE, ph.word.count⟩ ++ phaseBytes ph.lastTick

/-- STALL_FALLBACK_ENTER: after L milliseconds without an accepted tick the sequencer enters fallback and
posts STALL_FALLBACK (R58, R59). From then on the phase word carries source ID 0xFFFE, and so does every stamp. Where no tick has been accepted yet, its last tick field is the calendar word of count 0
(DESIGN CHOICE, notes/assumptions/124.md). -/
def execStallFallbackEnter (glove : Nat) (s : State) : Host.Outcome State Fault Refusal :=
  let ph := (gloveOf s glove).phase
  if ph.type = .coordinator ∧ ph.limit ≠ 0 ∧ ph.limit ≤ ph.sinceTick ∧ ¬ ph.fallback ∧
      ¬ fallbackSuspended s glove then
    let s1 := setGlove s glove (fun x => { x with phase := { x.phase with
      fallback := true, word := ⟨0xFFFE, x.phase.word.count⟩ } })
    .next (postEvent s1 glove (fallbackEvent ph))
  else .next s

/-- STALL_FALLBACK_TICK: in fallback each calendar millisecond that elapses advances the count by one with
source ID 0xFFFE (R58). -/
def execStallFallbackTick (glove cycle : Nat) (s : State) : Host.Outcome State Fault Refusal :=
  let ph := (gloveOf s glove).phase
  if ph.fallback ∧ ¬ fallbackSuspended s glove then
    .next (countTick (applyTick { s with clock := { s.clock with cycle := cycle } } glove 0xFFFE
      (ph.word.count + 1) cycle none) glove)
  else .next s

end Sys2Proof.Machine
end

