-- ==== Sys2Proof/Machine/Service.lean ====
section
/-! DEFINITION. Work several chapters share: connections that close (R119), eviction of key slots (R415),
LPDDR accounting (R91, R92, R456), windows that end (R135), preemption (R42), Vats in service and restriping
(R453 to R457, R85), and the Vintage boundary (R65). -/

set_option autoImplicit false

namespace Sys2Proof.Machine

/-! ### Connections and key slots -/

/-- Move a connection to CLOSING, where no new work starts and what is outstanding is still sent (R119,
R506). One in ERROR stays there, but for the fence of a Glove reset, which takes every connection (R341). A CONNECTING
connection that is destroyed goes to CLOSING too, although R119's column does not list it (DESIGN CHOICE,
notes/assumptions/154.md). -/
def closeConn (s : State) (cid : Nat) : State :=
  let shut (c : Conn) : Conn :=
    if c.state = .error ∧ (gloveOf s c.owner).reset.isNone then c else { c with state := .closing }
  pump (setConn s cid shut) cid

/-- A CLOSE packet on a connection (R119). -/
def sendClose (s : State) (cid : Nat) : State :=
  match connOf s cid with
  | none => s
  | some c =>
    if c.state = .error then s
    else submit s cid { psn := 0, op := 0x0C, timerUs := c.minTimer,
                        pkt := { port := 0, conn := 0, incarnation := 0, first := true, last := true } }

/-- The traffic keys of a sealed connection's present indices stay; no other can be derived any more (R147, R415). -/
def keepTraffic (s : State) (c : Conn) : Conn :=
  let tx := c.sealTx / 2 ^ 32
  let rx := c.sealRx / 2 ^ 32
  { c with sealKeys := some [(0, tx, sealKey s c 0 tx), (1, rx, sealKey s c 1 rx)] }

/-- Evict a slot: the key is zeroed, and every connection sealed under it moves to CLOSING (R415). Answers
how many moved. -/
def evictSlot (s : State) (k : Nat) : State × Nat :=
  let moved := s.conns.filter (fun c => c.sealedC && c.keySlot == k && c.state != .closing && c.state != .error)
  let s1 := { s with
    keys := { s.keys with slots := s.keys.slots.filter (fun x => x.slot != k) }
    conns := mapIf (fun c => c.sealedC && c.keySlot == k && c.sealKeys.isNone) (keepTraffic s) s.conns }
  (moved.foldl (fun s c => closeConn s c.id) s1, moved.length)

/-- Put a key into an EMPTY slot, held as two shares with a drawn mask (R413). The command's draw holds a block for it
(R388; DEDUCED, notes/assumptions/144.md). -/
def loadSlot (s : State) (k : KeySlot) (key : List Byte) : State :=
  let (m, s1) := drawBytes s 32
  let k' := { k with share0 := xorBytes key m, share1 := m }
  { s1 with keys := { s1.keys with slots := s1.keys.slots ++ [k'] } }

/-- The re-mask round under way takes one block of the reserve: the next of its slots that still holds a key gets a fresh
mask (R413). -/
def remaskNext (s : State) : State :=
  match s.keys.remasking.filter (fun k => (keySlotOf s k).isSome) with
  | [] => { s with keys := { s.keys with remasking := [] } }
  | k :: rest =>
    let (m, s1) := drawBytes s 32
    setKeySlot { s1 with keys := { s1.keys with remasking := rest } } k (maskSlot m)

/-- The re-mask round waits for blocks. -/
def remaskWaits (s : State) : Bool := s.keys.remasking.any (fun k => (keySlotOf s k).isSome)

/-- A slot that a key is to be put into is EMPTY; a LOST one answers ST_ENTROPY_FAILED to every command that names it
(R412). -/
def emptySlot (s : State) (slot : Nat) (detail : Nat := 0) : Check :=
  match keySlotOf s slot with
  | none => .ok ()
  | some k => if k.state = .lost then fail .entropyFailed else fail .badState detail

/-- The key of a slot that serves new operations; an EMPTY slot is refused, and a LOST one answers
ST_ENTROPY_FAILED (R412). -/
def servingSlot (s : State) (slot : Nat) (detail : Nat := 0) : Except Refused KeySlot := do
  let k ← want (keySlotOf s slot) .badState detail
  need (k.state != .lost) .entropyFailed
  .ok k

/-! ### LPDDR (R91, R92, R456) -/

/-- Bytes rounded up to 2 MiB, in MiB. -/
def mib2 (bytes : Nat) : Nat := 2 * ceilDiv bytes (2 * 2 ^ 20)

/-- LPDDR that CASK_ALLOC and the other commands can reserve: the Glove's channels less the carry area. -/
def lpddrCap (s : State) (g : Nat) : Nat :=
  let cfg := (gloveOf s g).cfg
  popcount 96 cfg.channels * 16384 - mib2 (cfg.cellar * 1024)

/-- LPDDR of the record table in MiB: 8 bytes per record (R366). -/
def tableMib (log2S : Nat) : Nat := ceilDiv (8 * 2 ^ (log2S - 12)) (2 ^ 20)

/-- LPDDR in use: Casks, Vintages, evaluation keys, contexts kept in LPDDR and the record table of an
ESTABLISHED session. -/
def lpddrUsed (s : State) (g : Nat) : Nat :=
  let x := gloveOf s g
  sumOf (fun c => if c.glove = g then c.lpddr else 0) s.casks +
  sumOf (fun v => if v.glove = g then v.lpddr else 0) s.vintages +
  sumOf (fun k => sumOf (fun e => e.mib) k.keys + ((k.share.map (fun h => h.mib)).getD 0)) x.keySets +
  (if x.cfg.ctxHost then 0 else ceilDiv (s.conns.filter (fun c => c.owner == g)).length 1024) +
  (if x.session.state = .established then tableMib x.session.log2S else 0)

def lpddrFits (s : State) (g need : Nat) : Bool := lpddrUsed s g + need ≤ lpddrCap s g

/-! ### Windows that end (R135 to R137) -/

/-- Revoke a window: it is removed and its index takes the next generation, or retires. What its event queue is owed for
stale keys stays (R134). -/
def revokeWindow (s : State) (i : Nat) : State :=
  match windowOf s i with
  | none => s
  | some w => { s with
      windows := s.windows.filter (fun x => x.index != i)
      revokedWins := s.revokedWins.filter (fun x => x.index != i) ++ [w]
      gens := Sparse.set s.gens i (w.gen + 1) }

/-- Packets that passed the check of these keys before they ended are still to be placed: an ATOMIC is performed, and a
SEND written, only as it becomes visible (R125, R137). -/
def keysBusy (s : State) (keys : List Nat) : Bool :=
  let hit (w : Option Window) : Bool :=
    match w with
    | some w => keys.contains (windowKey w.index w.gen)
    | none => false
  s.conns.any (fun c => (c.req.flight ++ c.resp.flight).any (fun f =>
      (!f.complete || (f.verdict == .place && (f.op == 0x05 || f.op == 0x07))) && hit f.win) ||
    c.parked.any (fun p => hit p.win))

/-- Windows of a Vintage: on its bound Casks, and its export windows. -/
def vintageWindows (s : State) (g v : Nat) : List Window :=
  let ids := (casksBound s g v).map (fun c => c.id)
  s.windows.filter (fun w => w.owner == g && ((w.target == 0 && ids.contains w.object) || w.vintage == v))

/-! ### Preemption (R42) -/

/-- Whether an object belongs to a Glove. -/
def objGlove (s : State) (g : Nat) : Obj → Bool
  | .vintage h _ => h == g
  | .cask h _ => h == g
  | .glove h => h == g
  | .paramSet h _ => h == g
  | .keySet h _ => h == g
  | .lut h _ _ => h == g
  | .recipe h _ => h == g
  | .window i => windowInRange s g i
  | .key k => slotInRange s g k
  | .queue q => queueInRange s g q
  | .conn c => connInRange s g c

/-- The four checks of the integrity controller on a work descriptor (R47): its Glove, its addresses within the Glove's
Cellar fence and LPDDR channels, its Vat slot, and its class. -/
def descriptorPasses (s : State) (d : WorkDescriptor) : Bool :=
  let c := (gloveOf s d.glove).cfg
  d.glove == d.context &&
  d.granules.all (fun a => c.cellarBase ≤ a && a < c.cellarBase + c.cellar) && d.channels.all c.channels.testBit &&
  c.slots.testBit d.slot && Config.classPermitted d.cls (d.opcode / 256)

/-- The scratch Cask of a lattice opcode is zeroed at its end, however it ends (R260). -/
def zeroScratch (s : State) (g : Nat) (cask : Option Nat) : State :=
  match cask with
  | some c => setCask s g c (fun c => { c with data := [] })
  | none => s

/-- What a command leaves that ends before its commit: a VINTAGE_RELEASE its Vintage READY, a lattice opcode a zeroed
scratch Cask, a THR_PARTIAL no share that has been evicted (R272, R298, R300). -/
def abandon (s : State) (o : Outstanding) : State :=
  let s1 := if o.pkt.opcode = 0x0501 then setVintage s o.pkt.ctx o.pkt.vintage (fun v => { v with release := none }) else s
  let purge (k : KeySet) : KeySet := { k with share := k.share.map (fun h => if h.evicted then { h with half0 := [], half1 := [] } else h) }
  let s2 := if o.pkt.opcode = 0x0421 then setGlove s1 o.pkt.ctx (fun x => { x with keySets := x.keySets.map purge }) else s1
  zeroScratch s2 o.pkt.ctx o.scratch

/-- A waiting command that has not committed ends with a status. -/
def endWaiting (s : State) (o : Outstanding) (a : Answer) : State := reply (abandon s o) o.pkt a

/-- End every dispatched command of rank below `rank` that is not past its commit point and names an object
of the scope: ST_OVERRULED. Answers how many. -/
def preempt (s : State) (rank opcode : Nat) (inScope : Outstanding → Bool) : State × Nat :=
  let gone := s.outstanding.filter (fun o => !o.committed && o.rank < rank && inScope o)
  (gone.foldl (fun s o => endWaiting s o { status := .overruled, detail := opcode }) s, gone.length)

/-! ### Vats in service and restriping (R453 to R457) -/

/-- In service: not out, and neither scanning nor on probation (R453, R454). -/
def inServiceVats (s : State) : List Nat :=
  (List.range 8).filter (fun v =>
    let x := vatOf s v
    !x.out && x.state != .testing && x.state != .probation)

/-- Gloves that the integrity controller waits for (R454, R465). -/
def liveGlove (s : State) (g : Nat) : Bool :=
  let st := (gloveOf s g).state
  st != .free && st != .wedged

/-- The Glove has a Vintage in OPEN, SEALED, UNMASKING or READY. -/
def hasLiveVintage (s : State) (g : Nat) : Bool := s.vintages.any (fun v => v.glove == g && isLiveVintage v)

/-- Lay a Cask over a list of Vats. The fingerprints of an accumulate Cask of an OPEN Vintage must agree in
their sums over the stripes with those of the moved image; new values per stripe are taken from it (R457). -/
def relayout (s : State) (g cask : Nat) (vats : List Nat) : State :=
  match caskOf s g cask with
  | none => s
  | some c =>
    let c' := { c with vats := vats }
    let s := dropLines s (fun l => l.glove == g && l.cask == cask)
    match vintageOf s g c.vintage with
    | some v =>
      if c.role = 0 ∧ v.state ≠ .draft then
        let fresh := imagePrints v.printDraw c' c.data
        let total (m : Sparse) (f limb : Nat) : Nat :=
          sumOf (fun i => Sparse.get m (printKeyOf f i limb)) (List.range 8) % caskModulus c limb
        let agree := (List.range 4).all (fun f => (List.range c.limbs).all (fun l =>
          total fresh f l == total c.prints f l))
        let s1 := setCask s g cask (fun c => { c with vats := vats, prints := fresh })
        if v.state = .opened ∧ ¬ agree then startRollback s1 g cask (2 ^ vats.length - 1) vats false else s1
      else setCask s g cask (fun c => { c with vats := vats })
    | none => setCask s g cask (fun c => { c with vats := vats })

/-- The CASK_SPILLED event of a demotion (R85, R110). -/
def spillEvent (s : State) (c : Cask) : State :=
  let flags := ((vintageOf s c.glove c.vintage).map (vintageFlags s)).getD 0
  postEvent s c.glove (toLE 2 0x0112 ++ toLE 2 0 ++ toLE 4 c.vintage ++ toLE 2 c.id ++ toLE 1 flags ++ zeros 1 ++
    toLE 4 c.granules ++ phaseBytes (contextWord s c.glove) ++ zeros 8)

/-- A Glove restripes onto the Vats in service: FP32 and BF16 Casks stay resident first, then the others in
ascending Cask ID, while they fit the quota; the rest are demoted (R85, R457). A Cask that does not fit is passed over, and
smaller ones after it stay where they fit (DESIGN CHOICE, notes/assumptions/130.md). -/
def restripeGlove (s : State) (g : Nat) : State :=
  let vats := inServiceVats s
  let mine := sortBy (fun c => c.id) (s.casks.filter (fun c => c.glove == g))
  let resident := mine.filter (fun c => !c.spilled)
  let order := resident.filter (fun c => 4 ≤ c.ring) ++ resident.filter (fun c => c.ring < 4)
  let granules (c : Cask) := stripeGranules (caskCount c) (coordBytes c.ring) vats.length
  let fit := order.foldl (fun (acc : Nat × List Nat) c =>
    if acc.1 + granules c ≤ (gloveOf s g).cfg.cellar then (acc.1 + granules c, acc.2 ++ [c.id]) else acc) (0, [])
  let s1 := resident.foldl (fun s c =>
    if fit.2.contains c.id then setCask s g c.id (fun c => { c with granules := granules c })
    else spillEvent (setCask s g c.id (fun c => { c with spilled := true, granules := 0 })) c) s
  let s2 := mine.foldl (fun s c => relayout s g c.id vats) s1
  let s3 := { s2 with int := { s2.int with verifying := s2.int.verifying.filter (fun x => x.1 != g) } }
  setGlove s3 g (fun x => { x with vatList := vats, restripe := false, restriping := false, carried := false })

/-- After a restripe: carried stripes are freed once no Glove waited for carries any, and a JOINING Vat is
ACTIVE once every such Glove has restriped onto it (R454, R465). -/
def settleVats (s : State) : State :=
  let waited := (List.range 16).filter (liveGlove s)
  let s1 := if waited.any (fun g => (gloveOf s g).carried) then s
    else { s with int := { s.int with carrying := none } }
  (List.range 8).foldl (fun s v =>
    if (vatOf s v).state = .joining ∧ waited.all (fun g => (gloveOf s g).vatList.contains v) then
      changeVat s v 0xFF .active
    else s) s1

/-- The restripe of a Glove whose list has changed begins; RESTRIPE_DONE ends it (R457). -/
def beginRestripe (s : State) (g : Nat) : State :=
  setGlove s g (fun x => { x with restriping := x.restripe })

/-- Gloves whose list has changed and that hold no Vintage in OPEN to READY restripe at once (R457). -/
def restripeIdle (s : State) : State :=
  settleVats ((List.range 16).foldl (fun s g =>
    if liveGlove s g ∧ ¬ hasLiveVintage s g then beginRestripe s g else s) s)

/-- A threshold share after its eviction: both halves are zeroed (R293). -/
def evictShare (h : ThrShare) : ThrShare := { h with draining := false, evicted := true, half0 := [], half1 := [] }

/-- A THR_PARTIAL under way with the share of a key set: it finishes, whatever becomes of the key (R298). -/
def shareInUse (s : State) (g ks : Nat) : Bool :=
  s.outstanding.any (fun o => o.pkt.opcode == 0x0421 && o.names.contains (.keySet g ks))

/-- Evict the shares of a Glove that a test picks. The halves of one that a THR_PARTIAL under way uses go when that
command ends. -/
def evictShares (s : State) (g : Nat) (sel : ThrShare → Bool) : State :=
  let one (k : KeySet) : KeySet := { k with share := k.share.map (fun h =>
    if sel h then (if shareInUse s g k.id then { h with draining := false, evicted := true } else evictShare h) else h) }
  setGlove s g (fun x => { x with keySets := x.keySets.map one })

/-- A Vintage boundary of a Glove: DRAINING slots and shares are evicted and a changed Vat list takes effect
(R65, R293, R416, R457). -/
def boundary (s : State) (g : Nat) : State :=
  let draining := s.keys.slots.filter (fun k => k.owner == g && k.state == .draining)
  let s1 := evictShares (draining.foldl (fun s k => (evictSlot s k.slot).1) s) g (fun h => h.draining)
  beginRestripe s1 g

/-- A Cask is withheld: zeroed, barred, and CASK_LOST goes to the Glove (R468). -/
def withholdCask (s : State) (g cask : Nat) : State :=
  let s1 := setCask s g cask (fun c => { c with data := [], withheld := true })
  postEvent s1 g (toLE 2 0x0B11 ++ toLE 2 (statusWord .integrityFault) ++
    toLE 4 (((caskOf s g cask).map (fun c => c.vintage)).getD 0) ++ toLE 2 cask ++ zeros 22)

end Sys2Proof.Machine
end

