-- ==== Sys2Proof/Machine/Ledger.lean ====
section
/-! DEFINITION. Masks and the Seed Ledger: derivation and expansion (R192 to R195), the masking graph (R196 to
R199), key checks (R200), shares over GF(p) (R201 to R210) and the corrections of a Vintage (R191, R208 to
R214). -/

set_option autoImplicit false

namespace Sys2Proof.Machine

/-! ### Arithmetic in GF(p) (R201) -/

def gfP : Nat := Crypto.p25519
def gfAdd (a b : Nat) : Nat := (a + b) % gfP
def gfSub (a b : Nat) : Nat := (a + (gfP - b % gfP)) % gfP
def gfMul (a b : Nat) : Nat := a * b % gfP
def gfDiv (a b : Nat) : Nat := gfMul a (Crypto.inv25519 b)

/-- Value of a polynomial, constant term first. -/
def gfEval (poly : List Nat) (x : Nat) : Nat := poly.foldr (fun c acc => gfAdd c (gfMul x acc)) 0

/-- The value at `x` of the polynomial through points of distinct abscissae. -/
def gfInterpolate (points : List (Nat × Nat)) (x : Nat) : Nat :=
  points.foldl (fun acc p =>
    let num := points.foldl (fun n q => if q.1 = p.1 then n else gfMul n (gfSub x q.1)) 1
    let den := points.foldl (fun d q => if q.1 = p.1 then d else gfMul d (gfSub p.1 q.1)) 1
    gfAdd acc (gfMul p.2 (gfDiv num den))) 0

/-- One column of Gauss-Jordan elimination: rows done, rows left. -/
def gfColumn (col : Nat) (rows : List (List Nat) × List (List Nat)) : List (List Nat) × List (List Nat) :=
  match posOf (fun r => r.getD col 0 != 0) rows.2 with
  | none => rows
  | some i =>
    let pivot := rows.2.getD i []
    let inv := Crypto.inv25519 (pivot.getD col 0)
    let p := pivot.map (fun x => gfMul x inv)
    let clear (r : List Nat) : List Nat :=
      List.zipWith (fun a b => gfSub a (gfMul (r.getD col 0) b)) r p
    (rows.1.map clear ++ [p], ((rows.2.take i) ++ rows.2.drop (i + 1)).map clear)

/-- A solution of a linear system given by its augmented rows in `n` unknowns, free unknowns zero; none where
it has none. -/
def gfSolve (n : Nat) (rows : List (List Nat)) : Option (List Nat) :=
  let r := (List.range n).foldl (fun acc c => gfColumn c acc) ([], rows)
  if r.2.any (fun x => x.getD n 0 != 0) then none
  else some ((List.range n).map (fun c =>
    ((r.1.find? (fun row => (posOf (· != 0) row) == some c)).map (fun row => row.getD n 0)).getD 0))

/-- Quotient and remainder by a monic polynomial, both given highest term first. -/
def gfDivide : Nat → List Nat → List Nat → List Nat × List Nat
  | 0, num, _ => ([], num)
  | k + 1, num, den =>
    if num.length < den.length then ([], num)
    else
      let lead := num.headD 0
      let rest := (List.zipWith (fun a b => gfSub a (gfMul lead b)) num (den ++ List.replicate num.length 0)).drop 1
      let qr := gfDivide k rest den
      (lead :: qr.1, qr.2)

def gfPowers (x n : Nat) : List Nat := ((List.range n).foldl (fun (acc : List Nat × Nat) _ =>
  (acc.1 ++ [acc.2], gfMul acc.2 x)) ([], 1)).1

/-- Berlekamp-Welch decoding of degree below `t` with up to (k - t) / 2 errors (R209): the polynomial,
constant term first. -/
def gfDecode (points : List (Nat × Nat)) (t : Nat) : Option (List Nat) :=
  let k := points.length
  if k < t then none
  else
    let e := (k - t) / 2
    let rows := points.map (fun p =>
      gfPowers p.1 (t + e) ++ (gfPowers p.1 e).map (fun x => gfSub 0 (gfMul p.2 x)) ++
        [gfMul p.2 ((gfPowers p.1 (e + 1)).getD e 1)])
    match gfSolve (t + 2 * e) rows with
    | none => none
    | some sol =>
      let q := sol.take (t + e)
      let d := sol.drop (t + e) ++ [1]
      let qr := gfDivide (t + e + 1) q.reverse d.reverse
      let poly := qr.1.reverse
      if qr.2.all (· == 0) ∧ (points.filter (fun p => gfEval poly p.1 != p.2 % gfP)).length ≤ e
      then some poly else none

/-! ### The masking graph (R196 to R199) -/

/-- Offsets of the seeded graph, from the stream of 32-bit draws (R197). -/
def graphOffsets (h k : Nat) : List (List Byte) → List Nat → List Nat
  | [], acc => acc
  | w :: ws, acc =>
    if k ≤ acc.length then acc
    else
      let o := 1 + leNat w % h
      graphOffsets h k ws (if acc.contains o then acc else acc ++ [o])

/-- Read SHAKE256 blocks of 34 draws until there are `k` offsets, with fuel in blocks (R197). -/
def graphDraw (h k : Nat) : Nat → List (BitVec 64) → List Nat → List Nat
  | 0, _, acc => acc
  | fuel + 1, a, acc =>
    if k ≤ acc.length then acc
    else graphDraw h k fuel (Crypto.keccakF a) (graphOffsets h k (pieces 4 (Crypto.squeeze 136 1 a)) acc)

/-- One round function of the permutation of R197. -/
def graphF (pkey : List Byte) (half r x : Nat) : Nat :=
  leNat (Crypto.aesEnc pkey (toLE 1 r ++ toLE 4 x ++ zeros 11)) % 2 ^ half

def graphRounds (pkey : List Byte) (half x : Nat) : Nat :=
  let p := [0, 1, 2, 3].foldl (fun (s : Nat × Nat) r => (s.2, s.1 ^^^ graphF pkey half r s.2)) (x / 2 ^ half, x % 2 ^ half)
  p.1 * 2 ^ half + p.2

def graphRoundsInv (pkey : List Byte) (half x : Nat) : Nat :=
  let p := [3, 2, 1, 0].foldl (fun (s : Nat × Nat) r => (s.2 ^^^ graphF pkey half r s.1, s.1)) (x / 2 ^ half, x % 2 ^ half)
  p.1 * 2 ^ half + p.2

/-- Repeat a permutation until it falls below `n`, with fuel. -/
def graphWalk (f : Nat → Nat) (n : Nat) : Nat → Nat → Nat
  | 0, x => f x
  | fuel + 1, x => let y := f x; if y < n then y else graphWalk f n fuel y

/-- Neighbours of a client in the seeded graph. The offsets are read from at most 2^11 blocks, past which
the manual's loop has ended for every degree it admits with overwhelming probability. -/
def seededNeighbours (n d : Nat) (seed : List Byte) (u : Nat) : List Nat :=
  let h := (n - 1) / 2
  let start := Crypto.shakeState 136 (seed ++ ascii "LQ-GRAPH-V1" ++ toLE 4 n ++ toLE 1 d)
  let offsets := graphDraw h (d / 2) (2 ^ 11) start []
  let pkey := Crypto.shake256 (seed ++ ascii "LQ-GRAPH-PERM-V1") 32
  let half := ceilDiv (max 2 (clog2 n)) 2
  let fuel := 2 ^ (2 * half)
  let pos := graphWalk (graphRounds pkey half) n fuel u
  offsets.flatMap (fun o =>
    [graphWalk (graphRoundsInv pkey half) n fuel ((pos + o) % n),
     graphWalk (graphRoundsInv pkey half) n fuel ((pos + n - o) % n)])

/-- Neighbours of a client (R196). -/
def neighbours (v : Vintage) (u : Nat) : List Nat :=
  match v.masking with
  | none => []
  | some m =>
    if m.uploaded then ((m.graph.find? (fun x => x.1 == u)).map Prod.snd).getD []
    else seededNeighbours v.clients m.degree m.seed u

/-! ### Keys and expansion (R192 to R195, R200) -/

/-- A public key that R200 refuses: at or above p, or of small order. Every clamped scalar is a multiple of
the cofactor, so one scalar shows a small order. -/
def badPublicKey (pk : List Byte) : Bool :=
  gfP ≤ leNat pk || Crypto.x25519 (zeros 32) pk == zeros 32

/-- Pair seed of two clients from their shared X25519 output (R192). -/
def pairSeed (salt z : List Byte) (u v vintage : Nat) : List Byte :=
  Crypto.hkdf salt z (ascii "LQ-PAIR-V1" ++ toLE 4 (min u v) ++ toLE 4 (max u v) ++ toLE 4 vintage) 32

/-- Expansion key of a seed for a Cask ID (R193). -/
def expandKey (salt seed : List Byte) (cask : Nat) : List Byte :=
  Crypto.hkdf salt seed (ascii "LQ-EXPAND-V1" ++ toLE 2 cask) 32

/-- The mask of the coordinate at a global index (R194). -/
def maskValue (key : List Byte) (ring modulus i : Nat) : Nat :=
  let block (j : Nat) := leNat (Crypto.aesEnc key (toLE 16 j))
  if ring < 3 then
    let w := coordBytes ring
    bitsAt (block (w * i / 16)) (8 * (w * i % 16)) (8 * w)
  else block i % 2 ^ (clog2 modulus + 64) % modulus

/-- Add or subtract an expansion in every coordinate of a Cask, counted from a shard base. -/
def expandInto (c : Cask) (minus : Bool) (salt seed : List Byte) (cask base : Nat) : Cask :=
  let key := expandKey salt seed cask
  (List.range c.n).foldl (fun c' i => adjustCoord c' minus i (maskValue key c.ring (caskModulus c 0) (base + i))) c

/-- Commitment to a self-mask seed (R200). -/
def commitment (salt : List Byte) (u : Nat) (b : List Byte) : List Byte :=
  Crypto.sha256 (salt ++ ascii "LQ-COMMIT-V1" ++ toLE 4 u ++ b)

/-! ### Secrets of the ledger (R204 to R210) -/

def publicKeyOf (m : Masking) (u : Nat) : List Byte :=
  ((m.registry.find? (fun x => x.1 == u)).map (fun x => x.2.1)).getD (zeros 32)

/-- The share kind that the Once rule allows: 1 SELF for survivors, 2 SECRET for dropped clients (R204). -/
def allowedKind (v : Vintage) (u : Nat) : Nat := if v.survivors.contains u then 1 else 2

/-- The secret of a client is needed: a survivor's seed, and the key of a dropped client with a surviving
neighbour (R191). -/
def secretNeeded (v : Vintage) (u : Nat) : Bool :=
  v.masking.isSome && (v.survivors.contains u || (neighbours v u).any v.survivors.contains)

/-- Clients whose secret is needed. -/
def neededOwners (v : Vintage) : List Nat := (List.range v.clients).filter (secretNeeded v)

def secretOf (v : Vintage) (u kind : Nat) : Option Secret :=
  v.secrets.find? (fun x => x.owner == u && x.kind == kind)

/-- Usable shares of a secret, in the order they were stored (R208). -/
def usableShares (v : Vintage) (u kind : Nat) : List Share :=
  v.shares.filter (fun x => x.owner == u && x.kind == kind && !x.discarded)

def sharePoints (l : List Share) : List (Nat × Nat) := l.map (fun x => (x.holder + 1, x.value))

/-- A secret that can be checked (R208). -/
def secretVerifiable (m : Masking) (kind : Nat) : Bool := kind == 2 || m.commit

/-- A rebuilt secret passes its check, where one applies (R208). -/
def secretPasses (m : Masking) (u kind value : Nat) : Bool :=
  if kind = 2 then Crypto.x25519Base (toLE 32 value) == publicKeyOf m u
  else !m.commit || commitment m.salt u (toLE 32 value) ==
    ((m.registry.find? (fun x => x.1 == u)).map (fun x => x.2.2)).getD (zeros 32)

/-- Store one accepted share: the t-th usable share rebuilds a needed secret, a later one that does not fit
marks it SUSPECT. No secret is final before share close (R208, R209). Answers whether a secret was rebuilt. -/
def storeShare (v : Vintage) (owner holder kind value : Nat) : Vintage × Bool :=
  let share : Share := { owner := owner, holder := holder, kind := kind, value := value }
  let v1 := { v with shares := v.shares ++ [share] }
  match v.masking with
  | none => (v1, false)
  | some m =>
    if ¬ secretNeeded v owner then (v1, false)
    else
      let first := sharePoints ((usableShares v1 owner kind).take m.threshold)
      match secretOf v owner kind with
      | none =>
        if first.length < m.threshold then (v1, false)
        else
          let value := gfInterpolate first 0
          let sec : Secret := { owner := owner, kind := kind, value := value, suspect := !secretPasses m owner kind value }
          ({ v1 with secrets := v1.secrets ++ [sec] }, true)
      | some _ =>
        if gfInterpolate first (holder + 1) = value then (v1, false)
        else
          let l := mapIf (fun x => x.owner == owner && x.kind == kind) (fun x => { x with suspect := true }) v1.secrets
          ({ v1 with secrets := l }, false)

/-- The decoding of one SUSPECT secret at share close (R209). -/
def decodeSecret (v : Vintage) (m : Masking) (sec : Secret) : Vintage :=
  let usable := usableShares v sec.owner sec.kind
  let points := sortBy Prod.fst (sharePoints usable)
  let mine (x : Share) := x.owner == sec.owner && x.kind == sec.kind
  let upd (f : Secret → Secret) (bad : Share → Bool) : Vintage := { v with
    secrets := mapIf (fun x => x.owner == sec.owner && x.kind == sec.kind) f v.secrets
    shares := mapIf (fun x => mine x && bad x) (fun x => { x with discarded := true }) v.shares }
  match gfDecode points m.threshold with
  | some poly =>
    let value := gfEval poly 0
    if secretPasses m sec.owner sec.kind value then
      upd (fun x => { x with value := value, suspect := false })
        (fun x => gfEval poly (x.holder + 1) != x.value)
    else upd id (fun _ => true)
  | none => upd id (fun _ => true)

/-! ### Corrections (R191, R208, R210) -/

/-- Apply or reverse the expansions of a secret in one Cask (R191). -/
def applySecret (v : Vintage) (m : Masking) (owner kind value : Nat) (reverse : Bool) (c : Cask) : Cask :=
  if kind = 1 then expandInto c (!reverse) m.salt (toLE 32 value) c.id c.shardBase
  else
    (neighbours v owner).foldl (fun c u =>
      if v.survivors.contains u then
        let z := Crypto.x25519 (toLE 32 value) (publicKeyOf m u)
        let s := pairSeed m.salt z u owner v.id
        expandInto c (if u < owner then !reverse else reverse) m.salt s c.id c.shardBase
      else c) c

/-- The value that should stand applied: the rebuilt one, unless the secret is SUSPECT (R208, R210). -/
def secretTarget (x : Secret) : Option Nat := if x.suspect then x.applied else some x.value

/-- Every correction that may start runs now: the Press takes no time in this model (DESIGN CHOICE,
notes/assumptions/20.md). No work runs before every accumulate Cask has its unmask base, nor in a Vintage
below its cohort floor (R15, R106, R211). -/
def runCorrections (s : State) (g vid : Nat) : State :=
  match vintageOf s g vid with
  | none => s
  | some v =>
    match v.masking with
    | none => s
    | some m =>
      let casks := accumulateCasks s g vid
      if v.belowCohort ∨ ¬ v.survivorsFixed ∨ ¬ (v.state = .sealedV ∨ v.state = .unmasking) ∨
          ¬ casks.all (fun c => c.baseReady) then s
      else
        let todo := v.secrets.filter (fun x => secretTarget x != x.applied)
        let work (c : Cask) : Cask := todo.foldl (fun c x =>
          let c1 := match x.applied with
            | some old => applySecret v m x.owner x.kind old true c
            | none => c
          applySecret v m x.owner x.kind x.value false c1) c
        let s1 := casks.foldl (fun s c => setCask s g c.id work) s
        setVintage s1 g vid (fun v =>
          let l := mapIf (fun x => secretTarget x != x.applied) (fun x => { x with applied := some x.value }) v.secrets
          { v with secrets := l })

/-! ### Restoring a stripe (R212, R450, R455) -/

/-- The stripes of a Cask at the given indices return to the unmask base, and every correction that the ledger records as
applied is run on them again. -/
def redoStripes (s : State) (g cask : Nat) (stripes : List Nat) : State :=
  match caskOf s g cask with
  | none => s
  | some c =>
    match vintageOf s g c.vintage, c.verified with
    | some v, some cp =>
      match v.masking with
      | none => s
      | some m =>
        let again (k : Cask) : Cask := v.secrets.foldl (fun k x =>
          match x.applied with
          | some value => applySecret v m x.owner x.kind value false k
          | none => k) k
        let fresh := again { c with data := cp.image }
        let put (k : Cask) : Cask := (List.range (caskCount c)).foldl (fun k i =>
          if stripes.contains (stripeOf c i) then setCoord k i (coord fresh i) else k) k
        if c.baseReady ∧ ¬ stripes.isEmpty then
          setCask s g cask (fun k => { put k with redo := k.redo.filter (fun i => !stripes.contains i) })
        else s
    | _, _ => s

/-! ### Pending work and share close (R209, R210, R213, R220) -/

/-- Clients whose removal is pending: dropped, or RETRACTING, and not yet removed from every accumulate Cask
(R105, R173, R236). -/
def pendingRemovals (s : State) (v : Vintage) : List Nat :=
  let casks := accumulateCasks s v.glove v.id
  let touched := dedup (casks.flatMap (fun c => c.tallies.map (fun t => t.client)))
  touched.filter (fun u => !v.survivors.contains u && casks.any (fun c =>
    (tallyOf c.tallies u).placed != 0 || !(clientDigest c.digests u).isEmpty))

/-- A secret's correction has been applied in every stripe of every accumulate Cask: no stripe waits to have it run again
(R212, R213). -/
def appliedEverywhere (s : State) (v : Vintage) (x : Secret) : Bool :=
  x.applied == some x.value && (accumulateCasks s v.glove v.id).all (fun c => c.redo.isEmpty)

/-- Needed secrets whose correction is not complete. -/
def pendingSecrets (s : State) (v : Vintage) : Nat :=
  ((neededOwners v).filter (fun u =>
    !((secretOf v u (allowedKind v u)).map (fun x => x.final && appliedEverywhere s v x)).getD false)).length

/-- The ledger of an UNMASKING Vintage closes once every share stamped at or below S has been judged: SUSPECT
secrets are decoded, every other secret is final as first rebuilt, SHORT_SHARES is set, LEDGER_CLOSED is posted (R63, R209,
R210, R220). `extra` is the order of the SHARE_SUBMIT that is running. After SHARD_MISMATCH no survivor set is fixed: no
secret is needed, and shares that wait for the exchange are not waited for (DESIGN CHOICE, notes/assumptions/136.md). -/
def closeLedger (s : State) (g vid : Nat) (extra : Nat) : State :=
  match vintageOf s g vid with
  | none => s
  | some v =>
    if v.state ≠ .unmasking ∨ v.ledgerClosed ∨ ¬ (v.survivorsFixed ∨ v.shardMismatch) then s
    else match v.masking with
      | none => setVintage s g vid (fun v => { v with ledgerClosed := true })
      | some m =>
        let judged := s.outstanding.filter (fun o => v.survivorsFixed || o.wait != .exchange g vid)
        let waiting := (s.staged ++ judged.map (fun o => o.pkt)).filter (fun p =>
          p.opcode == 0x0210 && p.ctx == g && p.vintage == vid && p.stamp.count ≤ v.s && p.order != extra)
        if ¬ waiting.isEmpty then s
        else
          let owners := if v.survivorsFixed then neededOwners v else []
          let v0 := (v.secrets.filter (fun x => x.suspect)).foldl (fun v x => decodeSecret v m x) v
          let v1 := { v0 with secrets := v0.secrets.map (fun x => { x with final := !x.suspect }) }
          let short := (owners.filter (fun u =>
            (usableShares v1 u (allowedKind v1 u)).length < m.threshold)).length
          let final := (owners.filter (fun u =>
            m.threshold ≤ (usableShares v1 u (allowedKind v1 u)).length &&
              ((secretOf v1 u (allowedKind v1 u)).map (fun x => x.final)).getD false)).length
          let v2 := { v1 with ledgerClosed := true, shortShares := v1.shortShares || short != 0 }
          let s1 := setVintage s g vid (fun _ => v2)
          let s2 := postEvent s1 g (toLE 2 0x0210 ++ toLE 2 (if v2.belowCohort then statusWord .belowCohort else 0) ++
            toLE 4 vid ++ toLE 4 owners.length ++ toLE 4 final ++ phaseBytes v2.sharePhase ++ toLE 4 short ++
            toLE 2 (b2n v2.shortShares + 2 * b2n v2.belowCohort) ++ zeros 2)
          runCorrections s2 g vid

/-- Every ledger whose last share has been judged, refused, flushed or overruled closes (R220). -/
def settleLedgers (s : State) : State :=
  s.vintages.foldl (fun s v => closeLedger s v.glove v.id (2 ^ 64)) s

end Sys2Proof.Machine
end

