-- ==== Sys2Proof/Machine/Shares.lean ====
section
/-! DEFINITION. Share submission and the ledger query: SHARE_SUBMIT and LEDGER_QUERY (R202 to R207, chapter 7). -/

set_option autoImplicit false

namespace Sys2Proof.Machine

/-- A MASKER Glove issues no opcode of 0x02xx but its own three (R217). -/
def notMasker (p : Packet) (s : State) : Check := need (!(p.ctx < 16 && (gloveOf s p.ctx).cfg.masker)) .accessViolation

/-! ### The check of R205 -/

/-- What one share record comes to: a new share, a repeat, or a refusal with the offset of the field in error
within the record. -/
inductive ShareVerdict where
  | fresh (value : Nat)
  | repeat_
  | refused (st : Status) (off : Option Nat)
deriving DecidableEq, Repr

/-- The key of a holder's sealed records (R203). -/
def shareKey (m : Masking) (holder : Nat) : List Byte :=
  Crypto.hkdf m.salt (Crypto.x25519 m.engineKey (publicKeyOf m holder)) (ascii "LQ-SHARE-ENG-V1") 32

/-- The share value of a record, opened where shares are sealed (R203). -/
def shareValue (m : Masking) (vintage : Nat) (r : List Byte) : Option Nat :=
  if m.sealedShares then
    let iv := slice r 0 9 ++ zeros 3
    (Crypto.gcmOpen (shareKey m (field r 4 4)) iv (r.take 16 ++ toLE 4 vintage) (r.drop 16)).map leNat
  else some (field r 16 32)

/-- check(rec, stamp) of R205. A record of the same batch counts as stored for those after it (`batch`). -/
def checkShare (v : Vintage) (m : Masking) (batch : List Share) (r : List Byte) (stamp : Nat) : ShareVerdict :=
  let owner := field r 0 4
  let holder := field r 4 4
  let kind := field r 8 1
  if v.state = .draft ∨ v.state = .opened ∨ stamp ≤ v.c then .refused .badState none
  else if ¬ (v.state = .sealedV ∨ (v.state = .unmasking ∧ ¬ v.ledgerClosed)) ∨ v.s < stamp then .refused .badState none
  else if v.belowCohort then .refused .belowCohort none
  else if v.clients ≤ owner then .refused .badParam (some 0)
  else if v.clients ≤ holder then .refused .badParam (some 4)
  else if kind ≠ 1 ∧ kind ≠ 2 then .refused .badParam (some 8)
  else if ¬ allZero (slice r 9 7) then .refused .badParam (some 9)
  else if ¬ m.sealedShares ∧ ¬ allZero (slice r 48 16) then .refused .badParam (some 48)
  else if ¬ (neighbours v owner).contains holder then .refused .badParam (some 4)
  else if kind ≠ allowedKind v owner then .refused .onceRule none
  else match shareValue m v.id r with
    | none => .refused .shareAuth none
    | some value =>
      if gfP ≤ value then .refused .badParam (some 16)
      else match (v.shares ++ batch).find? (fun x => x.owner == owner && x.holder == holder && x.kind == kind) with
        | some x => if x.value = value then .repeat_ else .refused .shareConflict none
        | none => .fresh value

/-- The verdicts of a batch, record by record. -/
def checkBatch (v : Vintage) (m : Masking) (stamp : Nat) : List (List Byte) → List Share → List (List Byte × ShareVerdict)
  | [], _ => []
  | r :: rs, batch =>
    let x := checkShare v m batch r stamp
    let batch' := match x with
      | .fresh value => batch ++ [{ owner := field r 0 4, holder := field r 4 4, kind := field r 8 1, value := value }]
      | _ => batch
    (r, x) :: checkBatch v m stamp rs batch'

/-- Judge a batch as one unit. The Once-rule refusals are counted whatever becomes of the batch; any refused
record keeps every record out (R204, R205). -/
def judgeShares (p : Packet) (s : State) (v : Vintage) (m : Masking) (records : List (List Byte)) :
    State × Answer :=
  let xs := checkBatch v m p.stamp.count records []
  let once := xs.filter (fun x => x.2 == .refused .onceRule none)
  let counted := once.foldl (fun l x => Sparse.set l (field x.1 0 4) (Sparse.get l (field x.1 0 4) + 1)) v.once
  let first := posOf (fun (x : List Byte × ShareVerdict) => match x.2 with | .refused _ _ => true | _ => false) xs
  let found : Option (Nat × ShareVerdict) := first.bind (fun i => (xs[i]?).map (fun x => (i, x.2)))
  match found with
  | some (i, .refused st off) =>
    let detail := match off with
      | some o => if p.u8 0 = 0 then 80 + 64 * i + o else 68
      | none => 0
    (setVintage s v.glove v.id (fun v => { v with once := counted }),
     { status := st, detail := detail, r1 := if st = .onceRule then once.length else 0, r3 := i })
  | _ =>
    let step (acc : Vintage × Nat) (x : List Byte × ShareVerdict) : Vintage × Nat :=
      match x.2 with
      | .fresh value =>
        let (v', built) := storeShare acc.1 (field x.1 0 4) (field x.1 4 4) (field x.1 8 1) value
        (v', acc.2 + b2n built)
      | _ => acc
    let done := xs.foldl step ({ v with once := counted }, 0)
    let repeats := (xs.filter (fun x => x.2 == .repeat_)).length
    let s1 := runCorrections (setVintage s v.glove v.id (fun _ => done.1)) v.glove v.id
    (s1, { status := .ok, r0 := xs.length - repeats, r1 := repeats, r2 := done.2 })

/-! ### SHARE_SUBMIT (R205, R206) -/

/-- The work of a SHARE_SUBMIT: a share serialized before the survivor exchange has completed stays staged
until it completes (R206). -/
def submitShares (p : Packet) (s : State) : Except Refused (State × Done) := do
  let v ← want (vintageOf s p.ctx p.vintage) .badState
  let m ← want v.masking .badState
  let n := p.u16 2
  let (bytes, s1) ← if p.u8 0 = 0 then .ok (p.bytes 16 (64 * n), s)
    else readWindow s p.ctx (p.u32 4) (p.u64 8) (64 * n)
  if 1 < v.shardCount ∧ ¬ v.survivorsFixed ∧ ¬ (v.state = .draft ∨ v.state = .opened) ∧ v.c < p.stamp.count ∧
      p.stamp.count ≤ v.s then
    .ok (s1, .waits (.exchange p.ctx p.vintage))
  else
    let (s2, a) := judgeShares p s1 v m (pieces 64 bytes)
    .ok (closeLedger s2 p.ctx p.vintage p.order, .answer a)

def cmdShareSubmit : Cmd where
  op := 0x0210
  names p _ := [.vintage p.ctx p.vintage] ++ (if p.u8 0 = 1 then [.window (p.u32 4 / 256)] else [])
  access p s := do
    notMasker p s
    windowCheck s p.ctx (p.u32 4) rightRead (p.u64 8) (64 * p.u16 2) (p.u8 0 == 1 && p.len == 16)
  form p _ :=
    let n := p.u16 2
    let inline_ := p.u8 0 == 0
    formError p (p.len == (if inline_ then 16 + 64 * n else 16)) true
      [(0, p.u8 0 ≤ 1), (1, p.u8 1 == 0), (2, 1 ≤ n && (!inline_ || n ≤ 62)), (4, !inline_ || p.u32 4 == 0),
       (8, !inline_ || p.u64 8 == 0)]
  state p s := do
    let v ← want (vintageOf s p.ctx p.vintage) .badState
    need v.masking.isSome .badState
  body := submitShares

/-- SHARE_SUBMIT. -/
def execShareSubmit (p : Packet) (s : State) : Host.Outcome State Fault Refusal := runCmd cmdShareSubmit p s

/-- The shares that waited for a survivor exchange are judged, in the order of their serialization (R98,
R206). -/
def releaseShares (s : State) (g vid : Nat) : State :=
  let waiting := sortBy (fun o => o.pkt.order) (s.outstanding.filter (fun o => o.wait == .exchange g vid))
  waiting.foldl (fun s o => runBody cmdShareSubmit o.pkt s) s

/-! ### LEDGER_QUERY -/

def cmdLedgerQuery : Cmd where
  op := 0x0211
  names p _ := [.vintage p.ctx p.vintage]
  access p s := notMasker p s
  form p s := formError p (p.len = 8) true
    [(0, p.u32 0 == 0xFFFFFFFF || (p.u32 0 < 2 ^ 22 &&
        ((vintageOf s p.ctx p.vintage).map (fun v => decide (p.u32 0 < v.clients))).getD true)),
     (4, p.u32 4 == 0)]
  state p s := do
    let v ← want (vintageOf s p.ctx p.vintage) .badState
    need (!terminalState v.state && !v.encrypted && v.masking.isSome) .badState
  body p s := do
    let v ← want (vintageOf s p.ctx p.vintage) .badState
    let m ← want v.masking .badState
    let sealedNow := v.survivorsFixed && v.state != .draft && v.state != .opened
    if p.u32 0 = 0xFFFFFFFF then
      let owners := if sealedNow then neededOwners v else []
      let final := owners.filter (fun u => ((secretOf v u (allowedKind v u)).map (fun x => x.final)).getD false)
      .ok (s, okWith (v.shares.filter (fun x => !x.discarded)).length (sumOf Prod.snd v.once) final.length owners.length)
    else
      let u := p.u32 0
      let kind := allowedKind v u
      let status := if ¬ sealedNow then 0 else kind
      let mine := v.shares.filter (fun x => x.owner == u)
      let bits := match secretOf v u kind with
        | some x => 8 + 32 * b2n x.suspect + 64 * b2n x.final + 128 * b2n (appliedEverywhere s v x)
        | none => 0
      .ok (s, okWith (status + 4 * b2n (sealedNow && secretNeeded v u) + 16 * b2n (sealedNow && secretVerifiable m kind) + bits)
        (mine.filter (fun x => !x.discarded)).length (mine.filter (fun x => x.discarded)).length (Sparse.get v.once u))

/-- LEDGER_QUERY. -/
def execLedgerQuery (p : Packet) (s : State) : Host.Outcome State Fault Refusal := runCmd cmdLedgerQuery p s

end Sys2Proof.Machine
end

