-- ==== Sys2Proof/Machine/Masks.lean ====
section
/-! DEFINITION. Masking set-up (MASK_SETUP, GRAPH_LOAD, PUBKEY_LOAD) and the MASKER role (MASK_KEYGEN,
MASK_APPLY, SHARE_SPLIT) of chapter 7 (R192 to R203, R216 to R219). -/

set_option autoImplicit false

namespace Sys2Proof.Machine

/-! ### MASK_SETUP (R197, R203, R216) -/

/-- LPDDR that MASK_SETUP reserves, in MiB (R216). -/
def maskLpddr (n d : Nat) (sealedShares : Bool) : Nat :=
  mib2 (n * d * 4) + mib2 (n * (64 + 36 * d)) + (if sealedShares then mib2 (n * 32) else 0)

def setupSealed (p : Packet) : Bool := (p.u8 3).testBit 1

/-- LPDDR for what MASK_SETUP sets up (R92). -/
def setupRoom (p : Packet) (s : State) : Check := do
  let v ← want (vintageOf s p.ctx p.vintage) .badState
  need (lpddrFits s p.ctx (maskLpddr v.clients (p.u8 1) (setupSealed p))) .noResource

def cmdMaskSetup : Cmd where
  op := 0x0201
  names p _ := [.vintage p.ctx p.vintage] ++ (if setupSealed p then [.window (p.u32 4 / 256)] else [])
  access p s := do
    notMasker p s
    windowCheck s p.ctx (p.u32 4) rightWrite (p.u64 8) 32 (p.len == 80 && setupSealed p)
  form p s :=
    let d := p.u8 1
    let t := p.u8 2
    let n := (vintageOf s p.ctx p.vintage).map (fun v => v.clients)
    formError p (p.len = 80) true
      [(0, p.u8 0 ≤ 1),
       (1, 2 ≤ d && (p.u8 0 == 1 || (d % 2 == 0 && (n.map (fun n => decide (d / 2 ≤ (n - 1) / 2))).getD true))),
       (2, 2 ≤ t && ceilDiv d 2 ≤ t && t ≤ d), (3, p.u8 3 < 4), (4, setupSealed p || p.u32 4 == 0),
       (48, p.u8 0 == 0 || p.num 48 32 == 0)]
  state p s := do
    let v ← want (vintageOf s p.ctx p.vintage) .badState
    need (v.state == .draft && !v.encrypted && v.masking.isNone) .badState
  draw p _ := if setupSealed p then some (1, 1) else none
  ready := setupRoom
  body p s := do
    setupRoom p s
    let v ← want (vintageOf s p.ctx p.vintage) .badState
    let mib := maskLpddr v.clients (p.u8 1) (setupSealed p)
    let (key, s1) := if setupSealed p then drawBytes s 32 else ([], s)
    let m : Masking := {
      uploaded := p.u8 0 == 1, degree := p.u8 1, threshold := p.u8 2, commit := (p.u8 3).testBit 0
      sealedShares := setupSealed p, salt := p.bytes 16 32, seed := p.bytes 48 32, engineKey := key }
    let s2 := setVintage s1 p.ctx p.vintage (fun v => { v with masking := some m, lpddr := v.lpddr + mib })
    let done := okWith mib (if p.u8 0 = 0 then v.clients * p.u8 1 else 0)
    if setupSealed p then
      let s3 ← writeWindow s2 p.ctx (p.u32 4) (p.u64 8) (Crypto.x25519Base key)
      .ok (s3, done)
    else .ok (s2, done)

/-- MASK_SETUP. -/
def execMaskSetup (p : Packet) (s : State) : Host.Outcome State Fault Refusal := runCmd cmdMaskSetup p s

/-! ### GRAPH_LOAD (R198, R199) -/

/-- The masking configuration of a Vintage in DRAFT. -/
def draftMasking (s : State) (g vid : Nat) : Except Refused (Vintage × Masking) := do
  let v ← want ((vintageOf s g vid).filter (fun v => v.state == .draft)) .badState
  let m ← want v.masking .badState
  .ok (v, m)

/-- A setting of the Vintage's masking, for the checks made before its state is (0 where it has none). -/
def maskingNat (s : State) (p : Packet) (f : Masking → Nat) : Nat :=
  (((vintageOf s p.ctx p.vintage).bind (fun v => v.masking)).map f).getD 0

/-- The neighbours a record lists. -/
def graphEntries (r : List Byte) : List Nat := ((pieces 4 r).map leNat).filter (· != 0xFFFFFFFF)

/-- R198 refuses the record of a client. -/
def badGraphRecord (v : Vintage) (m : Masking) (u : Nat) (r : List Byte) : Bool :=
  let e := graphEntries r
  e.any (fun x => v.clients ≤ x || x == u) || (dedup e).length != e.length || e.length < m.threshold

/-- Clients whose records the symmetry check clears (R199). -/
def asymmetric (graph : List (Nat × List Nat)) : List Nat :=
  let has (u v : Nat) : Bool := ((graph.find? (fun x => x.1 == u)).map (fun x => x.2.contains v)).getD false
  dedup (graph.flatMap (fun x => (x.2.filter (fun v => !has v x.1)).flatMap (fun v => [x.1, v])))

/-- GRAPH_LOAD. A load into a graph whose records are all loaded is checked for symmetry again (R199 speaks of the load that
fills the last record; DESIGN CHOICE, notes/assumptions/160.md). -/
def cmdGraphLoad : Cmd where
  op := 0x0202
  names p _ := [.vintage p.ctx p.vintage, .window (p.u32 8 / 256)]
  access p s := do
    notMasker p s
    windowCheck s p.ctx (p.u32 8) rightRead (p.u64 16) (p.u32 4 * maskingNat s p (fun m => 4 * m.degree)) (p.len == 24)
  form p s := formError p (p.len = 24) true
    [(4, 1 ≤ p.u32 4 && ((vintageOf s p.ctx p.vintage).map (fun v => decide (p.u32 0 + p.u32 4 ≤ v.clients))).getD true),
     (12, p.u32 12 == 0)]
  state p s := do
    let (_, m) ← draftMasking s p.ctx p.vintage
    need m.uploaded .badState
  body p s := do
    let (v, m) ← draftMasking s p.ctx p.vintage
    let (bytes, s1) ← readWindow s p.ctx (p.u32 8) (p.u64 16) (p.u32 4 * 4 * m.degree)
    let records := List.zip ((List.range (p.u32 4)).map (· + p.u32 0)) (pieces (4 * m.degree) bytes)
    match records.find? (fun x => badGraphRecord v m x.1 x.2) with
    | some x => failWith { status := .badParam, detail := 72, r0 := x.1 }
    | none =>
      let graph := records.foldl (fun l x => insertBy Prod.fst (x.1, graphEntries x.2) (l.filter (fun y => y.1 != x.1))) m.graph
      let full := graph.length == v.clients
      let bad := if full then asymmetric graph else []
      let graph' := graph.filter (fun x => !bad.contains x.1)
      let complete := full && bad.isEmpty
      let s2 := setVintage s1 p.ctx p.vintage (fun v => { v with
        masking := some { m with graph := graph', graphComplete := complete } })
      .ok (s2, okWith (p.u32 4) bad.length (b2n complete))

/-- GRAPH_LOAD. -/
def execGraphLoad (p : Packet) (s : State) : Host.Outcome State Fault Refusal := runCmd cmdGraphLoad p s

/-! ### PUBKEY_LOAD (R200) -/

def pubkeyEntry (p : Packet) : Nat := if p.u8 12 = 0 then 32 else 64

def cmdPubkeyLoad : Cmd where
  op := 0x0203
  names p _ := [.vintage p.ctx p.vintage, .window (p.u32 8 / 256)]
  access p s := do
    notMasker p s
    windowCheck s p.ctx (p.u32 8) rightRead (p.u64 16) (p.u32 4 * pubkeyEntry p) (p.len == 24)
  form p s :=
    let m := (vintageOf s p.ctx p.vintage).bind (fun v => v.masking)
    formError p (p.len = 24) true
      [(4, 1 ≤ p.u32 4 && ((vintageOf s p.ctx p.vintage).map (fun v => decide (p.u32 0 + p.u32 4 ≤ v.clients))).getD true),
       (12, p.u8 12 ≤ 1 && (m.map (fun m => m.commit == (p.u8 12 == 1))).getD true), (13, p.num 13 3 == 0)]
  state p s := (draftMasking s p.ctx p.vintage).map (fun _ => ())
  body p s := do
    let (v, m) ← draftMasking s p.ctx p.vintage
    let (bytes, s1) ← readWindow s p.ctx (p.u32 8) (p.u64 16) (p.u32 4 * pubkeyEntry p)
    let entries := List.zip ((List.range (p.u32 4)).map (· + p.u32 0)) (pieces (pubkeyEntry p) bytes)
    let bad := (entries.filter (fun x => badPublicKey (x.2.take 32))).map Prod.fst
    let registry := entries.foldl (fun l x =>
      let rest := l.filter (fun y => y.1 != x.1)
      if bad.contains x.1 then rest
      else insertBy Prod.fst (x.1, x.2.take 32, padTo 32 (x.2.drop 32)) rest) m.registry
    let s2 := setVintage s1 p.ctx p.vintage (fun v => { v with masking := some { m with registry := registry } })
    .ok (s2, okWith (entries.length - bad.length) bad.length (b2n (registry.length == v.clients))
      (bad.headD 0xFFFFFFFF))

/-- PUBKEY_LOAD. -/
def execPubkeyLoad (p : Packet) (s : State) : Host.Outcome State Fault Refusal := runCmd cmdPubkeyLoad p s

/-! ### The MASKER role (R217 to R219) -/

/-- Only a Glove in MASKER role issues the command (R217). -/
def isMasker (p : Packet) (s : State) : Check := need (p.ctx < 16 && (gloveOf s p.ctx).cfg.masker) .accessViolation

def usageMaskSelf : Nat := 8
def usageMaskAgree : Nat := 16

/-- A slot in the context's range, and of one of the usages where it holds a key. -/
def slotUsage (p : Packet) (s : State) (slot mask : Nat) : Check := do
  need (slotInRange s p.ctx slot) .accessViolation
  need (((keySlotOf s slot).map (fun k => k.state == .lost || k.usage &&& mask != 0)).getD true) .accessViolation

/-- MASK_KEYGEN. Each drawn block of 256 bits is brought below p by reduction (R218 says only that both values lie below p;
DESIGN CHOICE, notes/assumptions/158.md). -/
def cmdMaskKeygen : Cmd where
  op := 0x0220
  names p _ := [.key (p.slotAt 0), .key (p.slotAt 2), .window (p.u32 4 / 256)]
  access p s := do
    isMasker p s
    need (slotInRange s p.ctx (p.slotAt 0) && slotInRange s p.ctx (p.slotAt 2)) .accessViolation
    windowCheck s p.ctx (p.u32 4) rightWrite (p.u64 8) 32 (p.len == 16)
  form p _ := formError p (p.len = 16) false
    [(0, p.u16 0 < 1024), (2, p.u16 2 < 1024 && p.u16 2 != p.u16 0)]
  state p s := do
    emptySlot s (p.u16 0)
    emptySlot s (p.u16 2)
    entropyReady s
  draw _ _ := some (1, 4)
  body p s := do
    let (a, s1) := drawBytes s 32
    let (b, s2) := drawBytes s1 32
    let seed := toLE 32 (leNat a % gfP)
    let sk := toLE 32 (leNat b % gfP)
    let slot (n usage kind lifetime left : Nat) : KeySlot := {
      slot := n, owner := p.ctx, state := .loaded, keyId := 0, parent := 0, usage := usage, kind := kind
      lifetime := lifetime, left := left, share0 := [], share1 := [] }
    let s3 := loadSlot s2 (slot (p.u16 0) usageMaskSelf 0 1 1) seed
    let s4 := loadSlot s3 (slot (p.u16 2) usageMaskAgree 2 0 0) sk
    let s5 ← writeWindow s4 p.ctx (p.u32 4) (p.u64 8) (Crypto.x25519Base sk)
    .ok (s5, okWith)

/-- MASK_KEYGEN. -/
def execMaskKeygen (p : Packet) (s : State) : Host.Outcome State Fault Refusal := runCmd cmdMaskKeygen p s

/-- The neighbour list of MASK_APPLY and SHARE_SPLIT: index and public key of each entry. -/
def neighbourList (bytes : List Byte) : List (Nat × List Byte) :=
  (pieces 36 bytes).map (fun e => (field e 0 4, e.drop 4))

/-- Position of the first entry that is refused: the own index, a repeat, or a key of R200. -/
def badNeighbour (own : Nat) (l : List (Nat × List Byte)) : Option Nat :=
  posOf (fun i =>
    let e := l.getD i (0, [])
    2 ^ 22 ≤ e.1 || e.1 == own || ((l.take i).map Prod.fst).contains e.1 || badPublicKey e.2) (List.range l.length)

def cmdMaskApply : Cmd where
  op := 0x0221
  names p _ := [.cask p.ctx (p.u16 0), .key (p.slotAt 2), .key (p.slotAt 4), .window (p.u32 16 / 256)]
  access p s := do
    isMasker p s
    need (caskInRange s p.ctx (p.u16 0)) .accessViolation
    slotUsage p s (p.slotAt 2) usageMaskSelf
    slotUsage p s (p.slotAt 4) usageMaskAgree
    windowCheck s p.ctx (p.u32 16) rightRead (p.u64 24) (36 * p.u16 6) (p.len == 72)
  form p s := formError p (p.len = 72) false
    [(2, p.u16 2 < 1024), (4, p.u16 4 < 1024), (6, 1 ≤ p.u16 6 && p.u16 6 ≤ 255), (8, p.u32 8 < 2 ^ 22),
     (22, p.u16 22 == 0),
     (64, ((caskOf s p.ctx (p.u16 0)).map (fun c => decide (p.u64 64 + c.n ≤ 2 ^ 32))).getD true)]
  state p s := do
    let c ← want (caskOf s p.ctx (p.u16 0)) .badState
    need (!c.withheld) .integrityFault
    need (c.ring ≤ 3 && c.limbs == 1 && c.role != 0) .badState
    let k ← servingSlot s (p.u16 2)
    let _ ← servingSlot s (p.u16 4)
    need (k.left != 0) .keyExpired
  body p s := do
    let c ← want (caskOf s p.ctx (p.u16 0)) .badState
    let self_ ← servingSlot s (p.u16 2)
    let agree ← servingSlot s (p.u16 4)
    let (bytes, s1) ← readWindow s p.ctx (p.u32 16) (p.u64 24) (36 * p.u16 6)
    let l := neighbourList bytes
    match badNeighbour (p.u32 8) l with
    | some i => failWith { status := .badParam, detail := 80, r0 := i }
    | none =>
      let salt := p.bytes 32 32
      let own := p.u32 8
      let one (c : Cask) (e : Nat × List Byte) : Cask :=
        let seed := pairSeed salt (Crypto.x25519 (slotKey agree) e.2) own e.1 (p.u32 12)
        expandInto c (e.1 < own) salt seed (p.u16 20) (p.u64 64)
      let masked := l.foldl one (expandInto c false salt (slotKey self_) (p.u16 20) (p.u64 64))
      let s2 := setCask s1 p.ctx c.id (fun _ => masked)
      .ok (setKeySlot s2 (p.u16 2) (fun k => { k with left := k.left - 1 }), okWith (1 + l.length))

/-- MASK_APPLY. -/
def execMaskApply (p : Packet) (s : State) : Host.Outcome State Fault Refusal := runCmd cmdMaskApply p s

/-- One sealed share record (R202, R203, R219). -/
def splitRecord (p : Packet) (agree kind value : Nat) (e : Nat × List Byte) : List Byte :=
  let front := toLE 4 (p.u32 8) ++ toLE 4 e.1 ++ toLE 1 kind ++ zeros 7
  let key := Crypto.hkdf (p.bytes 40 32) (Crypto.x25519 (toLE 32 agree) e.2) (ascii "LQ-SHARE-PEER-V1") 32
  front ++ Crypto.gcmSeal key (front.take 9 ++ zeros 3) (front ++ toLE 4 (p.u32 12)) (toLE 32 value)

/-- SHARE_SPLIT. A polynomial coefficient is one drawn block of 256 bits reduced modulo p (R219 leaves it open; DESIGN
CHOICE, notes/assumptions/159.md). -/
def cmdShareSplit : Cmd where
  op := 0x0222
  names p _ := [.key (p.slotAt 0), .key (p.slotAt 2), .window (p.u32 16 / 256), .window (p.u32 20 / 256)]
  access p s := do
    isMasker p s
    slotUsage p s (p.slotAt 0) (usageMaskSelf + usageMaskAgree)
    slotUsage p s (p.slotAt 2) usageMaskAgree
    windowCheck s p.ctx (p.u32 16) rightRead (p.u64 24) (36 * p.u8 5) (p.len == 72)
    windowCheck s p.ctx (p.u32 20) rightWrite (p.u64 32) (64 * p.u8 5) (p.len == 72)
  form p _ := formError p (p.len = 72) false
    [(0, p.u16 0 < 1024), (2, p.u16 2 < 1024), (4, 2 ≤ p.u8 4 && p.u8 4 ≤ p.u8 5), (5, 2 ≤ p.u8 5),
     (6, p.u16 6 == 0), (8, p.u32 8 < 2 ^ 22)]
  state p s := do
    let k ← servingSlot s (p.u16 0)
    let _ ← servingSlot s (p.u16 2)
    need (!k.split) .keyExpired
    entropyReady s
  draw p _ := some (1, p.u8 4 - 1)
  body p s := do
    let k ← servingSlot s (p.u16 0)
    let agree ← servingSlot s (p.u16 2)
    let (bytes, s1) ← readWindow s p.ctx (p.u32 16) (p.u64 24) (36 * p.u8 5)
    let l := neighbourList bytes
    match badNeighbour (p.u32 8) l with
    | some i => failWith { status := .badParam, detail := 80, r0 := i }
    | none =>
      let (coeffs, s2) := drawBytes s1 (32 * (p.u8 4 - 1))
      let poly := leNat (slotKey k) % gfP :: (pieces 32 coeffs).map (fun c => leNat c % gfP)
      let kind := if k.usage &&& usageMaskSelf != 0 then 1 else 2
      let records := (l.map (fun e => splitRecord p (leNat (slotKey agree)) kind (gfEval poly (e.1 + 1)) e)).flatten
      let s3 ← writeWindow (setKeySlot s2 (p.u16 0) (fun k => { k with split := true })) p.ctx (p.u32 20) (p.u64 32) records
      .ok (s3, okWith l.length)

/-- SHARE_SPLIT. -/
def execShareSplit (p : Packet) (s : State) : Host.Outcome State Fault Refusal := runCmd cmdShareSplit p s

end Sys2Proof.Machine
end

