-- ==== Sys2Proof/Machine/Noise.lean ====
section
/-! DEFINITION. Noise bounds, scales and budgets of lattice ciphertexts (R265 to R267), the checks on moduli
(R244), and the NTT form (R249). Bounds and logarithms are whole numbers of 1/256 bit. -/

set_option autoImplicit false

namespace Sys2Proof.Machine

/-! ### Logarithms in 1/256 bit (R265) -/

/-- log2 (num / den), rounded up; 0 where it is negative. -/
def logUp (num den : Nat) : Nat := clog2 (ceilDiv (num ^ 256) (max 1 (den ^ 256)))

/-- log2 of a modulus, rounded down. -/
def logDown (m : Nat) : Nat := Nat.log2 (m ^ 256)

/-- 2^64 * 2^(-i/16), rounded up. -/
def sixteenthRoot (i : Nat) : Nat :=
  let r := Crypto.rootFloor 16 (2 ^ (1024 - i)) 65 0
  if r ^ 16 = 2 ^ (1024 - i) then r else r + 1

/-- T[i] = log2 (1 + 2^(-i/16)), rounded up. -/
def noiseStep (i : Nat) : Nat := logUp (2 ^ 64 + sixteenthRoot i) (2 ^ 64)

/-- The sum x ⊕ y of R265. -/
def oplus (x y : Nat) : Nat := max x y + noiseStep (min 255 ((max x y - min x y) / 16))

/-- ⊕ over `k` equal terms. -/
def oplusTimes (x : Nat) : Nat → Nat
  | 0 => 0
  | 1 => x
  | k + 2 => oplus (oplusTimes x (k + 1)) x

/-! ### Figures of a parameter set (R245) -/

/-- Ring dimension, or n of an LWE set. -/
def setDim (p : ParamSet) : Nat := if p.construction = 2 then p.n else 2 ^ p.log2N

/-- h̄: the weight of a fixed-weight secret, else the dimension. -/
def setWeight (p : ParamSet) : Nat := if p.secret = 1 then p.weight else setDim p

/-- α = ⌈L / dnum⌉. -/
def setAlpha (p : ParamSet) : Nat := ceilDiv p.limbs p.dnum

/-- Residues of one ciphertext in one limb (R248). -/
def ctSize (p : ParamSet) : Nat := if p.construction = 2 then p.n + 1 else 2 * 2 ^ p.log2N

/-- log2 of the product of moduli, each rounded down. -/
def logProduct (l : List Nat) : Nat := sumOf logDown l

def activeModuli (p : ParamSet) (l : Nat) : List Nat := p.moduli.take l
def specialModuli (p : ParamSet) : List Nat := p.moduli.drop p.limbs

/-- B_fresh = log2 (6 σ (N + h̄ + 1)). -/
def noiseFresh (p : ParamSet) : Nat := logUp (6 * p.sigma * (setDim p + setWeight p + 1)) 256

/-- B_rs = log2 (h̄ + 1). -/
def noiseRescale (p : ParamSet) : Nat := logUp (setWeight p + 1) 1

/-- Digits of a key switch at l active limbs. -/
def keyDigits (p : ParamSet) (l : Nat) : Nat := ceilDiv l (setAlpha p)

/-- B_ks(l) of R266; 0 for a set that has no key switch. -/
def noiseSwitch (p : ParamSet) (l : Nat) : Nat :=
  if p.dnum = 0 then 0
  else
    let d := keyDigits p l
    let digits := (List.range d).map (fun i =>
      logProduct (((activeModuli p l).drop (i * setAlpha p)).take (setAlpha p)))
    let a := logUp (d * (l + p.special) * setDim p * 6 * p.sigma) 256
    oplus (a + digits.foldl max 0 - logProduct (specialModuli p)) (noiseRescale p)

/-! ### Budgets (R267). `scale` is in 1/64 bit. -/

/-- The bound an output may reach at l active limbs. -/
def budgetOf (p : ParamSet) (l scale : Nat) : Nat :=
  match p.construction with
  | 1 => 4 * scale - p.pMin
  | _ => logProduct (activeModuli p l) - logUp p.t 1 - 512

/-- The prediction fits: the budget, and for CKKS the bound on the scale. -/
def fitsBudget (p : ParamSet) (l scale bound : Nat) : Bool :=
  match p.construction with
  | 1 => bound + p.pMin ≤ 4 * scale && 4 * scale + p.mu + 256 ≤ logProduct (activeModuli p l)
  | _ => bound + logUp p.t 1 + 512 ≤ logProduct (activeModuli p l)

/-- The budget at the top level; for CKKS at the largest scale that R267 admits there. -/
def topBudget (p : ParamSet) : Nat :=
  match p.construction with
  | 1 => logProduct (activeModuli p p.limbs) - 256 - p.mu - p.pMin
  | _ => budgetOf p p.limbs 0

/-- A bound as its 16-bit field holds it. -/
def noiseField (b : Nat) : Nat := min 65535 b

/-! ### Moduli (R244) -/

/-- One round of Miller-Rabin for odd q = d * 2^r + 1 to a base. -/
def millerRound (q d r a : Nat) : Bool :=
  let x := Crypto.powMod q (a % q) d 64 1
  x == 1 || ((List.range r).foldl (fun (acc : Bool × Nat) _ =>
    (acc.1 || acc.2 == q - 1, acc.2 * acc.2 % q)) (false, x)).1

/-- Times 2 divides a number, up to 64. -/
def twoPower (n : Nat) : Nat := ((List.range 64).find? (fun i => n / 2 ^ i % 2 == 1)).getD 0

/-- Deterministic Miller-Rabin with the first twelve primes as bases. -/
def isPrime (q : Nat) : Bool :=
  let bases := [2, 3, 5, 7, 11, 13, 17, 19, 23, 29, 31, 37]
  if bases.contains q then true
  else if q < 2 || q % 2 == 0 then false
  else
    let r := twoPower (q - 1)
    bases.all (fun a => millerRound q ((q - 1) / 2 ^ r) r a)

/-- A modulus of a set meets R244, apart from differing from the others. -/
def goodModulus (construction dim q : Nat) : Bool :=
  let b := Nat.log2 q + 1
  q % 2 == 1 && q < 2 ^ 62 && 1024 * 2 ^ b ≤ 1024 * q + 2 ^ b &&
  (construction == 2 || q % (2 * dim) == 1) && isPrime q

/-! ### NTT form (R249) -/

/-- The least ψ from 2 on with ψ^N ≡ -1 mod q, within `fuel` candidates. -/
def leastRoot (q n : Nat) : Nat → Nat → Nat
  | 0, c => c
  | k + 1, c => if Crypto.powMod q c n (Nat.log2 n + 1) 1 = q - 1 then c else leastRoot q n k (c + 1)

/-- Bit reversal of an index of `b` bits. -/
def bitReverse : Nat → Nat → Nat
  | 0, _ => 0
  | b + 1, i => i % 2 * 2 ^ b + bitReverse b (i / 2)

/-- The forward transform: entry i of the result stands at the bit-reversed index, and is the polynomial at
ψ^(2i+1). -/
def nttForward (q logN : Nat) (a : List Nat) : List Nat :=
  let n := 2 ^ logN
  let psi := leastRoot q n q 2
  (List.range n).map (fun j =>
    let x := Crypto.powMod q psi (2 * bitReverse logN j + 1) (logN + 1) 1
    a.foldr (fun c acc => (c + x * acc) % q) 0)

/-- The inverse transform. -/
def nttInverse (q logN : Nat) (a : List Nat) : List Nat :=
  let n := 2 ^ logN
  let psi := leastRoot q n q 2
  let inv (x : Nat) := Crypto.powMod q x (q - 2) 62 1
  (List.range n).map (fun m =>
    let ip := inv psi
    let total := (List.range n).foldl (fun acc j =>
      acc + a.getD j 0 * Crypto.powMod q ip ((2 * bitReverse logN j + 1) * m) (2 * logN + 2) 1) 0
    total % q * inv n % q)

end Sys2Proof.Machine
end

