-- ==== Sys2Proof/Machine/LatticeOps.lean ====
section
/-! DEFINITION. What the lattice opcodes share: the checks of their 48-byte layout, the refresh figures that
R268 and R291 need, and the writing of outputs with their headers (R253 to R273, R275, R278, R281, R284). -/

set_option autoImplicit false

namespace Sys2Proof.Machine

/-! ### Objects -/

def keySetOf (s : State) (g ks : Nat) : Option KeySet := (gloveOf s g).keySets.find? (fun k => k.id == ks)

def paramSetOf (s : State) (g i : Nat) : Option ParamSet := (gloveOf s g).params.find? (fun p => p.index == i)

/-- The parameter set of a key set. -/
def setOfKeys (s : State) (g ks : Nat) : Option ParamSet := (keySetOf s g ks).bind (fun k => paramSetOf s g k.set)

def setKeySet (s : State) (g ks : Nat) (f : KeySet → KeySet) : State :=
  setGlove s g (fun x => { x with keySets := mapIf (fun k => k.id == ks) f x.keySets })

/-- The key set holds a key of a kind and element. -/
def hasKey (k : KeySet) (kind element : Nat) : Bool := k.keys.any (fun e => e.kind == kind && e.element == element)

def headerAt (c : Cask) (i : Nat) : Option CtHeader := c.binding.bind (fun b => b.headers[i]?)

/-- Headers of `n` ciphertexts from one on. -/
def headersOf (c : Cask) (first n : Nat) : List CtHeader := (((c.binding.map (fun b => b.headers)).getD []).drop first).take n

/-- Ciphertexts of a bound Cask. -/
def ctCount (c : Cask) : Nat := (c.binding.map (fun b => b.headers.length)).getD 0

/-- Residues of one ciphertext, or plaintext, of `size` residues in one limb (R249). -/
def polyOf (c : Cask) (size limb i : Nat) : List Nat :=
  (List.range size).map (fun x => coord c (limb * c.n + i * size + x))

/-- Write one ciphertext's residues in one limb. -/
def putPoly (c : Cask) (size limb i : Nat) (l : List Nat) : Cask :=
  { c with data := Memory.writeN c.data (8 * (limb * c.n + i * size)) (l.flatMap (toLE 8)) }

/-! ### Refresh figures (R278 to R284) -/

/-- R_ms = ½ log2 (3 (n + 1)). -/
def refreshRms (n : Nat) : Nat := ceilDiv (clog2 ((3 * (n + 1)) ^ 256)) 2

/-- log2 of t_max; none where no t has an ambiguity fraction of at most 1/4 (R282). -/
def tMaxLog (log2Nb n : Nat) : Option Nat :=
  let need := 3 + ceilDiv (refreshRms n) 256
  if need ≤ log2Nb then some (log2Nb - need) else none

/-- Output level of the packed refresh, for a set of L limbs. -/
def packedLevel (limbs : Nat) (r : RefreshCfg) : Nat := limbs - 1 - r.rc - r.e - r.rs

/-- Size of the linear transforms: ρ, g and G (R279). -/
def transformRho (log2N r : Nat) : Nat := 2 ^ ceilDiv (log2N - 1) r
def transformG (rho : Nat) : Nat :=
  let f := Crypto.rootFloor 2 (2 * rho - 1) 20 0
  if f * f = 2 * rho - 1 then f else f + 1
def transformGG (rho : Nat) : Nat := ceilDiv (2 * rho - 1) (transformG rho)

/-- Galois elements that a transform of r levels rotates by. -/
def transformElements (log2N r : Nat) : List Nat :=
  let rho := transformRho log2N r
  let half := 2 ^ (log2N - 1)
  let amounts := (List.range r).flatMap (fun d =>
    ((List.range (transformG rho)).drop 1).map (fun j => j * rho ^ d % half) ++
    ((List.range (transformGG rho)).drop 1).map (fun i => i * transformG rho * rho ^ d % half))
  (dedup (amounts.filter (· != 0))).map (fun a => Crypto.powMod (2 * 2 ^ log2N) 5 a (log2N + 1) 1)

/-- The keys of a packed refresh: RELIN, the rotations of both transforms, the conjugation (R279, R291). -/
def packedKeys (k : KeySet) (p : ParamSet) (r : RefreshCfg) : Bool :=
  hasKey k 1 0 && hasKey k 2 (2 * 2 ^ p.log2N - 1) &&
  (transformElements p.log2N r.rc ++ transformElements p.log2N r.rs).all (hasKey k 2)

/-- The keys of a programmable refresh (R291). -/
def lweKeys (k : KeySet) : Bool := hasKey k 3 0 && hasKey k 4 1

/-- The input condition on scale of R278. -/
def packedInput (p : ParamSet) (scale : Nat) : Bool := 4 * scale + p.mu + 2560 ≤ logDown (p.moduli.getD 0 1)

/-- The bound after a packed refresh: S - P_ref (R278). -/
def packedNoise (r : RefreshCfg) (scale noise : Nat) : Nat := max noise (4 * scale - 256 * r.pMax) + 256

/-- The input condition of R284 against a modulus. -/
def lweInput (r : RefreshCfg) (q noise : Nat) : Bool := noise + 256 * (r.log2Nb + 1) ≤ r.rMs + logDown q

/-- Granules per Vat of R260 and of R281. -/
def scratchNeed (p : ParamSet) (l : Nat) : Nat := ceilDiv ((2 * l + 3 * (l + p.special)) * 2 ^ p.log2N * 8) 1024
def refreshScratch (p : ParamSet) : Nat := ceilDiv ((4 * p.limbs + 3 * (p.limbs + p.special)) * 2 ^ p.log2N * 8) 1024

/-! ### The 48-byte layout -/

def latDst (p : Packet) : Nat := p.u16 0
def latA (p : Packet) : Nat := p.u16 2
def latB (p : Packet) : Nat := p.u16 4
def latScratch (p : Packet) : Nat := p.u16 6
def latDstFirst (p : Packet) : Nat := p.u32 8
def latAFirst (p : Packet) : Nat := p.u32 12
def latBFirst (p : Packet) : Nat := p.u32 16
def latCount (p : Packet) : Nat := p.u32 20
def latKeys (p : Packet) : Nat := p.u32 24
def latArg (p : Packet) : Nat := p.u32 28
def latConst (p : Packet) : Nat := p.u64 32
def latScale (p : Packet) : Nat := p.u16 40

/-- What one opcode of the layout adds to the shared checks. -/
structure LatOp where
  code : Nat
  waves : Bool := false
  /-- A holds plaintexts -/
  aPlain : Bool := false
  /-- 0 no B, 1 ciphertexts, 2 plaintexts -/
  bUse : Nat := 0
  constructions : List Nat := [0, 1]
  /-- the field arg is in range -/
  argOk : Packet → State → Bool := fun p _ => latArg p == 0
  useConst : Bool := false
  useScale : Bool := false
  /-- it takes no scratch Cask at all (R281) -/
  noScratch : Bool := false
  /-- A must be in NTT form -/
  needNtt : Bool := false
  /-- form of the output, for LAT_FORM -/
  formOf : Packet → Option Bool := fun _ => none
  /-- level of the output for an input level; none where there is none -/
  outLevel : Packet → State → Nat → Option Nat := fun _ _ l => some l
  /-- kind and element of the evaluation keys it needs -/
  keys : Packet → List (Nat × Nat) := fun _ => []
  /-- further conditions on state, at its own details -/
  extra : Packet → State → Check := fun _ _ => .ok ()
  /-- granules of scratch it needs -/
  scratch : ParamSet → Nat → Nat := fun _ _ => 0
  /-- R254 and R290: ENGINE_SUM, cohort and Vintage ID come from the input -/
  copies : Bool := false
  refreshed : Bool := false
  /-- bound and scale of an output -/
  noise : Packet → State → ParamSet → CtHeader → CtHeader → Nat
  scale : Packet → ParamSet → CtHeader → CtHeader → Nat := fun _ _ a _ => a.scale
  /-- a check of the input bound that comes before the prediction (R284, R289) -/
  input : Packet → State → ParamSet → CtHeader → Check := fun _ _ _ _ => .ok ()
  /-- detail of ST_NOISE_SPENT for a prediction that nothing can mend; 1 where a refresh may be inserted -/
  spent : Nat := 1
  /-- residues of one output ciphertext in one limb: parameter set, draw number, A, B, limb, position -/
  out : Packet → State → ParamSet → Nat → Cask → Cask → Nat → Nat → List Nat

def latConstruction (s : State) (p : Packet) : Nat := ((setOfKeys s p.ctx (latKeys p)).map (fun x => x.construction)).getD 0

def latNames (p : Packet) : List Obj :=
  [Obj.cask p.ctx (latDst p), Obj.cask p.ctx (latA p)] ++ (if latB p = 0xFFFF then [] else [Obj.cask p.ctx (latB p)]) ++
    (if latScratch p = 0xFFFF then [] else [Obj.cask p.ctx (latScratch p)]) ++ [Obj.keySet p.ctx (latKeys p)]

def latAccess (o : LatOp) (p : Packet) (s : State) : Check := do
  need (p.len != 48 || (caskInRange s p.ctx (latDst p) && caskInRange s p.ctx (latA p))) .accessViolation
  need (p.len != 48 || o.bUse == 0 || caskInRange s p.ctx (latB p)) .accessViolation
  need (p.len != 48 || latScratch p == 0xFFFF || caskInRange s p.ctx (latScratch p)) .accessViolation
  need (p.len != 48 || (keySetOf s p.ctx (latKeys p)).isSome) .accessViolation

def latForm (o : LatOp) (p : Packet) (s : State) : Option Nat :=
  formError p (p.len = 48) false
    [(4, o.bUse != 0 || latB p == 0xFFFF), (6, !o.noScratch || latScratch p == 0xFFFF), (16, o.bUse != 0 || latBFirst p == 0),
     (20, 1 ≤ latCount p && latCount p ≤ 65535), (28, o.argOk p s), (32, o.useConst || latConst p == 0),
     (40, latScale p == 0 || (o.useScale && latConstruction s p == 1)), (42, p.num 42 6 == 0)]

/-- A Cask that holds ciphertexts; a withheld Cask serves nothing (R468). -/
def ctCask (s : State) (g c : Nat) : Except Refused Cask :=
  want ((caskOf s g c).filter (fun c => c.binding.isSome && !c.withheld)) .badState 1

/-- A plaintext Cask for ciphertexts of given moduli. -/
def plainCask (s : State) (g c : Nat) (moduli : List Nat) : Except Refused Cask :=
  want ((caskOf s g c).filter (fun c => c.binding.isNone && !c.withheld && c.ring == 3 && c.moduli == moduli)) .badState 1

/-- The Casks of an opcode: destination, A and B (A again where there is none). -/
def latCasks (o : LatOp) (p : Packet) (s : State) : Except Refused (Cask × Cask × Cask) := do
  let d ← ctCask s p.ctx (latDst p)
  let a ← if o.aPlain then plainCask s p.ctx (latA p) d.moduli else ctCask s p.ctx (latA p)
  let b ← match o.bUse with
    | 0 => .ok a
    | 1 => ctCask s p.ctx (latB p)
    | _ => plainCask s p.ctx (latB p) a.moduli
  .ok (d, a, b)

/-- The key set has what the refresh needs (R291). -/
def refreshable (k : KeySet) (p : ParamSet) : Bool :=
  match k.refresh with
  | none => false
  | some r =>
    match p.construction with
    | 0 => false
    | 1 => r.packed && packedKeys k p r
    | _ => r.lookup && lweKeys k

/-- A packed refresh might be inserted into the opcode: it takes CKKS ciphertexts under a key set that can refresh them, in a
Glove with AUTO_REFRESH (R268, R291; DEDUCED, notes/assumptions/137.md). -/
def mightRefresh (o : LatOp) (p : Packet) (s : State) : Bool :=
  o.spent == 1 && (!o.aPlain || o.bUse == 1) && (gloveOf s p.ctx).autoRefresh &&
  match keySetOf s p.ctx (latKeys p), setOfKeys s p.ctx (latKeys p) with
  | some k, some set => set.construction == 1 && refreshable k set
  | _, _ => false

/-- The opcode works in its scratch Cask, or might. -/
def usesScratch (o : LatOp) (p : Packet) (s : State) : Bool := o.waves || mightRefresh o p s

/-- The scratch Cask of a wave opcode, and of one that might refresh: a work Cask that is not bound (R260, R291). One that is
named without need must not be withheld either (R468). -/
def scratchOk (o : LatOp) (p : Packet) (s : State) : Bool :=
  let c := caskOf s p.ctx (latScratch p)
  if usesScratch o p s then (c.map (fun c => c.binding.isNone && c.role == 2 && !c.withheld)).getD false
  else !(c.map (fun c => c.withheld)).getD false

/-- Two ranges of one Cask overlap without being the same. -/
def partialOverlap (c1 f1 c2 f2 n : Nat) : Bool := c1 == c2 && f1 != f2 && f1 < f2 + n && f2 < f1 + n

/-- The operands agree in level, form, construction and scale, and the destination fits the output
(ST_BAD_STATE, detail 4). Scales of two summands differ by at most 1/64 bit (R266). -/
def latAgree (o : LatOp) (p : Packet) (s : State) (d a b : Cask) (as bs : List CtHeader) (sums : Bool) : Bool :=
  let form (c : Cask) : Bool := (c.binding.map (fun x => x.ntt)).getD false
  let size (c : Cask) : Nat := (c.binding.map (fun x => x.size)).getD 0
  let outForm := (o.formOf p).getD (form a)
  (o.aPlain || (size d == size a && o.outLevel p s (a.limbs - 1) == some (d.limbs - 1) && form d == outForm)) &&
  (o.bUse != 1 || (a.limbs == b.limbs && form a == form b && size a == size b &&
    (List.zip as bs).all (fun x => x.1.construction == x.2.construction))) &&
  (!o.needNtt || form a) &&
  (!sums || (List.zip as bs).all (fun x => x.1.scale ≤ x.2.scale + 1 && x.2.scale ≤ x.1.scale + 1))

/-- Step 5 for the opcodes of the layout. -/
def latState (o : LatOp) (p : Packet) (s : State) : Check := do
  let (d, a, b) ← latCasks o p s
  need (scratchOk o p s) .badState 1
  need (d.role != 0 && a.role != 0 && b.role != 0) .badState 2
  let n := latCount p
  let as := if o.aPlain then [] else headersOf a (latAFirst p) n
  let bs := if o.bUse = 1 then headersOf b (latBFirst p) n else []
  need ((as ++ bs).all (fun h => h.state == 1)) .badState 3
  need (latAgree o p s d a b as bs (o.code == 0x0310 || o.code == 0x0311)) .badState 4
  let dim := 2 ^ ((setOfKeys s p.ctx (latKeys p)).map (fun x => x.log2N)).getD 0
  let inPlain (c : Cask) (f : Nat) : Bool := (f + n) * dim ≤ c.n
  need (latDstFirst p + n ≤ ctCount d) .badState 5
  need (if o.aPlain then inPlain a (latAFirst p) else latAFirst p + n ≤ ctCount a) .badState 5
  need (match o.bUse with
    | 0 => true
    | 1 => latBFirst p + n ≤ ctCount b
    | _ => inPlain b (latBFirst p)) .badState 5
  need (!partialOverlap (latDst p) (latDstFirst p) (latA p) (latAFirst p) n &&
    !(o.bUse == 1 && partialOverlap (latDst p) (latDstFirst p) (latB p) (latBFirst p) n) &&
    !(usesScratch o p s && (latScratch p == latA p || (o.bUse != 0 && latScratch p == latB p)))) .badState 6
  need (((keySetOf s p.ctx (latKeys p)).map (fun k => (o.keys p).all (fun x => hasKey k x.1 x.2))).getD false) .badState 7
  need (o.constructions.contains (latConstruction s p)) .badState 8
  o.extra p s

/-! ### Predictions and inserted refreshes (R267, R268, R291) -/

/-- The bound of a ciphertext after the refresh that R268 inserts: none where its input condition fails, or
where its output lies below the level the opcode works at. -/
def refreshedNoise (k : KeySet) (p : ParamSet) (h : CtHeader) : Option Nat :=
  match k.refresh with
  | none => none
  | some r =>
    if p.construction = 1 then
      if packedInput p h.scale ∧ h.level ≤ packedLevel p.limbs r then some (packedNoise r h.scale h.noise) else none
    else if lweInput r (p.moduli.getD 0 1) h.noise then some r.bLwe else none

/-- Refusal by budget: predicted bound and budget (R268). -/
def noiseSpent {α : Type} (detail bound budget : Nat) : Except Refused α :=
  failWith { status := .noiseSpent, detail := detail, r0 := noiseField bound, r1 := noiseField budget }

/-- The bound of one output at l active limbs, and the refreshes inserted for it. -/
def predict (o : LatOp) (p : Packet) (s : State) (k : KeySet) (set : ParamSet) (l : Nat) (a b : CtHeader) :
    Except Refused (Nat × Nat) :=
  let sc := o.scale p set a b
  let bound (x y : CtHeader) : Nat := o.noise p s set x y
  let fits (x y : CtHeader) : Bool := fitsBudget set l sc (bound x y)
  let spent (d n : Nat) : Except Refused (Nat × Nat) := noiseSpent d n (budgetOf set l sc)
  if fits a b then .ok (bound a b, 0)
  else if o.spent ≠ 1 then spent o.spent (bound a b)
  else if ¬ (gloveOf s p.ctx).autoRefresh then spent 1 (bound a b)
  else if ¬ refreshable k set then spent 2 (bound a b)
  else
    match (if o.aPlain then none else refreshedNoise k set a) with
    | none => spent 3 (bound a b)
    | some na =>
      let a' := { a with noise := na }
      if fits a' b then .ok (bound a' b, 1)
      else
        match (if o.bUse = 1 then refreshedNoise k set b else none) with
        | none => spent 3 (bound a' b)
        | some nb =>
          let b' := { b with noise := nb }
          if fits a' b' then .ok (bound a' b', 2) else spent 3 (bound a' b')

/-! ### Programmable refresh (R283, R284) -/

/-- The test polynomial of a table (R283): N_b residues modulo q_b. For an LWE table Δ is q_b ÷ 2t, with each coefficient
rounded to the nearest whole number (DESIGN CHOICE, notes/assumptions/138.md); for a SWITCH table Δ is the engine's. -/
def testPolynomial (log2Nb q : Nat) (switchKind : Bool) (entries : List Int) : List Nat :=
  let nb := 2 ^ log2Nb
  let w := nb / max 1 entries.length
  let top := entries.foldl (fun m x => max m x.natAbs) 0
  let scaled (x : Int) : Nat :=
    if switchKind then (Config.switchDelta top q * x % (max 1 q : Nat)).toNat
    else (q * x.toNat + entries.length) / (2 * max 1 entries.length) % max 1 q
  (List.range nb).map (fun j =>
    if j + w / 2 < nb then scaled (entries.getD ((j + w / 2) / max 1 w) 0)
    else subMod (max 1 q) 0 (scaled (entries.getD 0 0)))

/-- The secret under which the LWE ciphertexts of a key set stand: the one its LWE_SWITCH key leads to (R276). -/
def lweSecret (k : KeySet) (j : Nat) : Nat :=
  ((k.keys.find? (fun e => e.kind == 4 && e.element == 1)).map (fun e => Config.lweSecretBit e.seed e.b j % 2)).getD 0

/-- b - ⟨a, s⟩ modulo m of an LWE ciphertext (a, b). -/
def lwePhase (secret : Nat → Nat) (m : Nat) (ct : List Nat) : Nat :=
  let n := ct.length - 1
  (List.range n).foldl (fun acc j => subMod m acc (ct.getD j 0 * secret j)) (ct.getD n 0 % m)

/-- An element rounded into Z_{2 N_b} (R283). -/
def toRotation (nb q x : Nat) : Nat := (4 * nb * x + q) / (2 * max 1 q) % (2 * nb)

/-- Coefficient 0 of X^(-phase) · P: what blind rotation and extraction leave (R283). -/
def rotatedValue (poly : List Nat) (q nb phase : Nat) : Nat :=
  if phase < nb then poly.getD phase 0 else subMod q 0 (poly.getD (phase - nb) 0)

/-- The value that programmable refresh finds for a ciphertext: its elements rounded, its body shifted by half a box for
a SWITCH table, the test polynomial rotated by what is left (R282, R283). -/
def refreshValue (k : KeySet) (t : Lut) (log2Nb q : Nat) (ct : List Nat) : Nat :=
  let nb := 2 ^ log2Nb
  let x := ct.map (toRotation nb q)
  let phase := lwePhase (lweSecret k) (2 * nb) x
  rotatedValue t.poly q nb (if t.switchKind then subMod (2 * nb) phase (nb / 2 ^ t.log2t / 2) else phase)

/-- A ciphertext that carries a value with an error below 2^B, B in 1/256 bit: its masks and its error are free. -/
def lweCarrying (k : KeySet) (n q bound value : Nat) (free : Nat → Nat) : List Nat :=
  let a := (List.range n).map (fun j => free j % max 1 q)
  let e := 2 ^ (bound / 256)
  let masked := (List.range n).foldl (fun acc j => addMod q acc (a.getD j 0 * lweSecret k j)) value
  a ++ [addMod q masked (q * e + free n % (2 * e + 1) - e)]

/-- The identity table of the LWE refresh that R291 inserts: T[m] = m. -/
def identityLut (r : RefreshCfg) (q t : Nat) : Lut :=
  let entries : List Int := (List.range t).map Int.ofNat
  { index := 0, switchKind := false, log2t := Nat.log2 t, r := 0, exponent := 0, entries := entries
    poly := testPolynomial r.log2Nb q false entries, kib := 0 }

/-- Ciphertext i of an LWE Cask, refreshed with the identity table: it carries the message that it carried (R284, R291). -/
def lweRefreshed (k : KeySet) (set : ParamSet) (draw : Nat) (c : Cask) (i : Nat) : List Nat :=
  let r := k.refresh.getD default
  let q := c.moduli.getD 0 1
  lweCarrying k set.n q r.bLwe (refreshValue k (identityLut r q set.t) r.log2Nb q (polyOf c (ctSize set) 0 i))
    (fun j => Config.latticeResidue 0x0411 draw (i * 262144 + j))

/-! ### Outputs -/

/-- The header of an output (R253, R254, R290). -/
def outHeader (o : LatOp) (s : State) (ks : Nat) (set : ParamSet) (d : Cask) (noise scale serial : Nat) (a : CtHeader) : CtHeader where
  digest := set.digest
  keySet := ks
  state := 1
  level := d.limbs - 1
  engineSum := o.copies && a.engineSum
  ntt := (d.binding.map (fun b => b.ntt)).getD false
  refreshed := o.refreshed
  construction := set.construction
  scale := if set.construction = 1 then scale % 65536 else 0
  noise := noiseField noise
  cohort := if o.copies then a.cohort else 0
  vintage := if o.copies then a.vintage else 0
  epoch := s.fw.epoch
  serial := serial

def putHeader (c : Cask) (i : Nat) (h : CtHeader) : Cask :=
  { c with binding := c.binding.map (fun b => { b with headers := setAt b.headers i (fun _ => h) }) }

/-- Free residues of an output that no rule gives: reduced modulo the limb's prime. -/
def freePoly (op draw size : Nat) (d : Cask) (limb i : Nat) : List Nat :=
  (List.range size).map (fun x =>
    Config.latticeResidue op draw ((limb * 65536 + i) * 262144 + x) % max 1 (d.moduli.getD limb 1))

/-- The residues of one limb of output i. Where a refresh was inserted, an LWE opcode works on its operands as the refresh
leaves them, A before B; the residues of a packed refresh are free (R268, R291). -/
def latOut (o : LatOp) (p : Packet) (s : State) (set : ParamSet) (a b : Cask) (refreshes limb i : Nat) (d : Cask) : List Nat :=
  let size := ctSize set
  if refreshes = 0 then o.out p s set s.free a b limb i
  else if set.construction = 2 then
    let k := (keySetOf s p.ctx (latKeys p)).getD { id := 0, set := 0 }
    let a' := putPoly a size 0 (latAFirst p + i) (lweRefreshed k set s.free a (latAFirst p + i))
    let b' := if refreshes = 1 then b else putPoly b size 0 (latBFirst p + i) (lweRefreshed k set (s.free + 1) b (latBFirst p + i))
    o.out p s set s.free a' b' limb i
  else freePoly o.code s.free size d limb i

/-- Write every output ciphertext and its header. -/
def latWrite (o : LatOp) (p : Packet) (s : State) (set : ParamSet) (d a b : Cask) (as bs : List CtHeader)
    (plan : List (Nat × Nat)) : Cask :=
  let size := ctSize set
  (List.range (latCount p)).foldl (fun d' i =>
    let ha := as.getD i default
    let pl := plan.getD i (0, 0)
    let d1 := (List.range d.limbs).foldl (fun x limb =>
      putPoly x size limb (latDstFirst p + i)
        (latOut o p s set a b pl.2 limb i d)) d'
    putHeader d1 (latDstFirst p + i)
      (outHeader o s (latKeys p) set d pl.1 (o.scale p set ha (bs.getD i default))
        ((gloveOf s p.ctx).serial + i) ha)) d

/-- `n` ciphertexts of a Cask from one on are INVALID. -/
def invalidate (s : State) (g cask first n : Nat) : State :=
  let spoil (i : Nat) (h : CtHeader) : CtHeader := if first ≤ i ∧ i < first + n then { h with state := 0 } else h
  let mark (b : Binding) : Binding := { b with headers := (List.zip (List.range b.headers.length) b.headers).map (fun x => spoil x.1 x.2) }
  setCask s g cask (fun c => { c with binding := c.binding.map mark })

/-- A tile of the opcode's work stayed unresolved: its outputs are INVALID, its scratch Cask is zeroed, and the opcode ends
with ST_INTEGRITY_FAULT (R260, R450). -/
def latFaulted (s : State) (g cask first n : Nat) (scratch : Option Nat) : State :=
  let s1 := zeroScratch (invalidate s g cask first n) g scratch
  { s1 with int := { s1.int with faulted := s1.int.faulted.filter (· != (g, cask)) } }

/-- A lattice opcode into whose inputs or outputs something was placed: every output is INVALID, and the reply asks to
send the command again (R273). -/
def endTouched (s : State) (o : Outstanding) : State :=
  let s1 := (o.watch.filter (fun w => w.output)).foldl (fun s w => invalidate s o.pkt.ctx w.cask w.first w.count) s
  endWaiting s1 o { status := .busyRetry, detail := 1 }

/-- The headers of A and of B, in step: defaults where the operand has none. -/
def latAs (o : LatOp) (p : Packet) (a : Cask) : List CtHeader :=
  if o.aPlain then List.replicate (latCount p) default else headersOf a (latAFirst p) (latCount p)

def latBs (o : LatOp) (p : Packet) (b : Cask) : List CtHeader :=
  if o.bUse = 1 then headersOf b (latBFirst p) (latCount p) else List.replicate (latCount p) default

/-- Granules of the scratch Cask. -/
def latGranules (p : Packet) (s : State) : Nat := ((caskOf s p.ctx (latScratch p)).map (fun c => c.granules)).getD 0

/-- A Cask the opcode works on is spilled (R89). -/
def latSpilled (o : LatOp) (p : Packet) (s : State) (d a b : Cask) : Bool :=
  d.spilled || a.spilled || b.spilled ||
    (usesScratch o p s && ((caskOf s p.ctx (latScratch p)).map (fun c => c.spilled)).getD false)

/-- A Cask is bound to another key set, or a ciphertext carries another key set or parameter set (R254). -/
def latForeign (o : LatOp) (p : Packet) (set : ParamSet) (d a b : Cask) : Bool :=
  let differ (h : CtHeader) : Bool := h.keySet != latKeys p || h.digest != set.digest
  let bound (c : Cask) : Bool := (c.binding.map (fun x => x.keySet != latKeys p)).getD false
  bound d || bound a || bound b || (!o.aPlain && (latAs o p a).any differ) || (o.bUse == 1 && (latBs o p b).any differ)

/-- The prediction of every output, in order (R267, R268). -/
def latPlan (o : LatOp) (p : Packet) (s : State) (k : KeySet) (set : ParamSet) (d a b : Cask) :
    Except Refused (List (Nat × Nat)) :=
  (List.zip (latAs o p a) (latBs o p b)).mapM (fun x => do
    o.input p s set x.1
    predict o p s k set d.limbs x.1 x.2)

/-- The outputs written, the scratch Cask zeroed, the serial numbers taken, and the reply. -/
def latEffect (o : LatOp) (p : Packet) (s : State) (set : ParamSet) (d a b : Cask) (plan : List (Nat × Nat)) : State × Answer :=
  let n := latCount p
  let inserted := sumOf Prod.snd plan
  let d' := latWrite o p s set d a b (latAs o p a) (latBs o p b) plan
  let s1 := setCask s p.ctx d.id (fun _ => d')
  let s2 := if o.waves ∨ (inserted ≠ 0 ∧ set.construction = 1) then setCask s1 p.ctx (latScratch p) (fun c => { c with data := [] }) else s1
  let s3 := setGlove { s2 with free := s2.free + 2 } p.ctx (fun x => { x with serial := x.serial + n })
  let waves := if o.waves then ceilDiv n (max 1 (gloveOf s p.ctx).vatList.length) else 0
  (s3, {
    status := if inserted = 0 then .ok else .refreshedAuto
    r0 := n
    r1 := noiseField ((plan.getLast?.map Prod.fst).getD 0) + 2 ^ 16 * (d.limbs - 1)
    r2 := inserted
    r3 := waves })

/-- Steps 7 and 8 of the opcodes of the layout, all at dispatch (R260, R264, R267, R268, R270, R291): the operands, the
parameter set and the plan of every output. -/
def latChecks (o : LatOp) (p : Packet) (s : State) :
    Except Refused ((Cask × Cask × Cask) × ParamSet × List (Nat × Nat)) := do
  let (d, a, b) ← latCasks o p s
  let k ← want (keySetOf s p.ctx (latKeys p)) .accessViolation
  let set ← want (paramSetOf s p.ctx k.set) .badState 1
  need (!latSpilled o p s d a b) .spilled
  need (!o.waves || o.scratch set (if o.aPlain then d.limbs else a.limbs) ≤ latGranules p s) .noResource
  need (!mightRefresh o p s || refreshScratch set ≤ latGranules p s) .noResource
  need (!latForeign o p set d a b) .keyMismatch 2
  let plan ← latPlan o p s k set d a b
  .ok ((d, a, b), set, plan)

/-- The scratch Cask of an opcode that uses one. -/
def scratchUsed (o : LatOp) (p : Packet) (s : State) : Option Nat := if usesScratch o p s then some (latScratch p) else none

/-- What a WRITE or ATOMIC must leave alone while the opcode works: its inputs and its outputs (R273). -/
def latWatch (o : LatOp) (p : Packet) (s : State) : List Watched :=
  let dim := 2 ^ ((setOfKeys s p.ctx (latKeys p)).map (fun x => x.log2N)).getD 0
  let size := ((setOfKeys s p.ctx (latKeys p)).map ctSize).getD 1
  let n := latCount p
  [⟨latDst p, size, latDstFirst p, n, true⟩, ⟨latA p, if o.aPlain then dim else size, latAFirst p, n, false⟩] ++
  (match o.bUse with
  | 0 => []
  | 1 => [⟨latB p, size, latBFirst p, n, false⟩]
  | _ => [⟨latB p, dim, latBFirst p, n, false⟩])

/-- The work of an opcode of the layout on its operands, by the plan of its outputs. -/
def latWork (o : LatOp) (p : Packet) (s : State) (set : ParamSet) (d a b : Cask) (plan : List (Nat × Nat))
    (scratch : Option Nat) : State × Done :=
  if s.int.faulted.contains (p.ctx, d.id) then
    (latFaulted s p.ctx d.id (latDstFirst p) (latCount p) scratch, .answer { status := .integrityFault })
  else
    let r := latEffect o p s set d a b plan
    (r.1, .answer r.2)

/-- Steps 7 and 8 and the work of the opcodes of the layout. -/
def latBody (o : LatOp) (p : Packet) (s : State) : Except Refused (State × Done) := do
  let ((d, a, b), set, plan) ← latChecks o p s
  .ok (latWork o p s set d a b plan (scratchUsed o p s))

/-- The plan that an admitted opcode keeps until it completes (R268, R270). -/
def latPlanned (o : LatOp) (p : Packet) (s : State) : List (Nat × Nat) :=
  match latChecks o p s with
  | .ok r => r.2.2
  | .error _ => []

/-- The completion of an opcode that was checked and planned at dispatch: nothing is judged again (R270). -/
def latComplete (o : LatOp) (w : Outstanding) (p : Packet) (s : State) : Except Refused (State × Done) := do
  let d ← want (caskOf s p.ctx (latDst p)) .badState 1
  let a ← want (caskOf s p.ctx (latA p)) .badState 1
  let b ← (if o.bUse = 0 then .ok a else want (caskOf s p.ctx (latB p)) .badState 1)
  let set ← want (setOfKeys s p.ctx (latKeys p)) .badState 1
  .ok (latWork o p s set d a b w.plan w.scratch)

/-- A command of the layout. -/
def latCmd (o : LatOp) (draw : Packet → State → Option (Nat × Nat) := fun _ _ => none) : Cmd where
  op := o.code
  names p _ := latNames p
  access := latAccess o
  form := latForm o
  state := latState o
  draw := draw
  ready p s := (latChecks o p s).map (fun _ => ())
  works := true
  watch := latWatch o
  scratch := scratchUsed o
  plan := latPlanned o
  complete := latComplete o
  body := latBody o

end Sys2Proof.Machine
end

