-- ==== Sys2Proof/Machine/LatticeSets.lean ====
section
/-! DEFINITION. Parameter sets, key sets, evaluation keys and ciphertext Casks: commands 0x0301 to 0x0307
(R243 to R253, R261 to R263, R276, R277). -/

set_option autoImplicit false

namespace Sys2Proof.Machine

/-! ### LAT_PARAM_LOAD (R243 to R247) -/

/-- The parameter set a descriptor spells (R245). -/
def setOfBytes (index : Nat) (b : List Byte) : ParamSet where
  index := index
  construction := field b 0 1
  log2N := field b 1 1
  limbs := field b 2 1
  special := field b 3 1
  dnum := field b 4 1
  secret := field b 5 1
  weight := field b 6 2
  sigma := field b 8 2
  n := field b 10 2
  pMin := field b 12 2
  mu := field b 14 2
  t := field b 16 8
  moduli := (List.range (field b 2 1 + field b 3 1)).map (fun i => field b (24 + 8 * i) 8)
  digest := Crypto.sha256 b

/-- Modulus i suits the plaintext modulus t, which lies below q_0 and is coprime with every modulus (R244). -/
def plainModulusOk (p : ParamSet) (i : Nat) : Bool :=
  (i != 0 || p.t < p.moduli.getD 0 0) && Nat.gcd p.t (p.moduli.getD i 0) == 1

/-- Fields of a descriptor with their offsets in it, and whether each is right (R243 to R247). A combination of fields stands at
its latest member: k below alpha at dnum, t against a modulus at that modulus (R25). -/
def descriptorFields (p : ParamSet) : List (Nat × Bool) :=
  let lwe := p.construction == 2
  let ckks := p.construction == 1
  List.append (α := Nat × Bool) [(0, p.construction ≤ 2), (1, if lwe then p.log2N == 0 else 12 ≤ p.log2N && p.log2N ≤ 17),
   (2, if lwe then p.limbs == 1 else 1 ≤ p.limbs && p.limbs ≤ 64),
   (3, if lwe then p.special == 0 else p.special ≤ 16 &&
     (p.special == 0 || (5 * p.limbs + 3 * p.special) * 2 ^ p.log2N * 8 ≤ 248 * 2 ^ 20)),
   (4, if p.special = 0 then p.dnum == 0 else 1 ≤ p.dnum && p.dnum ≤ p.limbs && setAlpha p ≤ p.special),
   (5, p.secret ≤ 1 || (p.secret == 2 && lwe)), (6, p.secret == 1 || p.weight == 0),
   (10, if lwe then 256 ≤ p.n && p.n ≤ 4096 else p.n == 0),
   (12, ckks || p.pMin == 0), (14, ckks || p.mu == 0),
   (16, if ckks then p.t == 0 else 2 ≤ p.t)] <|
  (List.range p.moduli.length).map (fun i =>
    (24 + 8 * i, goodModulus p.construction (2 ^ p.log2N) (p.moduli.getD i 0) &&
      !(p.moduli.take i).contains (p.moduli.getD i 0) && (ckks || plainModulusOk p i)))

/-- The set a LAT_PARAM_LOAD carries. -/
def loadedSet (p : Packet) : ParamSet := setOfBytes (p.u8 0) (p.params.drop 8)

def primesUsed (g : Glove) : Nat := sumOf (fun p => p.limbs + p.special) g.params

def cmdLatParamLoad : Cmd where
  op := 0x0301
  names p _ := [.paramSet p.ctx (p.u8 0)]
  form p _ := formError p (32 ≤ p.len && p.len == 32 + 8 * (p.u8 10 + p.u8 11)) false
    (([(0, p.u8 0 ≤ 7), (1, p.num 1 7 == 0)] : List (Nat × Bool)) ++ (descriptorFields (loadedSet p)).map (fun f => (8 + f.1, f.2)))
  state p s := need (paramSetOf s p.ctx (p.u8 0)).isNone .badState
  body p s := do
    let set := loadedSet p
    let g := gloveOf s p.ctx
    need (primesUsed g + set.limbs + set.special ≤ g.cfg.primes) .noResource
    let s1 := setGlove s p.ctx (fun x => { x with params := x.params ++ [set] })
    let scratch := if set.construction = 2 then 0 else scratchNeed set set.limbs
    .ok (s1, okWith scratch (set.limbs + set.special)
      (noiseField (topBudget set) + 2 ^ 16 * noiseField (noiseFresh set)) (noiseSwitch set set.limbs))

/-- LAT_PARAM_LOAD. -/
def execLatParamLoad (p : Packet) (s : State) : Host.Outcome State Fault Refusal := runCmd cmdLatParamLoad p s

/-! ### LAT_UNLOAD and LAT_KEYSET_CREATE (R261) -/

/-- Something refers to a parameter set: a key set, by its own set or its LWE set; ciphertext Casks and
Vintages refer to it through their key set. -/
def setReferred (s : State) (g i : Nat) : Bool :=
  (gloveOf s g).keySets.any (fun k => k.set == i ||
    ((k.refresh.map (fun r => r.lookup && r.lweSet == i)).getD false))

/-- A bound Cask, or a Vintage that is not terminal, refers to a key set. -/
def keySetReferred (s : State) (g ks : Nat) : Bool :=
  s.casks.any (fun c => c.glove == g && ((c.binding.map (fun b => b.keySet == ks)).getD false)) ||
  s.vintages.any (fun v => v.glove == g && v.encrypted && !terminalState v.state && v.keySet == ks)

def cmdLatUnload : Cmd where
  op := 0x0302
  names p _ := [if p.u8 0 = 0 then .paramSet p.ctx (p.u32 4) else .keySet p.ctx (p.u32 4)]
  form p _ := formError p (p.len = 8) false
    [(0, p.u8 0 ≤ 1), (1, p.num 1 3 == 0), (4, p.u8 0 == 1 || p.u32 4 ≤ 7)]
  state p s := do
    if p.u8 0 = 0 then
      need (paramSetOf s p.ctx (p.u32 4)).isSome .badState 1
      need (!setReferred s p.ctx (p.u32 4)) .badState 2
    else
      need (keySetOf s p.ctx (p.u32 4)).isSome .badState 1
      need (!keySetReferred s p.ctx (p.u32 4)) .badState 2
  body p s :=
    .ok (setGlove s p.ctx (fun x =>
      if p.u8 0 = 0 then { x with params := x.params.filter (fun q => q.index != p.u32 4) }
      else { x with keySets := x.keySets.filter (fun k => k.id != p.u32 4) }), okWith)

/-- LAT_UNLOAD. -/
def execLatUnload (p : Packet) (s : State) : Host.Outcome State Fault Refusal := runCmd cmdLatUnload p s

def cmdLatKeysetCreate : Cmd where
  op := 0x0303
  names p _ := [.keySet p.ctx (p.u32 0), .paramSet p.ctx (p.u8 4)]
  form p _ := formError p (p.len = 8) false [(0, p.u32 0 != 0), (4, p.u8 4 ≤ 7), (5, p.num 5 3 == 0)]
  state p s := need ((keySetOf s p.ctx (p.u32 0)).isNone && (paramSetOf s p.ctx (p.u8 4)).isSome) .badState
  body p s := do
    need ((gloveOf s p.ctx).keySets.length < 16) .noResource
    .ok (setGlove s p.ctx (fun x => { x with keySets := x.keySets ++ [{ id := p.u32 0, set := p.u8 4 }] }), okWith)

/-- LAT_KEYSET_CREATE. -/
def execLatKeysetCreate (p : Packet) (s : State) : Host.Outcome State Fault Refusal := runCmd cmdLatKeysetCreate p s

/-! ### LAT_EVK_LOAD (R262, R263, R276, R277) -/

/-- The layout of one kind and element: for each record, the moduli of its blocks in order, the values per
block, and whether the blocks follow R263 (digit and limb) or R277 (kind, record and limb). -/
structure KeyShape where
  records : Nat
  moduli : List Nat
  block : Nat
  /-- the length of a block's random half where it differs from `block` -/
  aLength : Nat
  digits : Bool
deriving DecidableEq, Repr

/-- The shape of a key for a key set; none for a kind or element out of range, or one the set cannot use
(notes/assumptions/31.md). -/
def keyShape (s : State) (g : Nat) (k : KeySet) (set : ParamSet) (kind element : Nat) : Option KeyShape :=
  let n := 2 ^ set.log2N
  let ring := set.construction != 2
  let lwe := (k.refresh.filter (fun r => r.lookup)).bind (fun r => (paramSetOf s g r.lweSet).map (fun q => (r, q)))
  match kind with
  | 0 => if ring && element == 0 then some ⟨1, activeModuli set set.limbs, n, n, true⟩ else none
  | 1 => if ring && element == 0 && set.dnum != 0 then
      some ⟨set.dnum, specialModuli set ++ activeModuli set set.limbs, n, n, true⟩ else none
  | 2 => if ring && set.dnum != 0 && element % 2 == 1 && 3 ≤ element && element < 2 * n then
      some ⟨set.dnum, specialModuli set ++ activeModuli set set.limbs, n, n, true⟩ else none
  | 3 => lwe.bind (fun x =>
      if element = 0 then
        some ⟨(2 ^ x.1.u - 1) * ceilDiv x.2.n x.1.u * (2 * x.1.lb), [x.2.moduli.getD 0 1], 2 ^ x.1.log2Nb, 2 ^ x.1.log2Nb, false⟩
      else none)
  | 4 => lwe.bind (fun x =>
      if element = 0 then
        if ring then some ⟨1, specialModuli set ++ [set.moduli.getD 0 1], n, n, false⟩ else none
      else if element = 1 then some ⟨2 ^ x.1.log2Nb * x.1.ls, [x.2.moduli.getD 0 1], 1, x.2.n, false⟩
      else none)
  | 5 => lwe.bind (fun x =>
      if element = 0 ∧ ring then some ⟨x.2.n, activeModuli set set.limbs, n, n, false⟩ else none)
  | _ => none

/-- b values of a key. -/
def keyValues (k : KeyShape) : Nat := k.records * k.moduli.length * k.block

/-- The modulus of the value at an index. -/
def valueModulus (k : KeyShape) (i : Nat) : Nat := k.moduli.getD (i / max 1 k.block % max 1 k.moduli.length) 1

/-- The suffix that names a block to SHAKE128 (R263, R277). -/
def blockName (k : KeyShape) (kind record limb : Nat) : List Byte :=
  if k.digits then toLE 1 record ++ toLE 1 limb else toLE 1 kind ++ toLE 4 record ++ toLE 1 limb

/-- The a-block of one record and limb (R263): masked draws below the modulus, at most `n` of them. -/
def aBlock (seed name : List Byte) (q n : Nat) : List Nat :=
  let stream := Crypto.shake128 (seed ++ ascii "LQ-EVK-A-V1" ++ name) (8 * (n + n / 128))
  (((pieces 8 stream).map (fun w => leNat w % 2 ^ (Nat.log2 q + 1))).filter (· < q)).take n

/-- Every block has its full count of accepted values. -/
def blocksFull (k : KeyShape) (kind : Nat) (seed : List Byte) : Bool :=
  (List.range k.records).all (fun r => (List.range k.moduli.length).all (fun l =>
    (aBlock seed (blockName k kind r l) (k.moduli.getD l 1) k.aLength).length == k.aLength))

def evkCount (g : Glove) : Nat := sumOf (fun k => k.keys.length) g.keySets

/-- The limit of 4,096 keys is judged before the object is read; its LPDDR, which its kind gives, right after those. -/
def cmdLatEvkLoad : Cmd where
  op := 0x0304
  names p _ := [.keySet p.ctx (p.u32 0), .window (p.u32 4 / 256)]
  access p s := windowCheck s p.ctx (p.u32 4) rightRead (p.u64 8) 96 (p.len == 16)
  form p _ := formError p (p.len = 16) false []
  state p s := need (keySetOf s p.ctx (p.u32 0)).isSome .badState
  body p s := do
    let k ← want (keySetOf s p.ctx (p.u32 0)) .badState
    let set ← want (paramSetOf s p.ctx k.set) .badState
    need (evkCount (gloveOf s p.ctx) < 4096) .noResource
    let (head, s1) ← readWindow s p.ctx (p.u32 4) (p.u64 8) 96
    let kind := field head 36 1
    let element := field head 40 4
    let shape ← want (keyShape s p.ctx k set kind element) .badParam 68
    let count := keyValues shape
    let mib := mib2 (8 * count)
    need (!hasKey k kind element) .badState
    need (lpddrFits s p.ctx mib) .noResource
    need (allZero (slice head 37 3) && allZero (slice head 44 20)) .badParam 68
    let (body, s2) ← readWindow s1 p.ctx (p.u32 4) (p.u64 8 + 96) (8 * count)
    let values := (pieces 8 body).map leNat
    need ((List.zip (List.range count) values).all (fun x => x.2 < valueModulus shape x.1)) .badParam 68
    let seed := slice head 64 32
    need (blocksFull shape kind seed) .badParam 68
    need (slice head 0 32 == set.digest && field head 32 4 == k.id) .keyMismatch
    let key : EvalKey := {
      kind := kind, element := element, seed := seed, mib := mib
      b := (List.zip (List.range count) values).filter (fun x => x.2 != 0) }
    .ok (setKeySet s2 p.ctx k.id (fun k => { k with keys := k.keys ++ [key] }), okWith mib)

/-- LAT_EVK_LOAD. -/
def execLatEvkLoad (p : Packet) (s : State) : Host.Outcome State Fault Refusal := runCmd cmdLatEvkLoad p s

/-! ### LAT_BIND, LAT_IMPORT and LAT_HDR_READ (R248 to R253) -/

def cmdLatBind : Cmd where
  op := 0x0305
  names p _ := [.cask p.ctx (p.u16 0), .keySet p.ctx (p.u32 4)]
  access p s := do
    need (caskInRange s p.ctx (p.u16 0)) .accessViolation
    need (p.len != 16 || (keySetOf s p.ctx (p.u32 4)).isSome) .accessViolation
  form p s :=
    let acc := ((caskOf s p.ctx (p.u16 0)).map (fun c => c.role == 0)).getD false
    let ckks := ((setOfKeys s p.ctx (p.u32 4)).map (fun x => x.construction == 1)).getD false
    formError p (p.len = 16) false
      [(2, p.u8 2 ≤ 1), (3, p.u8 3 == 0), (8, p.u16 8 == 0 || (acc && ckks)), (10, p.num 10 6 == 0)]
  state p s := do
    let c ← want ((caskOf s p.ctx (p.u16 0)).filter (fun c => c.ring == 3 && c.binding.isNone && !c.withheld)) .badState 1
    let set ← want (setOfKeys s p.ctx (p.u32 4)) .badState 2
    need (c.limbs ≤ set.limbs && c.moduli == activeModuli set c.limbs) .badState 2
    need (c.n % ctSize set == 0) .badState 3
    need (c.role != 0 ||
      ((vintageOf s p.ctx c.vintage).map (fun v => v.encrypted && v.state == .draft)).getD false) .badState 4
  body p s := do
    let c ← want (caskOf s p.ctx (p.u16 0)) .badState 1
    let set ← want (setOfKeys s p.ctx (p.u32 4)) .badState 2
    let count := c.n / ctSize set
    let mib := mib2 (64 * count)
    need (lpddrFits s p.ctx mib) .noResource
    need (c.role != 0 || ((vintageOf s p.ctx c.vintage).map (fun v => v.keySet == p.u32 4)).getD true) .keyMismatch 3
    let serial := (gloveOf s p.ctx).serial
    let header (i : Nat) : CtHeader := {
      digest := set.digest, keySet := p.u32 4, state := if c.role = 0 then 2 else 0, level := c.limbs - 1
      engineSum := false, ntt := p.u8 2 == 1, refreshed := false, construction := set.construction
      scale := p.u16 8, noise := if c.role = 0 then noiseField (noiseFresh set) else 0, cohort := 0, vintage := 0
      epoch := s.fw.epoch, serial := serial + i }
    let b : Binding := {
      keySet := p.u32 4, ntt := p.u8 2 == 1, level := c.limbs - 1, scale := p.u16 8, size := ctSize set
      headers := (List.range count).map header }
    let s1 := setCask s p.ctx c.id (fun c => { c with binding := some b, lpddr := c.lpddr + mib })
    .ok (setGlove s1 p.ctx (fun x => { x with serial := x.serial + count }), okWith count (c.limbs - 1))

/-- LAT_BIND. -/
def execLatBind (p : Packet) (s : State) : Host.Outcome State Fault Refusal := runCmd cmdLatBind p s

/-- A bound Cask's key set has a CKKS parameter set. -/
def boundCkks (s : State) (g cask : Nat) : Bool :=
  (((caskOf s g cask).bind (fun c => c.binding)).bind (fun b => setOfKeys s g b.keySet)).any (fun x => x.construction == 1)

def cmdLatImport : Cmd where
  op := 0x0306
  names p _ := [.cask p.ctx (p.u16 0)]
  access p s := need (caskInRange s p.ctx (p.u16 0)) .accessViolation
  form p s := formError p (p.len = 16) false
    [(2, p.u16 2 == 0 || boundCkks s p.ctx (p.u16 0)), (8, 1 ≤ p.u32 8), (12, p.u32 12 == 0)]
  state p s := do
    need (!((caskOf s p.ctx (p.u16 0)).map (fun c => c.withheld)).getD false) .badState 1
    let c ← want ((caskOf s p.ctx (p.u16 0)).filter (fun c => c.binding.isSome && c.role != 0)) .badState
    need (p.u32 4 + p.u32 8 ≤ ctCount c) .badState
  body p s := do
    let c ← want (caskOf s p.ctx (p.u16 0)) .badState
    let b ← want c.binding .badState
    let set ← want (setOfKeys s p.ctx b.keySet) .badState
    let serial := (gloveOf s p.ctx).serial
    let header (i : Nat) : CtHeader := {
      digest := set.digest, keySet := b.keySet, state := 1, level := b.level, engineSum := false, ntt := b.ntt
      refreshed := false, construction := set.construction, scale := p.u16 2, noise := noiseField (noiseFresh set)
      cohort := 0, vintage := 0, epoch := s.fw.epoch, serial := serial + i }
    let s1 := setCask s p.ctx c.id (fun c =>
      (List.range (p.u32 8)).foldl (fun c i => putHeader c (p.u32 4 + i) (header i)) c)
    .ok (setGlove s1 p.ctx (fun x => { x with serial := x.serial + p.u32 8 }), okWith)

/-- LAT_IMPORT. -/
def execLatImport (p : Packet) (s : State) : Host.Outcome State Fault Refusal := runCmd cmdLatImport p s

/-- The 64 bytes of a header (R253). -/
def headerBytes (h : CtHeader) : List Byte :=
  padTo 32 h.digest ++ toLE 4 h.keySet ++ toLE 1 h.state ++ toLE 1 h.level ++
  toLE 1 (b2n h.engineSum + 2 * b2n h.ntt + 4 * b2n h.refreshed) ++ toLE 1 h.construction ++ toLE 2 h.scale ++
  toLE 2 h.noise ++ toLE 4 h.cohort ++ toLE 4 h.vintage ++ toLE 4 h.epoch ++ toLE 8 h.serial

def cmdLatHdrRead : Cmd where
  op := 0x0307
  names p _ := [.cask p.ctx (p.u16 0), .window (p.u32 12 / 256)]
  access p s := do
    need (caskInRange s p.ctx (p.u16 0)) .accessViolation
    windowCheck s p.ctx (p.u32 12) rightWrite (p.u64 16) (64 * p.u32 8) (p.len == 24)
  form p _ := formError p (p.len = 24) false [(2, p.u16 2 == 0), (8, 1 ≤ p.u32 8)]
  state p s := do
    need (!((caskOf s p.ctx (p.u16 0)).map (fun c => c.withheld)).getD false) .badState 1
    let c ← want ((caskOf s p.ctx (p.u16 0)).filter (fun c => c.binding.isSome)) .badState
    need (p.u32 4 + p.u32 8 ≤ ctCount c) .badState
  body p s := do
    let c ← want (caskOf s p.ctx (p.u16 0)) .badState
    let s1 ← writeWindow s p.ctx (p.u32 12) (p.u64 16) ((headersOf c (p.u32 4) (p.u32 8)).flatMap headerBytes)
    .ok (s1, okWith)

/-- LAT_HDR_READ. -/
def execLatHdrRead (p : Packet) (s : State) : Host.Outcome State Fault Refusal := runCmd cmdLatHdrRead p s

end Sys2Proof.Machine
end

