-- ==== Sys2Proof/Machine/Lattice.lean ====
section
/-! DEFINITION. The arithmetic opcodes 0x0310 to 0x0319 (R249, R254, R255, R265 to R268). Outputs of LAT_ADD,
LAT_SUB, LAT_MUL_CONST, LAT_MUL_PLAIN, LAT_LEVEL_DROP and LAT_FORM are exact; the manual does not determine the
residues of the others, which are free values (notes/assumptions/32.md). -/

set_option autoImplicit false

namespace Sys2Proof.Machine

/-- Free residues as an opcode's output. -/
def freeOut (op : Nat) (p : Packet) (set : ParamSet) (draw : Nat) (d : Cask) (limb i : Nat) : List Nat :=
  freePoly op draw (ctSize set) d limb (latDstFirst p + i)

/-- Residue by residue, A with B. -/
def pairOut (f : Nat → Nat → Nat → Nat) (p : Packet) (_ : State) (set : ParamSet) (_ : Nat) (a b : Cask) (limb i : Nat) : List Nat :=
  let q := a.moduli.getD limb 1
  List.zipWith (f q) (polyOf a (ctSize set) limb (latAFirst p + i)) (polyOf b (ctSize set) limb (latBFirst p + i))

/-! ### LAT_ADD and LAT_SUB -/

def latAdd : LatOp where
  code := 0x0310
  bUse := 1
  constructions := [0, 1, 2]
  noise _ _ _ a b := oplus a.noise b.noise
  out := pairOut addMod

/-- LAT_ADD. -/
def execLatAdd (p : Packet) (s : State) : Host.Outcome State Fault Refusal := runCmd (latCmd latAdd) p s

def latSub : LatOp where
  code := 0x0311
  bUse := 1
  constructions := [0, 1, 2]
  noise _ _ _ a b := oplus a.noise b.noise
  out := pairOut subMod

/-- LAT_SUB. -/
def execLatSub (p : Packet) (s : State) : Host.Outcome State Fault Refusal := runCmd (latCmd latSub) p s

/-! ### LAT_MUL_CONST and LAT_MUL_PLAIN -/

/-- The signed constant. -/
def latConstant (p : Packet) : Int := signed 64 (latConst p)

def latMulConst : LatOp where
  code := 0x0312
  constructions := [0, 1, 2]
  useConst := true
  noise p _ _ a _ := a.noise + logUp (max 1 (latConstant p).natAbs) 1
  out p _ set _ a _ limb i :=
    let q := a.moduli.getD limb 1
    let c := (latConstant p % (q : Int)).toNat
    (polyOf a (ctSize set) limb (latAFirst p + i)).map (fun x => x * c % max 1 q)

/-- LAT_MUL_CONST. -/
def execLatMulConst (p : Packet) (s : State) : Host.Outcome State Fault Refusal := runCmd (latCmd latMulConst) p s

def latMulPlain : LatOp where
  code := 0x0313
  bUse := 2
  argOk _ _ := true
  useScale := true
  needNtt := true
  noise p _ set a _ := a.noise + latArg p + 256 * set.log2N
  scale p _ a _ := a.scale + latScale p
  out p _ set _ a b limb i :=
    let q := a.moduli.getD limb 1
    let n := 2 ^ set.log2N
    let plain := polyOf b n limb (latBFirst p + i)
    List.zipWith (fun x y => x * y % max 1 q) (polyOf a (2 * n) limb (latAFirst p + i)) (plain ++ plain)

/-- LAT_MUL_PLAIN. -/
def execLatMulPlain (p : Packet) (s : State) : Host.Outcome State Fault Refusal := runCmd (latCmd latMulPlain) p s

/-! ### LAT_MUL and LAT_ROTATE -/

/-- The bound of a product (R266). -/
def mulNoise (set : ParamSet) (a b : CtHeader) : Nat :=
  let ks := noiseSwitch set (a.level + 1)
  if set.construction = 1 then
    oplus (oplus (oplus (a.noise + 4 * b.scale + set.mu) (b.noise + 4 * a.scale + set.mu)) (a.noise + b.noise)) ks
  else oplus (max a.noise b.noise + logUp set.t 1 + 256 * set.log2N + noiseRescale set + 512) ks

def latMul : LatOp where
  code := 0x0314
  waves := true
  bUse := 1
  keys _ := [(1, 0)]
  scratch := scratchNeed
  noise _ _ set a b := mulNoise set a b
  scale _ _ a b := a.scale + b.scale
  out p _ set draw a _ limb i := freeOut 0x0314 p set draw a limb i

/-- LAT_MUL. -/
def execLatMul (p : Packet) (s : State) : Host.Outcome State Fault Refusal := runCmd (latCmd latMul) p s

/-- The dimension of the operands' ring, for the range of a Galois element. -/
def latDim (p : Packet) (s : State) : Nat := 2 ^ ((setOfKeys s p.ctx (latKeys p)).map (fun x => x.log2N)).getD 0

def latRotate : LatOp where
  code := 0x0315
  waves := true
  argOk p s := latArg p % 2 == 1 && latArg p != 1 && latArg p < 2 * latDim p s
  keys p := [(2, latArg p)]
  scratch := scratchNeed
  noise _ _ set a _ := oplus a.noise (noiseSwitch set (a.level + 1))
  out p _ set draw a _ limb i := freeOut 0x0315 p set draw a limb i

/-- LAT_ROTATE. -/
def execLatRotate (p : Packet) (s : State) : Host.Outcome State Fault Refusal := runCmd (latCmd latRotate) p s

/-! ### LAT_RESCALE and LAT_LEVEL_DROP -/

/-- The top active modulus at a level, its logarithm rounded down. -/
def topModulusLog (set : ParamSet) (level : Nat) : Nat := logDown (set.moduli.getD level 1)

/-- The bound after dropping the top modulus (R266). -/
def rescaleNoise (set : ParamSet) (level noise : Nat) : Nat :=
  oplus (noise - topModulusLog set level)
    (if set.construction = 1 then noiseRescale set else noiseRescale set + logUp set.t 1)

def latRescale : LatOp where
  code := 0x0316
  waves := true
  outLevel _ _ l := if l = 0 then none else some (l - 1)
  scratch := scratchNeed
  copies := true
  noise _ _ set a _ := rescaleNoise set a.level a.noise
  scale _ set a _ := (4 * a.scale - topModulusLog set a.level) / 4
  out p _ set draw a _ limb i := freeOut 0x0316 p set draw a limb i

/-- LAT_RESCALE. -/
def execLatRescale (p : Packet) (s : State) : Host.Outcome State Fault Refusal := runCmd (latCmd latRescale) p s

/-- Level of the operand A. -/
def latLevel (p : Packet) (s : State) : Option Nat :=
  ((caskOf s p.ctx (latA p)).bind (fun c => c.binding)).map (fun b => b.level)

def latLevelDrop : LatOp where
  code := 0x0317
  constructions := [1]
  argOk p s := 1 ≤ latArg p && ((latLevel p s).map (fun l => decide (latArg p ≤ l))).getD true
  outLevel p _ l := if l < latArg p then none else some (l - latArg p)
  copies := true
  noise _ _ _ a _ := a.noise
  out p _ set _ a _ limb i := polyOf a (ctSize set) limb (latAFirst p + i)

/-- LAT_LEVEL_DROP. -/
def execLatLevelDrop (p : Packet) (s : State) : Host.Outcome State Fault Refusal := runCmd (latCmd latLevelDrop) p s

/-! ### LAT_FORM and LAT_ENCRYPT_PK -/

/-- Both components of a ciphertext in the other form, or as they are. -/
def formOut (p : Packet) (_ : State) (set : ParamSet) (_ : Nat) (a _ : Cask) (limb i : Nat) : List Nat :=
  let n := 2 ^ set.log2N
  let q := a.moduli.getD limb 1
  let x := polyOf a (2 * n) limb (latAFirst p + i)
  let ntt := (a.binding.map (fun b => b.ntt)).getD false
  if ntt = (latArg p == 1) then x
  else
    let f := if latArg p = 1 then nttForward q set.log2N else nttInverse q set.log2N
    f (x.take n) ++ f (x.drop n)

def latForm_ : LatOp where
  code := 0x0318
  waves := true
  argOk p _ := latArg p ≤ 1
  formOf p := some (latArg p == 1)
  scratch := scratchNeed
  copies := true
  noise _ _ _ a _ := a.noise
  out := formOut

/-- LAT_FORM. -/
def execLatForm (p : Packet) (s : State) : Host.Outcome State Fault Refusal := runCmd (latCmd latForm_) p s

def latEncryptPk : LatOp where
  code := 0x0319
  waves := true
  aPlain := true
  useScale := true
  keys _ := [(0, 0)]
  scratch := scratchNeed
  extra _ s := entropyReady s
  noise _ _ set _ _ := noiseFresh set
  scale p _ _ _ := latScale p
  out p _ set draw a _ limb i := freeOut 0x0319 p set draw a limb i

/-- LAT_ENCRYPT_PK draws its randomness at rank 3 (R388). -/
def encryptDraw (p : Packet) (s : State) : Option (Nat × Nat) :=
  some (3, Config.encryptBlocks (latDim p s) (latCount p))

/-- LAT_ENCRYPT_PK. -/
def execLatEncryptPk (p : Packet) (s : State) : Host.Outcome State Fault Refusal :=
  runCmd (latCmd latEncryptPk encryptDraw) p s

end Sys2Proof.Machine
end

