-- ==== Sys2Proof/Machine/Refresh.lean ====
section
/-! DEFINITION. Refresh and lookup: commands 0x0401 to 0x0412 (R275 to R291). The residues of a packed refresh
are free values; those of a programmable refresh and of a scheme switch are free but for the message or the slot values
that they carry (R282 to R287, notes/assumptions/32.md). -/

set_option autoImplicit false

namespace Sys2Proof.Machine

/-! ### The wave time of the packed refresh (R257 to R259, R279)

Durations are whole numbers of 1 ns / (2240 × slots × channels). -/

/-- Cycles of one block NTT of N residues (R257). -/
def nttCycles (log2N : Nat) : Nat := 2 ^ log2N * log2N / 1024

/-- A duration given in cycles of the arrays at the Glove's slots. -/
def cyclesTime (ch cycles : Nat) : Nat := cycles * 4 * 448 * 256 * ch

/-- One key switch at l active limbs, with further multiplies in units of N (R258, R259, R279). -/
def switchTime (p : ParamSet) (slots ch l extra : Nat) : Nat :=
  let n := 2 ^ p.log2N
  let k := p.special
  let d := keyDigits p l
  let squares := sumOf (fun i => min (setAlpha p) (l - i * setAlpha p) ^ 2) (List.range d)
  let kb := d * (l + k) + 2 * k + 2 * l
  let km := l * (l + k) - squares + 2 * d * (l + k) + 2 * k * l + extra
  let kk := d * (l + k) * n * 8
  let kx := d * (l + k) * (n + n / 128) * 8
  max (max (cyclesTime ch (kb * nttCycles p.log2N + km * n / 1024)) (kk * 7 * slots * ch))
    (max (kk * 105 * slots) (kx * 8 * 256 * ch))

/-- A rescale at l limbs. -/
def rescaleTime (p : ParamSet) (ch l : Nat) : Nat :=
  cyclesTime ch (2 * l * nttCycles p.log2N + 2 * (l - 1) * (2 ^ p.log2N / 1024))

/-- One linear transform of r levels from l limbs down. -/
def transformTime (p : ParamSet) (slots ch r l : Nat) : Nat :=
  let rho := transformRho p.log2N r
  sumOf (fun d =>
    let m := l - d
    ((transformG rho - 1) + (transformGG rho - 1)) * switchTime p slots ch m 0 +
    cyclesTime ch ((2 * rho - 1) * (m * nttCycles p.log2N + 2 * m * (2 ^ p.log2N / 1024) + 2 * m * 2 ^ p.log2N / 2048)) +
    rescaleTime p ch m) (List.range r)

/-- The modular evaluation of e levels from l limbs down. -/
def evaluationTime (p : ParamSet) (slots ch e l : Nat) : Nat :=
  sumOf (fun d =>
    let m := l - d
    (if d < e - 4 then 2 else 1) * switchTime p slots ch m (4 * m) + rescaleTime p ch m) (List.range e) +
  cyclesTime ch (3 * e * (2 * l * (2 ^ p.log2N / 1024) + 2 * l * 2 ^ p.log2N / 2048))

/-- The packed wave in µs, rounded up. -/
def packedWave (p : ParamSet) (slots ch : Nat) (r : RefreshCfg) : Nat :=
  let total := cyclesTime ch ((2 + 2 * p.limbs) * nttCycles p.log2N) +
    transformTime p slots ch r.rc p.limbs + switchTime p slots ch (p.limbs - r.rc) 0 +
    evaluationTime p slots ch r.e (p.limbs - r.rc) + transformTime p slots ch r.rs (p.limbs - r.rc - r.e)
  ceilDiv total (2240 * slots * ch * 1000)

/-- t_lwe in cycles (R285). -/
def tLwe (r : RefreshCfg) (n : Nat) : Nat :=
  let nb := 2 ^ r.log2Nb
  let step := ((2 * r.lb + 2) * (nb / 2) * r.log2Nb + 2 ^ r.u * 4 * r.lb * nb) / 2048
  max (ceilDiv n r.u * step + 64) (ceilDiv (nb * r.ls * (n + 1)) 1024)

/-! ### REFRESH_SETUP (R275, R282, R284) -/

/-- The configuration that the bytes spell; B_lwe, P_max and P_ss follow from them by formulas the manual does
not give. -/
def refreshOf (s : State) (p : Packet) : RefreshCfg :=
  let b := p.bytes 4 20
  let n := ((paramSetOf s p.ctx (p.u8 14)).map (fun q => q.n)).getD 0
  { packed := (p.u8 4).testBit 0, lookup := (p.u8 4).testBit 1, rc := p.u8 5, rs := p.u8 6, e := p.u8 7
    log2Nb := p.u8 8, lb := p.u8 9, u := p.u8 11, ls := p.u8 12, lweSet := p.u8 14
    tMax := 2 ^ ((tMaxLog (p.u8 8) n).getD 0), rMs := refreshRms n, bLwe := Config.refreshBlwe b % 65536
    pMax := Config.refreshPmax b % 256, pSs := Config.refreshPss b % 256 }

/-- A gadget covers the modulus of the LWE set, where that is loaded. -/
def gadgetCovers (s : State) (p : Packet) (digits base : Nat) : Bool :=
  ((paramSetOf s p.ctx (p.u8 14)).map (fun q => decide (Nat.log2 (q.moduli.getD 0 1) + 1 ≤ digits * base))).getD true

/-- t is a power of two, up to t_max. -/
def lweTOk (s : State) (p : Packet) : Bool :=
  ((paramSetOf s p.ctx (p.u8 14)).map (fun q =>
    q.construction != 2 || (2 ^ Nat.log2 q.t == q.t &&
      ((tMaxLog (p.u8 8) q.n).map (fun m => decide (q.t ≤ 2 ^ m))).getD false))).getD true

/-- Refreshes can be chained: B_lwe meets the input condition of R284. -/
def chainOk (s : State) (p : Packet) : Bool :=
  ((paramSetOf s p.ctx (p.u8 14)).map (fun q =>
    lweInput (refreshOf s p) (q.moduli.getD 0 1) (refreshOf s p).bLwe)).getD true

/-- The LWE set is loaded, of construction 2, with a 32-bit prime congruent to 1 modulo 2 N_b. -/
def lweSetOk (s : State) (p : Packet) : Bool :=
  ((paramSetOf s p.ctx (p.u8 14)).map (fun q => q.construction == 2 && q.moduli.getD 0 0 < 2 ^ 32 &&
    q.moduli.getD 0 0 % (2 * 2 ^ p.u8 8) == 1)).getD false

def cmdRefreshSetup : Cmd where
  op := 0x0401
  names p _ := [.keySet p.ctx (p.u32 0)] ++ (if (p.u8 4).testBit 1 then [.paramSet p.ctx (p.u8 14)] else [])
  form p s :=
    let pk := (p.u8 4).testBit 0
    let lk := (p.u8 4).testBit 1
    let levels := ((setOfKeys s p.ctx (p.u32 0)).map (fun x => decide (p.u8 5 + p.u8 7 + p.u8 6 ≤ x.limbs - 1))).getD true
    let rng (used : Bool) (v lo hi : Nat) : Bool := if used then lo ≤ v && v ≤ hi else v == 0
    formError p (p.len = 24) false
      [(4, p.u8 4 < 4), (5, rng pk (p.u8 5) 2 4 && (!pk || levels)), (6, rng pk (p.u8 6) 2 4), (7, rng pk (p.u8 7) 6 10),
       (8, rng lk (p.u8 8) 10 12), (9, rng lk (p.u8 9) 1 4),
       (10, if lk then gadgetCovers s p (p.u8 9) (p.u8 10) else p.u8 10 == 0), (11, rng lk (p.u8 11) 1 3),
       (12, rng lk (p.u8 12) 1 8), (13, if lk then gadgetCovers s p (p.u8 12) (p.u8 13) else p.u8 13 == 0),
       (14, if lk then p.u8 14 ≤ 7 && lweTOk s p && chainOk s p else p.u8 14 == 0), (15, p.num 15 9 == 0)]
  state p s := do
    let k ← want (keySetOf s p.ctx (p.u32 0)) .badState 1
    need k.refresh.isNone .badState 1
    need (!(p.u8 4).testBit 1 || lweSetOk s p) .badState 2
    need (!(p.u8 4).testBit 0 || ((setOfKeys s p.ctx k.id).map (fun x => x.construction == 1)).getD false) .badState 3
  body p s := do
    let set ← want (setOfKeys s p.ctx (p.u32 0)) .badState 1
    let r := refreshOf s p
    let g := gloveOf s p.ctx
    let n := ((paramSetOf s p.ctx r.lweSet).map (fun q => q.n)).getD 0
    let s1 := setKeySet s p.ctx (p.u32 0) (fun k => { k with refresh := some r })
    .ok (s1, okWith
      ((if r.packed then packedLevel set.limbs r else 0xFF) + (if r.lookup then 2 ^ 8 * r.tMax + 2 ^ 16 * r.rMs else 0))
      (if r.packed then packedWave set (popcount 256 g.cfg.slots) (popcount 96 g.cfg.channels) r else 0)
      (if r.lookup then tLwe r n else 0)
      ((if r.lookup then r.bLwe + 2 ^ 24 * r.pSs else 0) + (if r.packed then 2 ^ 16 * r.pMax else 0)))

/-- REFRESH_SETUP. -/
def execRefreshSetup (p : Packet) (s : State) : Host.Outcome State Fault Refusal := runCmd cmdRefreshSetup p s

/-! ### LUT_LOAD and LUT_FREE (R283, R286) -/

def lutOf (k : KeySet) (i : Nat) : Option Lut := k.luts.find? (fun t => t.index == i)

/-- Lookup part and LWE set of a key set. -/
def lookupPart (s : State) (g ks : Nat) : Option (RefreshCfg × ParamSet) :=
  (((keySetOf s g ks).bind (fun k => k.refresh)).filter (fun r => r.lookup)).bind
    (fun r => (paramSetOf s g r.lweSet).map (fun q => (r, q)))

def lutsUsed (g : Glove) : Nat := sumOf (fun k => k.luts.length) g.keySets

def cmdLutLoad : Cmd where
  op := 0x0402
  names p _ := [.keySet p.ctx (p.u32 0), .lut p.ctx (p.u32 0) (p.u8 4), .window (p.u32 12 / 256)]
  access p s := do
    need (p.len != 24 || (keySetOf s p.ctx (p.u32 0)).isSome) .accessViolation
    windowCheck s p.ctx (p.u32 12) rightRead (p.u64 16) (4 * 2 ^ p.u8 6) (p.len == 24 && p.u8 6 < 32)
  form p s :=
    let part := lookupPart s p.ctx (p.u32 0)
    let lwe := p.u8 5 == 0
    formError p (p.len = 24) false
      [(4, p.u8 4 ≤ 31), (5, p.u8 5 ≤ 1),
       (6, 1 ≤ p.u8 6 && (part.map (fun x => decide (2 ^ p.u8 6 ≤ x.1.tMax) && (!lwe || 2 ^ p.u8 6 == x.2.t))).getD true),
       (7, !lwe || p.u8 7 == 0), (8, !lwe || p.u8 8 == 0), (9, p.num 9 3 == 0)]
  state p s := do
    need (lookupPart s p.ctx (p.u32 0)).isSome .badState
    need (((keySetOf s p.ctx (p.u32 0)).bind (fun k => lutOf k (p.u8 4))).isNone) .badState
  body p s := do
    let (r, lwe) ← want (lookupPart s p.ctx (p.u32 0)) .badState
    need (lutsUsed (gloveOf s p.ctx) < (gloveOf s p.ctx).cfg.luts) .noResource
    let t := 2 ^ p.u8 6
    let (bytes, s1) ← readWindow s p.ctx (p.u32 12) (p.u64 16) (4 * t)
    let entries := (pieces 4 bytes).map (fun e => signed 32 (leNat e))
    match (if p.u8 5 = 0 then posOf (fun x => decide (x < 0 ∨ (t : Int) ≤ x)) entries else none) with
    | some i => failWith { status := .badParam, detail := 76, r0 := i }
    | none =>
      let kib := 2 ^ r.log2Nb * 8 / 1024
      let lut : Lut := { index := p.u8 4, switchKind := p.u8 5 == 1, log2t := p.u8 6, r := signed 8 (p.u8 7),
                         exponent := signed 8 (p.u8 8), entries := entries
                         poly := testPolynomial r.log2Nb (lwe.moduli.getD 0 1) (p.u8 5 == 1) entries, kib := kib }
      .ok (setKeySet s1 p.ctx (p.u32 0) (fun k => { k with luts := k.luts ++ [lut] }), okWith kib)

/-- LUT_LOAD. -/
def execLutLoad (p : Packet) (s : State) : Host.Outcome State Fault Refusal := runCmd cmdLutLoad p s

def cmdLutFree : Cmd where
  op := 0x0403
  names p _ := [.keySet p.ctx (p.u32 0), .lut p.ctx (p.u32 0) (p.u8 4)]
  access p s := need (p.len != 8 || (keySetOf s p.ctx (p.u32 0)).isSome) .accessViolation
  form p _ := formError p (p.len = 8) false [(4, p.u8 4 ≤ 31), (5, p.num 5 3 == 0)]
  state p s := do
    need (lookupPart s p.ctx (p.u32 0)).isSome .badState
    need (((keySetOf s p.ctx (p.u32 0)).bind (fun k => lutOf k (p.u8 4))).isSome) .badState
  body p s :=
    .ok (setKeySet s p.ctx (p.u32 0) (fun k => { k with luts := k.luts.filter (fun t => t.index != p.u8 4) }), okWith)

/-- LUT_FREE. -/
def execLutFree (p : Packet) (s : State) : Host.Outcome State Fault Refusal := runCmd cmdLutFree p s

/-! ### REFRESH_PACKED (R278) -/

def latKeySet (p : Packet) (s : State) : KeySet := (keySetOf s p.ctx (latKeys p)).getD { id := 0, set := 0 }

def latRefresh (p : Packet) (s : State) : RefreshCfg := (latKeySet p s).refresh.getD default

def latLimbs (p : Packet) (s : State) : Nat := ((setOfKeys s p.ctx (latKeys p)).map (fun x => x.limbs)).getD 1

/-- The headers of the inputs of an opcode. -/
def latHeaders (p : Packet) (s : State) : List CtHeader :=
  ((caskOf s p.ctx (latA p)).map (fun c => headersOf c (latAFirst p) (latCount p))).getD []

def refreshPackedOp : LatOp where
  code := 0x0410
  waves := true
  constructions := [1]
  formOf _ := some true
  outLevel p s _ := some (packedLevel (latLimbs p s) (latRefresh p s))
  scratch p _ := refreshScratch p
  copies := true
  refreshed := true
  spent := 3
  extra p s := do
    let set ← want (setOfKeys s p.ctx (latKeys p)) .badState 1
    need ((latKeySet p s).refresh.isSome && (latRefresh p s).packed) .badState 9
    need (packedKeys (latKeySet p s) set (latRefresh p s)) .badState 7
    need ((latHeaders p s).all (fun h => packedInput set h.scale)) .badState 10
  noise p s _ a _ := packedNoise (latRefresh p s) a.scale a.noise
  out p _ set draw a _ limb i := freeOut 0x0410 p set draw a limb i

/-- REFRESH_PACKED. -/
def execRefreshPacked (p : Packet) (s : State) : Host.Outcome State Fault Refusal := runCmd (latCmd refreshPackedOp) p s

/-! ### REFRESH_LWE (R283, R284) -/

def refreshLweOp : LatOp where
  code := 0x0411
  noScratch := true
  constructions := [2]
  argOk p _ := latArg p < 256
  copies := true
  refreshed := true
  spent := 3
  extra p s := do
    let k := latKeySet p s
    need (k.refresh.isSome && (latRefresh p s).lookup && (latRefresh p s).lweSet == k.set) .badState 9
    need (((lutOf k (latArg p)).map (fun t => !t.switchKind)).getD false) .badState 9
    need (lweKeys k) .badState 7
  noise p s _ _ _ := (latRefresh p s).bLwe
  input p s set a :=
    if lweInput (latRefresh p s) (set.moduli.getD 0 1) a.noise then .ok () else noiseSpent 5 a.noise (budgetOf set 1 0)
  out p s set draw a _ limb i :=
    let k := latKeySet p s
    let q := a.moduli.getD limb 1
    let ct := polyOf a (ctSize set) limb (latAFirst p + i)
    let value := refreshValue k ((lutOf k (latArg p)).getD default) (latRefresh p s).log2Nb q ct
    lweCarrying k set.n q (latRefresh p s).bLwe value (fun j => Config.latticeResidue 0x0411 draw (i * 262144 + j))

/-- REFRESH_LWE. -/
def execRefreshLwe (p : Packet) (s : State) : Host.Outcome State Fault Refusal := runCmd (latCmd refreshLweOp) p s

/-! ### SCHEME_SWITCH (R287 to R289) -/

def switchV (p : Packet) : Nat := latArg p % 256
def switchA (p : Packet) : Nat := latArg p / 256

/-- log2 max (1, max |entry| × 2^exponent), rounded up. -/
def tableLog (t : Lut) : Nat :=
  let m := t.entries.foldl (fun m x => max m x.natAbs) 0
  let scaled := (m * 2 ^ t.exponent.toNat, 2 ^ (-t.exponent).toNat)
  if scaled.1 ≤ scaled.2 then 0 else logUp scaled.1 scaled.2

def switchTable (p : Packet) (s : State) (i : Nat) : Option Lut := (lutOf (latKeySet p s) i).filter (fun t => t.switchKind)

/-- The domain exponent r of the V table. -/
def switchR (p : Packet) (s : State) : Int := ((switchTable p s (switchV p)).map (fun t => t.r)).getD 0

/-- The sum of bounds in the order given (R265). -/
def oplusAll : List Nat → Nat
  | [] => 0
  | x :: l => l.foldl oplus x

/-- One level of the linear transform at l limbs, step by step under R266 with diagonals at β = 1. Diagonal d = i × g + j takes
the input as it is for j = 0 and rotated otherwise; the sum over j is rotated for i ≥ 1; the sum over i is rescaled (R279).
The sums are taken in ascending order (DESIGN CHOICE, notes/assumptions/138.md). -/
def transformNoise (set : ParamSet) (rho : Nat) (noise l : Nat) : Nat :=
  let ks := noiseSwitch set l
  let g := transformG rho
  let times (x : Nat) : Nat := x + 256 + 256 * set.log2N
  let inner (i : Nat) : Nat := oplusAll ((List.range (min g (2 * rho - 1 - i * g))).map (fun j =>
    times (if j = 0 then noise else oplus noise ks)))
  rescaleNoise set (l - 1) (oplusAll ((List.range (transformGG rho)).map (fun i =>
    if i = 0 then inner i else oplus (inner i) ks)))

/-- The predicted bound of the level-0 copy (R289). -/
def copyNoise (set : ParamSet) (rs level noise : Nat) : Nat :=
  let b := rescaleNoise set level noise
  let rho := transformRho set.log2N rs
  let t := (List.range rs).foldl (fun b d => transformNoise set rho b (level - d)) b
  oplus t (noiseSwitch set 1)

/-- S + x - P_ss in 1/256 bit, 0 where it is negative. -/
def switchTerm (scale : Nat) (x : Int) (pss : Nat) : Nat := ((4 * scale : Int) + x - 256 * pss).toNat

/-- The bound of the output (R289). -/
def switchNoise (p : Packet) (s : State) (a : CtHeader) : Nat :=
  let pss := (latRefresh p s).pSs
  let b := ((switchTable p s (switchV p)).map tableLog).getD 0
  if switchA p = 0xFF then switchTerm a.scale b pss
  else
    let la := ((switchTable p s (switchA p)).map tableLog).getD 0
    oplus (oplus (a.noise + la) (switchTerm a.scale (256 * switchR p s + la) pss)) (switchTerm a.scale b pss)

/-- Whether `d / den` of a box's width is within the ambiguity fraction of a box edge (R282). -/
def boxUnclear (t : Lut) (rMs log2Nb d : Nat) : Bool :=
  decide ((d * 2 ^ log2Nb) ^ 256 ≤ 2 ^ (rMs + 256) * (2 ^ (t.r + 129).toNat * 2 ^ t.log2t) ^ 256)

/-- The box that a slot value falls into, both in units of 2^-64: it wraps outside the domain. Within the ambiguity fraction of
a box edge the engine may pick either neighbour, which `pick` decides (R282, R287). -/
def boxOf (t : Lut) (rMs log2Nb : Nat) (v : Int) (pick : Nat) : Nat :=
  let boxes := 2 ^ t.log2t
  let den := 2 ^ (t.r + 129).toNat
  let num := ((v * 2 ^ 64 + 2 ^ (t.r + 128).toNat) * boxes % (boxes * den : Nat)).toNat
  let i := num / den
  let low := num % den
  if pick % 2 = 0 then i
  else if boxUnclear t rMs log2Nb low = true ∧ low ≤ den - low then (i + boxes - 1) % boxes
  else if boxUnclear t rMs log2Nb (den - low) = true then (i + 1) % boxes
  else i

/-- The slot value of the output, in units of 2^-192, for a slot value in units of 2^-64 (R287). -/
def switchedValue (p : Packet) (s : State) (v : Int) (pickV pickA : Nat) : Int :=
  let r := latRefresh p s
  let entry (t : Lut) (pick : Nat) : Int := t.entries.getD (boxOf t r.rMs r.log2Nb v pick) 0
  let value := ((switchTable p s (switchV p)).map (fun t => entry t pickV * 2 ^ (t.exponent + 192).toNat)).getD 0
  if switchA p = 0xFF then value
  else value + ((switchTable p s (switchA p)).map (fun t => entry t pickA * v * 2 ^ (t.exponent + 128).toNat)).getD 0

/-- The slot values of an input ciphertext after the tables: N/2 real slots (R287). -/
def switchedSlots (p : Packet) (s : State) (set : ParamSet) (draw : Nat) (a : Cask) (i : Nat) : List Int :=
  let ct := (List.range a.limbs).flatMap (fun l => polyOf a (ctSize set) l (latAFirst p + i))
  let scale := ((headerAt a (latAFirst p + i)).map (fun h => h.scale)).getD 0
  (List.range (2 ^ set.log2N / 2)).map (fun x =>
    let pick (j : Nat) : Nat := Config.latticeResidue 0x0412 draw ((2 * i + j) * 262144 + x)
    switchedValue p s (Config.slotValue ct scale x) (pick 0) (pick 1))

def schemeSwitchOp : LatOp where
  code := 0x0412
  waves := true
  constructions := [1]
  argOk p _ := latArg p < 65536
  outLevel p _ l := if switchA p = 0xFF then some l else if l = 0 then none else some (l - 1)
  scratch p _ := refreshScratch p
  copies := true
  refreshed := true
  spent := 3
  extra p s := do
    let set ← want (setOfKeys s p.ctx (latKeys p)) .badState 1
    let k := latKeySet p s
    let r := latRefresh p s
    need (k.refresh.isSome && r.lookup && r.packed) .badState 9
    need ((switchTable p s (switchV p)).isSome && (switchA p == 0xFF || (switchTable p s (switchA p)).isSome)) .badState 9
    need (packedKeys k set r && lweKeys k && hasKey k 4 0 && hasKey k 5 0) .badState 7
    need ((latHeaders p s).all (fun h => r.rs + 1 ≤ h.level && h.level + 2 + r.e ≤ set.limbs)) .badState 10
    need ((latHeaders p s).all (fun h => decide
      ((4 * h.scale - topModulusLog set h.level : Int) + 256 * switchR p s + 3072 ≤ logDown (set.moduli.getD 0 1)))) .badState 10
  noise p s _ a _ := switchNoise p s a
  input p s set a :=
    let b := copyNoise set (latRefresh p s).rs a.level a.noise
    if lweInput (latRefresh p s) (set.moduli.getD 0 1) b then .ok () else noiseSpent 5 b (budgetOf set (a.level + 1) a.scale)
  out p s set draw a _ limb i :=
    let slots := switchedSlots p s set draw a i
    let scale := ((headerAt a (latAFirst p + i)).map (fun h => h.scale)).getD 0
    (List.range (ctSize set)).map (fun x =>
      Config.carryingResidue slots scale draw ((limb * 65536 + i) * 262144 + x) % max 1 (a.moduli.getD limb 1))

/-- SCHEME_SWITCH. -/
def execSchemeSwitch (p : Packet) (s : State) : Host.Outcome State Fault Refusal := runCmd (latCmd schemeSwitchOp) p s

end Sys2Proof.Machine
end

