-- ==== Sys2Proof/Machine/Threshold.lean ====
section
/-! DEFINITION. The threshold key share and partial decryption: THR_SHARE_LOAD and THR_PARTIAL (R292 to R298). -/

set_option autoImplicit false

namespace Sys2Proof.Machine

def usageLatShareKek : Nat := 32

/-- Split residues into two additive halves with a mask (R292). -/
def splitShare (set : ParamSet) (residues : List Nat) (mask : List Byte) : Sparse × Sparse :=
  let n := 2 ^ set.log2N
  let one (i : Nat) : Nat × Nat × Nat :=
    let q := max 1 (set.moduli.getD (i / n) 1)
    let m := field mask (8 * i) 8 % q
    (i, subMod q (residues.getD i 0 % q) m, m)
  let all := (List.range (set.limbs * n)).map one
  ((all.filter (fun x => x.2.1 != 0)).map (fun x => (x.1, x.2.1)), (all.filter (fun x => x.2.2 != 0)).map (fun x => (x.1, x.2.2)))

/-- The residue of the share at an index: the sum of its halves. -/
def shareResidue (set : ParamSet) (h : ThrShare) (i : Nat) : Nat :=
  addMod (max 1 (set.moduli.getD (i / 2 ^ set.log2N) 1)) (Sparse.get h.half0 i) (Sparse.get h.half1 i)

/-! ### THR_SHARE_LOAD -/

/-- Bytes of the blob for a set. -/
def shareBlob (set : ParamSet) : Nat := 72 + 8 * set.limbs * 2 ^ set.log2N

/-- A use of a COUNTED key is charged at the commit point of the operation (R409). -/
def chargeSlot (s : State) (slot : Nat) : State :=
  setKeySlot s slot (fun k => if k.lifetime = 1 then { k with left := k.left - 1 } else k)

/-- A COUNTED key whose uses are spent (R409). -/
def keySpent (k : KeySlot) : Bool := k.lifetime == 1 && k.left == 0

def cmdThrShareLoad : Cmd where
  op := 0x0420
  names p _ := [.keySet p.ctx (p.u32 0), .key (p.slotAt 4), .window (p.u32 8 / 256)]
  access p s := do
    slotUsage p s (p.slotAt 4) usageLatShareKek
    windowCheck s p.ctx (p.u32 8) rightRead (p.u64 16) (p.u32 12) (p.len == 24)
  form p s := formError p (p.len = 24) false
    [(4, p.u16 4 < 1024), (6, p.u8 6 ≤ 48), (7, p.u8 7 == 0),
     (12, ((setOfKeys s p.ctx (p.u32 0)).map (fun x => x.construction != 2 && p.u32 12 == shareBlob x)).getD true)]
  state p s := do
    let k ← want (keySetOf s p.ctx (p.u32 0)) .badState
    need k.share.isNone .badState
    let slot ← servingSlot s (p.u16 4)
    need (slot.state != .draining) .keyRevoked
    need (!keySpent slot) .keyExpired
    entropyReady s
  draw p s := some (1, ((setOfKeys s p.ctx (p.u32 0)).map (fun x => blocksFor (8 * x.limbs * 2 ^ x.log2N))).getD 0)
  ready p s := do
    let set ← want (setOfKeys s p.ctx (p.u32 0)) .badState
    need (lpddrFits s p.ctx (mib2 (16 * set.limbs * 2 ^ set.log2N))) .noResource
  body p s := do
    let set ← want (setOfKeys s p.ctx (p.u32 0)) .badState
    let slot ← servingSlot s (p.u16 4)
    let mib := mib2 (16 * set.limbs * 2 ^ set.log2N)
    need (lpddrFits s p.ctx mib) .noResource
    let (blob, s1) ← readWindow s p.ctx (p.u32 8) (p.u64 16) (p.u32 12)
    let plain ← want (Crypto.kwUnwrap (slotKey slot) blob) .shareUnwrap
    need (slice plain 0 32 == set.digest && field plain 32 4 == p.u32 0) .keyMismatch
    let (mask, s2) := drawBytes s1 (8 * set.limbs * 2 ^ set.log2N)
    let (h0, h1) := splitShare set ((pieces 8 (plain.drop 64)).map leNat) mask
    let share : ThrShare := {
      party := field plain 36 4, margin := p.u8 6, parent := slot.keyId, chain := slot.keyId :: slot.chain, mib := mib
      half0 := h0, half1 := h1 }
    let s3 := setKeySet s2 p.ctx (p.u32 0) (fun k => { k with share := some share })
    .ok (chargeSlot s3 slot.slot, okWith share.party)

/-- THR_SHARE_LOAD. -/
def execThrShareLoad (p : Packet) (s : State) : Host.Outcome State Fault Refusal := runCmd cmdThrShareLoad p s

/-! ### THR_PARTIAL -/

/-- Floor and allowance of a Vintage that is RELEASED or CLOSED and still kept (R294, R295). -/
def kept (s : State) (g vid : Nat) : Option (Nat × Nat) :=
  match (vintageOf s g vid).filter (fun v => v.state == .released || v.state == .closed) with
  | some v => some (v.floor, v.allowance)
  | none =>
    if (vintageOf s g vid).isSome then none
    else (((gloveOf s g).summaries.reverse.find? (fun x => x.id == vid)).filter (fun x => x.state == .closed)).map
      (fun x => (x.floor, x.allowance))

/-- Charge partial decryptions to a Vintage's allowance (R295). -/
def chargeAllowance (s : State) (g vid n : Nat) : State :=
  setGlove (setVintage s g vid (fun v => { v with allowance := v.allowance - n })) g (fun x => { x with
    summaries := mapIf (fun y => y.id == vid) (fun y => { y with allowance := y.allowance - n }) x.summaries })

/-- Why a ciphertext is no engine sum that may be decrypted: its detail, or 0 (R294). -/
def aggregateDetail (s : State) (g : Nat) (h : CtHeader) : Nat :=
  if ¬ h.engineSum then 1
  else match kept s g h.vintage with
    | none => 3
    | some (floor, _) => if h.cohort < floor then 2 else 0

/-- The bits of flooding of one ciphertext: w (R296). -/
def floodWidth (h : CtHeader) (margin : Nat) : Nat := ceilDiv h.noise 256 + margin

/-- A coefficient of E: w + 65 bits reduced to [-2^w, 2^w]. -/
def floodCoeff (bytes : List Byte) (w i : Nat) : Int :=
  let n := (w + 72) / 8
  ((field bytes (n * i) n % 2 ^ (w + 65) % (2 ^ (w + 1) + 1) : Nat) : Int) - 2 ^ w

/-- One partial: header and residues (R296, R297). -/
def partialBytes (s : State) (set : ParamSet) (share : ThrShare) (c : Cask) (i : Nat) (h : CtHeader) (flood : List Byte) : List Byte :=
  let n := 2 ^ set.log2N
  let w := floodWidth h share.margin
  let e := (List.range n).map (floodCoeff flood w)
  let limb (l : Nat) : List Nat :=
    let q := set.moduli.getD l 1
    let c1 := (polyOf c (2 * n) l i).drop n
    let sE := (List.range n).map (fun m => shareResidue set share (l * n + m))
    let eq := e.map (fun x => (x % (q : Int)).toNat)
    let c1' := if h.ntt then c1 else nttForward q set.log2N c1
    let prod := List.zipWith (fun x y => x * y % max 1 q) c1' sE
    if h.ntt then List.zipWith (addMod q) prod (nttForward q set.log2N eq)
    else List.zipWith (addMod q) (nttInverse q set.log2N prod) eq
  padTo 32 h.digest ++ toLE 4 h.keySet ++ toLE 4 share.party ++ toLE 4 h.vintage ++ toLE 4 h.cohort ++ toLE 1 h.level ++
  toLE 1 (2 * b2n h.ntt) ++ toLE 1 share.margin ++ toLE 1 w ++ toLE 4 s.fw.epoch ++ toLE 8 h.serial ++
  (List.range c.limbs).flatMap (fun l => (limb l).flatMap (toLE 8))

def thrCask (p : Packet) (s : State) : Option Cask := (caskOf s p.ctx (p.u16 0)).filter (fun c => c.binding.isSome && !c.withheld)

def thrHeaders (p : Packet) (s : State) : List CtHeader :=
  ((thrCask p s).map (fun c => headersOf c (p.u32 4) (p.u32 8))).getD []

def thrShare (p : Packet) (s : State) : Option ThrShare := (keySetOf s p.ctx (p.u32 12)).bind (fun k => k.share)

/-- Bits of flooding that one ciphertext takes. -/
def floodBits (set : ParamSet) (margin : Nat) (h : CtHeader) : Nat := 2 ^ set.log2N * (floodWidth h margin + 65)

/-- The share split again into drawn halves (R293). -/
def resplitShare (s : State) (set : ParamSet) (share : ThrShare) : ThrShare × State :=
  let (mask, s1) := drawBytes s (8 * set.limbs * 2 ^ set.log2N)
  let (h0, h1) := splitShare set ((List.range (set.limbs * 2 ^ set.log2N)).map (shareResidue set share)) mask
  ({ share with half0 := h0, half1 := h1 }, s1)

/-- The partial decryptions of the ciphertexts named, one after the other, each with its own flooding (R294, R295). -/
def floodedPartials (p : Packet) (s0 : State) (set : ParamSet) (share : ThrShare) (c : Cask) (hs : List CtHeader) (s : State) :
    List Byte × State :=
  (List.range (p.u32 8)).foldl (fun (acc : List Byte × State) i =>
    let h := hs.getD i default
    let (flood, s') := drawBytes acc.2 (2 ^ set.log2N * ((floodWidth h share.margin + 72) / 8))
    (acc.1 ++ partialBytes s0 set share c (p.u32 4 + i) h flood, s')) ([], s)

/-- The first ciphertext that the decryption allowance of its Vintage does not cover (R295). -/
def allowanceShort (p : Packet) (s : State) (hs : List CtHeader) : Option Nat :=
  let at_ (i : Nat) : CtHeader := hs.getD i default
  let used (i : Nat) : Nat := ((hs.take (i + 1)).filter (fun h => h.vintage == (at_ i).vintage)).length
  let left (i : Nat) : Nat := ((kept s p.ctx (at_ i).vintage).map Prod.snd).getD 0
  (List.range (p.u32 8)).find? (fun i => left i < used i)

/-- What a partial decryption works on: the Cask, the parameter set and the share. -/
def thrParts (p : Packet) (s : State) : Except Refused (Cask × ParamSet × ThrShare) := do
  let c ← want (thrCask p s) .badState 1
  let set ← want (setOfKeys s p.ctx (p.u32 12)) .accessViolation
  let share ← want (thrShare p s) .badState 9
  .ok (c, set, share)

/-- Steps 7 and 8, all at dispatch (R270, R274, R294 to R296). -/
def thrChecks (p : Packet) (s : State) : Except Refused (Cask × ParamSet × ThrShare) := do
  let (c, set, share) ← thrParts p s
  let hs := thrHeaders p s
  let detail (i : Nat) : Nat := aggregateDetail s p.ctx (hs.getD i default)
  need (!c.spilled) .spilled
  need (hs.all (fun h => h.keySet == p.u32 12 && h.digest == set.digest)) .keyMismatch
  match (List.range (p.u32 8)).find? (fun i => detail i != 0) with
  | some i => failWith { status := .notAggregate, detail := detail i, r3 := p.u32 4 + i }
  | none =>
    match allowanceShort p s hs with
    | some i => failWith { status := .notAggregate, detail := 4, r3 := p.u32 4 + i }
    | none =>
      need (hs.all (fun h => fitsBudget set c.limbs h.scale (h.noise + 256 * share.margin))) .noiseSpent 4
      .ok (c, set, share)

/-- Blocks of flooding that a command takes at rank 3, after those that re-mask the share at rank 1 (R292, R296, R388). -/
def floodBlocks (p : Packet) (s : State) : Nat :=
  match setOfKeys s p.ctx (p.u32 12), thrShare p s with
  | some set, some share => ceilDiv (sumOf (floodBits set share.margin) (thrHeaders p s)) 256
  | _, _ => 0

/-- The ciphertexts a command decrypts (R273). -/
def thrWatch (p : Packet) (s : State) : List Watched :=
  [⟨p.u16 0, ((setOfKeys s p.ctx (p.u32 12)).map ctSize).getD 1, p.u32 4, p.u32 8, false⟩]

/-- The partial decryptions and what they charge; what was checked at dispatch is not judged again (R270, R292 to R297). -/
def thrWork (p : Packet) (s : State) (c : Cask) (set : ParamSet) (share : ThrShare) : Except Refused (State × Done) := do
  let hs := thrHeaders p s
  if s.int.faulted.contains (p.ctx, p.u16 0) then
    return ({ s with int := { s.int with faulted := s.int.faulted.filter (· != (p.ctx, p.u16 0)) } },
      .answer { status := .integrityFault })
  let (share', s1) := resplitShare s set share
  let s2 := setKeySet s1 p.ctx (p.u32 12) (fun k => { k with share := some (if share.evicted then evictShare share' else share') })
  let (out, s3) := floodedPartials p s set share' c hs s2
  let s4 ← writeWindow s3 p.ctx (p.u32 16) (p.u64 24) out
  let s5 := hs.foldl (fun s h => chargeAllowance s p.ctx h.vintage 1) s4
  let last := hs.getD (p.u32 8 - 1) default
  .ok (s5, okWith (p.u32 8) (((kept s5 p.ctx last.vintage).map Prod.snd).getD 0) (floodWidth last share.margin))

/-- THR_PARTIAL. No command reads an accumulate Cask: one is refused with the detail that the other lattice opcodes give it
(R109, R252; DESIGN CHOICE, notes/assumptions/163.md). -/
def cmdThrPartial : Cmd where
  op := 0x0421
  names p _ := [.cask p.ctx (p.u16 0), .keySet p.ctx (p.u32 12), .window (p.u32 16 / 256)]
  access p s := do
    need (caskInRange s p.ctx (p.u16 0)) .accessViolation
    need (p.len != 32 || (keySetOf s p.ctx (p.u32 12)).isSome) .accessViolation
    let n := 2 ^ ((setOfKeys s p.ctx (p.u32 12)).map (fun x => x.log2N)).getD 0
    let l := ((caskOf s p.ctx (p.u16 0)).map (fun c => c.limbs)).getD 0
    windowCheck s p.ctx (p.u32 16) rightWrite (p.u64 24) (p.u32 8 * (64 + 8 * l * n)) (p.len == 32)
  form p _ := formError p (p.len = 32) false [(2, p.u16 2 == 0), (8, 1 ≤ p.u32 8 && p.u32 8 ≤ 65535), (20, p.u32 20 == 0)]
  state p s := do
    let c ← want (thrCask p s) .badState 1
    need (c.role != 0) .badState 2
    need ((thrHeaders p s).all (fun h => h.state == 1)) .badState 3
    need (p.u32 4 + p.u32 8 ≤ ctCount c) .badState 5
    let share ← want (thrShare p s) .badState 9
    need (!share.evicted) .keyRevoked
    entropyReady s
  draw p s := (setOfKeys s p.ctx (p.u32 12)).map (fun set => (1, blocksFor (8 * set.limbs * 2 ^ set.log2N)))
  later := floodBlocks
  ready p s := (thrChecks p s).map (fun _ => ())
  works := true
  watch := thrWatch
  complete _ p s := do
    let (c, set, share) ← thrParts p s
    thrWork p s c set share
  body p s := do
    let (c, set, share) ← thrChecks p s
    thrWork p s c set share

/-- THR_PARTIAL. -/
def execThrPartial (p : Packet) (s : State) : Host.Outcome State Fault Refusal := runCmd cmdThrPartial p s

end Sys2Proof.Machine
end

