-- ==== Sys2Proof/Machine/Keys.lean ====
section
/-! DEFINITION. Roots, derivation, key blobs and key slots: commands 0x0801 to 0x0807 and the re-masking of slots
(R397 to R420). -/

set_option autoImplicit false

namespace Sys2Proof.Machine

/-! ### Derivation (R401 to R403) -/

def lifeCode : LifeCycle → Nat
  | .mfg => 0
  | .prov => 1
  | .deployed => 2
  | .rma => 3

/-- The root of the present life-cycle state. -/
def lifeRoot (s : State) : List Byte := ((s.keys.roots.find? (fun r => r.1 == s.fw.lc)).map Prod.snd).getD []

/-- The production tenant root is in use (R401). -/
def productionRoot (s : State) : Bool := s.fw.lc == .deployed && !s.fw.debug

def tenantRootInUse (s : State) : List Byte :=
  if productionRoot s then s.keys.tenantRoot.getD [] else Crypto.kdf108 (lifeRoot s) (ascii "LQ-TEST-TENANT-V1") [] 32

/-- Glove data seed (R403, R404). -/
def gloveSeed (s : State) (g : Nat) (nonce : List Byte) : List Byte :=
  Crypto.kdf108 (tenantRootInUse s) (ascii "LQ-GLOVE-DATA-V1") (toLE 1 g ++ toLE 4 s.fw.epoch ++ nonce) 32

/-- The base of a context: the Vintner base, or the Glove base of its owner digest. -/
def contextBase (s : State) (ctx : Nat) : List Byte :=
  if ctx = vintner then Crypto.kdf108 (lifeRoot s) (ascii "LQ-VINTNER-V1") [] 32
  else Crypto.kdf108 (tenantRootInUse s) (ascii "LQ-GLOVE-BASE-V1") ((gloveOf s ctx).owner.getD []) 32

/-- The import key of an ESTABLISHED session (R403, R406). -/
def importKey (s : State) (g : Nat) : List Byte :=
  let x := (gloveOf s g).session
  Crypto.kdf108 (x.keys.take 32) (ascii "LQ-KEY-IMPORT-V1") (toLE 1 g ++ toLE 4 s.fw.epoch ++ toLE 2 x.count) 32

/-! ### The keys of the LPDDR channels (R403, R404, R419) -/

/-- A Glove's persistent data key, or its data key of a generation. -/
def dataKey (s : State) (g : Nat) (generation : Option Nat) : List Byte :=
  Crypto.kdf108 (gloveOf s g).dataSeed (ascii "LQ-XTS-V1") (toLE 4 (generation.getD 0xFFFFFFFF)) 64

/-- The generations that are live: the current one, and those that a Vintage holds which is not terminal (R419). -/
def liveGenerations (s : State) (g : Nat) : List Nat :=
  dedup ((gloveOf s g).generation :: (s.vintages.filter (fun v => v.glove == g && v.state != .draft && !terminalState v.state)).map
    (fun v => v.generation))

/-- The key entries of the Glove's channels: the persistent key and one for each live generation; the entry of a generation
that stops being live is gone. -/
def xtsEntries (s : State) (g : Nat) : List (List Byte) :=
  dataKey s g none :: (liveGenerations s g).map (fun n => dataKey s g (some n))

/-! ### Revocation (R416 to R418) -/

def revokedOf (s : State) (ctx : Nat) : List Nat := if ctx < 16 then (gloveOf s ctx).revoked else s.keys.revoked

/-- Slots of a context that hold a key. -/
def contextSlots (s : State) (ctx : Nat) : List KeySlot := s.keys.slots.filter (fun k => k.owner == ctx)

/-- The slot that holds a key ID. -/
def slotById (s : State) (ctx id : Nat) : Option KeySlot := (contextSlots s ctx).find? (fun k => k.keyId == id && id != 0)

/-- The chain of a key under a parent: the parent, and the chain the parent was loaded with. -/
def chainUnder (s : State) (ctx parent : Nat) : List Nat :=
  parent :: ((slotById s ctx parent).map (fun k => k.chain)).getD []

/-- A loaded key's chain of parents reaches a key ID, whether or not the keys between are still loaded; 0 is the base, which
every chain reaches. -/
def reaches (id : Nat) (k : KeySlot) : Bool := id == 0 || k.keyId == id || k.parent == id || k.chain.contains id

def descendants (s : State) (ctx id : Nat) : List KeySlot := (contextSlots s ctx).filter (fun k => reaches id k && k.state != .lost)

/-- A key ID as an object of the precedence pass (R418). -/
def keyIdObj (ctx id : Nat) : Obj := .key (2 ^ 20 + 2 ^ 32 * ctx + id)

/-- ST_ROOT_ZEROIZED after step 4 (R400). -/
def rootsPresent (s : State) : Check := need (!s.keys.zeroized) .rootZeroized

/-! ### KEY_OWNER_SET (R405) -/

def cmdKeyOwnerSet : Cmd where
  op := 0x0801
  names p _ := [.glove p.ctx]
  form p _ := formError p (p.len = 48) false [(40, p.u64 40 == 0)]
  state p s := do
    rootsPresent s
    need ((gloveOf s p.ctx).session.state == .established) .badState
    need (gloveOf s p.ctx).owner.isNone .badState
  body p s := do
    let secret ← want (Crypto.kwUnwrap (importKey s p.ctx) (p.bytes 0 40)) .blobAuth
    let digest := Crypto.sha256 (ascii "LQ-OWNER-V1" ++ secret)
    .ok (setGlove s p.ctx (fun x => { x with owner := some digest }), okBytes digest)

/-- KEY_OWNER_SET. -/
def execKeyOwnerSet (p : Packet) (s : State) : Host.Outcome State Fault Refusal := runCmd cmdKeyOwnerSet p s

/-! ### Checks that KEY_LOAD and KEY_CREATE share (R408 to R411) -/

/-- Usage flags that a kind allows in a blob (R410, R411). -/
def usageOk (kind usage : Nat) : Bool :=
  match kind with
  | 0 => usage &&& 0b100101 == usage
  | 1 => usage &&& 0b000110 == usage
  | _ => usage == 0

/-- The key may be loaded into the slot, and its parent serves with a usage (R408); `parent` 0 is the base. -/
def parentState (s : State) (ctx slot keyId parent usage : Nat) : Check := do
  emptySlot s slot 1
  need (slotById s ctx keyId).isNone .badState 2
  need (!((revokedOf s ctx).contains keyId || (revokedOf s ctx).contains parent)) .keyRevoked
  if parent = 0 then need (ctx == vintner || (gloveOf s ctx).owner.isSome) .badState 4
  else do
    let k ← want (slotById s ctx parent) .badState 3
    need (k.state != .lost) .entropyFailed
    need (k.state != .draining) .keyRevoked
    need (k.usage &&& usage != 0) .accessViolation
    need (!keySpent k) .keyExpired

/-- The wrapping key of a parent ID. -/
def wrapKey (s : State) (ctx parent : Nat) : List Byte :=
  if parent = 0 then contextBase s ctx else ((slotById s ctx parent).map slotKey).getD []

/-- The entry of a blob in the spent list (R409). -/
def spentEntry (wrapped : List Byte) : List Byte := (Crypto.sha256 wrapped).take 8

def addSpent (s : State) (wrapped : List Byte) : State :=
  { s with keys := { s.keys with spent := s.keys.spent ++ [spentEntry wrapped] } }

/-! ### KEY_LOAD (R407 to R409) -/

def blobOf (p : Packet) : List Byte := p.bytes 8 104

/-- Fields of a blob with their offsets in it (R407). -/
def blobFields (b : List Byte) : List (Nat × Bool) :=
  let life := field b 17 1
  [(0, field b 0 4 == 0x424B514C), (4, field b 4 2 == 1), (6, usageOk (field b 16 1) (field b 6 2)),
   (8, field b 8 4 != 0), (16, field b 16 1 ≤ 2), (17, life ≤ 2), (18, field b 18 2 == 0),
   (20, if life = 1 then field b 20 4 != 0 else life == 2 || field b 20 4 == 0), (24, field b 24 8 == 0)]

/-- The blob of a KEY_LOAD unwrapped, where its checks and those of its lifetime pass (R408, R409). -/
def openBlob (p : Packet) (s : State) : Except Refused (List Byte) := do
  let b := blobOf p
  let life := field b 17 1
  let wrapped := b.drop 32
  let plain ← want (Crypto.kwUnwrap (wrapKey s p.ctx (field b 12 4)) wrapped) .blobAuth
  need (plain.take 32 == b.take 32) .blobAuth
  need (life != 2 || field b 20 4 == s.fw.epoch) .keyExpired
  need (life != 1 || !s.keys.spent.contains (spentEntry wrapped)) .keyExpired
  need (life != 1 || s.keys.spent.length < Config.spentEntries) .noResource
  .ok plain

/-- KEY_LOAD. The blob's fields are judged before the slot's range, in the order of R408. -/
def cmdKeyLoad : Cmd where
  op := 0x0802
  issuer := .any
  names p _ := [.key (p.slotAt 0), keyIdObj p.ctx (p.u32 16), keyIdObj p.ctx (p.u32 20)]
  access p s := need (p.len == 112 && (blobFields (blobOf p)).any (fun f => !f.2) || slotInRange s p.ctx (p.slotAt 0)) .accessViolation
  form p _ := formError p (p.len = 112) false
    (([(0, p.u16 0 < 1024), (2, p.num 2 6 == 0)] : List (Nat × Bool)) ++ (blobFields (blobOf p)).map (fun f => (8 + f.1, f.2)))
  state p s := do
    rootsPresent s
    let b := blobOf p
    parentState s p.ctx (p.u16 0) (field b 8 4) (field b 12 4) 1
    entropyReady s
  draw _ _ := some (1, 1)
  ready p s := (openBlob p s).map (fun _ => ())
  body p s := do
    let b := blobOf p
    let parent := field b 12 4
    let life := field b 17 1
    let wrapped := b.drop 32
    let plain ← openBlob p s
    let k : KeySlot := {
      slot := p.u16 0, owner := p.ctx, state := .loaded, keyId := field b 8 4, parent := parent, chain := chainUnder s p.ctx parent
      usage := field b 6 2
      kind := field b 16 1, lifetime := life, left := if life = 1 then field b 20 4 else 0, share0 := [], share1 := [] }
    let s1 := loadSlot s k (plain.drop 32)
    let s2 := if life = 1 then addSpent s1 wrapped else s1
    let s3 := ((slotById s p.ctx parent).map (fun q => chargeSlot s2 q.slot)).getD s2
    .ok (s3, okWith k.keyId (if life = 1 then k.left else 0xFFFFFFFF))

/-- KEY_LOAD. -/
def execKeyLoad (p : Packet) (s : State) : Host.Outcome State Fault Refusal := runCmd cmdKeyLoad p s

/-! ### KEY_INVALIDATE (R416 to R418) -/

def cmdKeyInvalidate : Cmd where
  op := 0x0803
  issuer := .any
  rank := 3
  names p s := keyIdObj p.ctx (p.u32 0) ::
    (descendants s p.ctx (p.u32 0)).flatMap (fun k => [Obj.key k.slot, keyIdObj p.ctx k.keyId])
  form p _ := formError p (p.len = 8) false [(4, p.u32 4 == 0)]
  state p s := do
    rootsPresent s
    need (!(revokedOf s p.ctx).contains (p.u32 0)) .badState
  body p s := do
    need ((revokedOf s p.ctx).length < Config.revocationEntries) .noResource
    let id := p.u32 0
    let ds := descendants s p.ctx id
    let hit (h : ThrShare) : Bool := id == 0 || h.parent == id || h.chain.contains id
    let s1 := if p.ctx < 16 then setGlove s p.ctx (fun x => { x with revoked := x.revoked ++ [id] })
      else { s with keys := { s.keys with revoked := s.keys.revoked ++ [id] } }
    if p.ctx < 16 ∧ hasLiveVintage s p.ctx then
      let s2 := ds.foldl (fun s k => setKeySlot s k.slot (fun k => if k.state = .loaded then { k with state := .draining } else k)) s1
      let mark (k : KeySet) : KeySet := { k with share := k.share.map (fun h => if hit h then { h with draining := true } else h) }
      .ok (setGlove s2 p.ctx (fun x => { x with keySets := x.keySets.map mark }),
        okWith (ds.filter (fun k => k.state == .loaded)).length 0)
    else
      let s2 := ds.foldl (fun s k => (evictSlot s k.slot).1) s1
      .ok (if p.ctx < 16 then evictShares s2 p.ctx hit else s2, okWith ds.length 1)

/-- KEY_INVALIDATE. -/
def execKeyInvalidate (p : Packet) (s : State) : Host.Outcome State Fault Refusal := runCmd cmdKeyInvalidate p s

/-! ### KEY_CREATE (R403, R406, R410) -/

def kcWrapOut (p : Packet) : Bool := (p.u8 15).testBit 0
def kcGen (p : Packet) : Bool := (p.u8 15).testBit 1

/-- Bytes 0 to 31 of the blob that WRAP_OUT writes (R407). -/
def kcHeader (p : Packet) (s : State) : List Byte :=
  toLE 4 0x424B514C ++ toLE 2 1 ++ toLE 2 (p.u16 12) ++ toLE 4 (p.u32 4) ++ toLE 4 (p.u32 8) ++ toLE 1 (p.u8 3) ++
  toLE 1 (p.u8 14) ++ zeros 2 ++ toLE 4 (if p.u8 14 = 2 then s.fw.epoch else p.u32 16) ++ zeros 8

/-- A key is drawn; one of kind 2 is drawn again, from the next block queued, until it lies below 2^255 - 19. None where
the blocks run out first: the command waits for one more. -/
def drawKey (kind ctx : Nat) : Nat → State → Option (List Byte) × State
  | 0, s => (none, s)
  | fuel + 1, s =>
    let (b, s1) := drawBytes s 32
    if kind ≠ 2 ∨ leNat b < gfP then (some b, s1)
    else if queuedBlocks s1 ctx = 0 then (none, s1)
    else drawKey kind ctx fuel (takeBlocks s1 ctx 1)

/-- The key that KEY_CREATE makes: drawn, derived or imported. -/
def kcKey (p : Packet) (s : State) : Except Refused (Option (List Byte) × State) :=
  match p.u8 2 with
  | 0 => .ok (drawKey (p.u8 3) p.ctx (queuedBlocks s p.ctx + 1) s)
  | 1 =>
    let gen := if kcGen p then (gloveOf s p.ctx).generation else 0xFFFFFFFF
    .ok (some (Crypto.kdf108 (wrapKey s p.ctx (p.u32 8)) (ascii "LQ-CHILD-V1")
      (toLE 4 (p.u32 4) ++ toLE 2 (p.u16 12) ++ toLE 1 (p.u8 3) ++ toLE 4 gen ++ p.bytes 32 16) 32), s)
  | _ => (want (Crypto.kwUnwrap (importKey s p.ctx) (p.bytes 48 40)) .blobAuth).map (fun k => (some k, s))

/-- WRAP_OUT of a COUNTED key takes an entry of the spent list (R409). -/
def kcSpends (p : Packet) : Bool := kcWrapOut p && p.u8 14 == 1

/-- The spent list has room for the blob that KEY_CREATE writes. -/
def spentRoom (p : Packet) (s : State) : Check := need (!kcSpends p || s.keys.spent.length < Config.spentEntries) .noResource

/-- KEY_CREATE puts its key into the slot, and writes the blob of WRAP_OUT. -/
def kcStore (p : Packet) (s : State) (key : List Byte) : Except Refused State := do
  let k : KeySlot := {
    slot := p.u16 0, owner := p.ctx, state := .loaded, keyId := p.u32 4, parent := p.u32 8, chain := chainUnder s p.ctx (p.u32 8)
    usage := p.u16 12, kind := p.u8 3, lifetime := p.u8 14, left := p.u32 16, share0 := [], share1 := [] }
  let head := kcHeader p s
  let wrapped := Crypto.kwWrap (wrapKey s p.ctx (p.u32 8)) (head ++ key)
  let s1 := loadSlot s k key
  let s2 ← if kcWrapOut p then writeWindow s1 p.ctx (p.u32 20) (p.u64 24) (head ++ wrapped) else .ok s1
  let s3 := if kcSpends p then addSpent s2 wrapped else s2
  .ok (if p.u8 2 = 1 then ((slotById s p.ctx (p.u32 8)).map (fun q => chargeSlot s3 q.slot)).getD s3 else s3)

def cmdKeyCreate : Cmd where
  op := 0x0804
  issuer := .any
  names p _ := [.key (p.slotAt 0), keyIdObj p.ctx (p.u32 4), keyIdObj p.ctx (p.u32 8)] ++ (if kcWrapOut p then [.window (p.u32 20 / 256)] else [])
  access p s := do
    need (slotInRange s p.ctx (p.slotAt 0)) .accessViolation
    need (p.len != 88 || p.u8 2 != 2 || p.ctx < 16) .accessViolation
    windowCheck s p.ctx (p.u32 20) rightWrite (p.u64 24) 104 (p.len == 88 && kcWrapOut p)
  form p _ :=
    let derive := p.u8 2 == 1
    formError p (p.len = 88) false
      [(0, p.u16 0 < 1024), (2, p.u8 2 ≤ 2), (3, p.u8 3 ≤ 2), (4, p.u32 4 != 0), (8, !derive || p.u32 8 != 0),
       (12, usageOk (p.u8 3) (p.u16 12)), (14, p.u8 14 ≤ 2 && !(derive && p.u8 14 == 1)),
       (15, p.u8 15 < 4 && !(kcWrapOut p && derive) && !(kcGen p && !derive)),
       (16, if p.u8 14 = 1 then p.u32 16 != 0 else p.u32 16 == 0), (20, kcWrapOut p || p.u32 20 == 0),
       (24, kcWrapOut p || p.u64 24 == 0), (32, derive || p.num 32 16 == 0), (48, p.u8 2 == 2 || p.num 48 40 == 0)]
  state p s := do
    rootsPresent s
    parentState s p.ctx (p.u16 0) (p.u32 4) (p.u32 8) (if p.u8 2 = 1 then 2 else 1)
    need (p.u8 2 != 2 || (gloveOf s p.ctx).session.state == .established) .badState 5
    entropyReady s
  draw p _ := some (1, if p.u8 2 = 0 then 2 else 1)
  ready := spentRoom
  body p s := do
    spentRoom p s
    match ← kcKey p s with
    | (none, s1) => .ok (s1, .waits (.entropy 1 1))
    | (some key, s1) =>
      let s2 ← kcStore p s1 key
      .ok (s2, okWith (p.u32 4) (if kcGen p then (gloveOf s p.ctx).generation else 0xFFFFFFFF))

/-- KEY_CREATE. -/
def execKeyCreate (p : Packet) (s : State) : Host.Outcome State Fault Refusal := runCmd cmdKeyCreate p s

/-! ### KEY_EVICT, KEY_QUERY and KEY_ROTATE_SET (R412, R415, R420) -/

def cmdKeyEvict : Cmd where
  op := 0x0805
  issuer := .any
  names p _ := [.key (p.slotAt 0)]
  access p s := need (slotInRange s p.ctx (p.slotAt 0)) .accessViolation
  form p _ := formError p (p.len = 8) false [(0, p.u16 0 < 1024), (2, p.num 2 6 == 0)]
  state p s := do
    rootsPresent s
    need (keySlotOf s (p.u16 0)).isSome .badState
  body p s :=
    let (s1, moved) := evictSlot s (p.u16 0)
    .ok (s1, okWith moved)

/-- KEY_EVICT. -/
def execKeyEvict (p : Packet) (s : State) : Host.Outcome State Fault Refusal := runCmd cmdKeyEvict p s

def slotStateCode : SlotState → Nat
  | .empty => 0
  | .loaded => 1
  | .draining => 2
  | .lost => 3

def servingCount (l : List KeySlot) : Nat := (l.filter (fun k => k.state == .loaded || k.state == .draining)).length

def cmdKeyQuery : Cmd where
  op := 0x0806
  sideband := true
  issuer := .any
  names p _ := if p.u16 0 = 0xFFFF then [] else [.key (p.slotAt 0)]
  access p s := need (p.u16 0 == 0xFFFF || slotInRange s p.ctx (p.slotAt 0)) .accessViolation
  form p _ := formError p (p.len = 8) false [(0, p.u16 0 == 0xFFFF || p.u16 0 < 1024), (2, p.num 2 6 == 0)]
  state _ s := rootsPresent s
  body p s :=
    let g := gloveOf s p.ctx
    if p.u16 0 = 0xFFFF then
      .ok (s, okWith (servingCount (contextSlots s p.ctx)) (revokedOf s p.ctx).length (if p.ctx < 16 then g.generation else 0)
        (if p.ctx < 16 then b2n g.owner.isSome + 2 * b2n g.rotation.isSome else 0))
    else match keySlotOf s (p.u16 0) with
      | none => .ok (s, okWith 0 0 0 0xFFFFFFFF)
      | some k => .ok (s, okWith (slotStateCode k.state + 4 * k.lifetime + 16 * k.kind + 2 ^ 16 * k.usage) k.keyId k.parent
          (if k.lifetime = 1 then k.left else 0xFFFFFFFF))

/-- KEY_QUERY. -/
def execKeyQuery (p : Packet) (s : State) : Host.Outcome State Fault Refusal := runCmd cmdKeyQuery p s

/-- A rotation phase that ticks serialized since the command have passed: its event, by the tick that passed it (R420). -/
def passedRotation (s : State) (g r : Nat) : DueEvent :=
  let ph := (gloveOf s g).phase
  dueEvent ((ph.recent.find? (fun t => decide (t.old ≤ r ∧ r < t.word.count))).getD
    { old := r, word := ph.word, cycle := s.clock.cycle }) r .keyRotation 0 0

/-- The mark of a VINTAGE_OPEN with the next key generation. -/
def markNext (mark : Nat) : Nat := if markGeneration mark = 2 ^ 32 - 1 then mark - 2 * (2 ^ 32 - 1) else mark + 2

/-- Serialized VINTAGE_OPEN commands stamped above a rotation phase take the next generation (R419, R420). -/
def advanceMarks (s : State) (g r : Nat) : State :=
  let late (p : Packet) : Bool := p.opcode == 0x0104 && p.ctx == g && r < p.stamp.count
  let next (p : Packet) : Packet := { p with mark := p.mark.map markNext }
  { s with
    staged := mapIf late next s.staged
    outstanding := mapIf (fun o => late o.pkt) (fun o => { o with pkt := next o.pkt }) s.outstanding }

/-- R is judged against the count at the command's serialization; where ticks have passed it since, it has fallen due
(R65, R420). -/
def cmdKeyRotateSet : Cmd where
  op := 0x0807
  names p _ := [.glove p.ctx]
  form p _ := formError p (p.len = 16) false
    [(0, p.u8 0 ≤ 1), (1, p.num 1 7 == 0), (8, p.u64 8 < 2 ^ 48 && (p.u8 0 == 0 || p.u64 8 == 0))]
  state p s := do
    rootsPresent s
    need (p.u8 0 == 1 || p.stamp.count ≤ p.u64 8) .badState 1
    need (p.u8 0 == 0 || (gloveOf s p.ctx).rotation.isSome) .badState 2
  body p s :=
    let g := gloveOf s p.ctx
    let passed := decide (p.u8 0 = 0 ∧ p.u64 8 < g.phase.word.count)
    let s1 := setGlove s p.ctx (fun x => { x with rotation := if p.u8 0 = 0 ∧ ¬ passed then some (p.u64 8) else none })
    .ok (if passed then advanceMarks (addDue s1 p.ctx [passedRotation s p.ctx (p.u64 8)]) p.ctx (p.u64 8) else s1,
      okWith g.generation)

/-- KEY_ROTATE_SET. -/
def execKeyRotateSet (p : Packet) (s : State) : Host.Outcome State Fault Refusal := runCmd cmdKeyRotateSet p s

/-! ### KEY_REMASK (R413, R414) -/

/-- The re-mask round takes the blocks that are queued in the reserve, as far as it has slots. -/
def takeReserve : Nat → State → State
  | 0, s => s
  | n + 1, s => if remaskWaits s ∧ s.ent.reserve ≠ 0 then takeReserve n (takeBlocks (remaskNext s) vintner 1) else s

/-- KEY_REMASK: the 10 ms re-mask time. A round begins: each non-empty slot takes a block of the reserve, the queued ones at
once and the others as they are released, before any draw of a command (R386, R388; DESIGN CHOICE,
notes/assumptions/145.md). In FAILED every non-empty slot is zeroed and LOST; before READY the round stalls (R391). -/
def execKeyRemask (late : Bool) (s : State) : Host.Outcome State Fault Refusal :=
  match s.ent.state with
  | .startup => .next s
  | .failed =>
    let lose (k : KeySlot) : KeySlot := { k with state := .lost, share0 := zeros 32, share1 := zeros 32 }
    .next { s with keys := { s.keys with slots := s.keys.slots.map lose, remasking := [] } }
  | _ =>
    .next (takeReserve s.ent.reserve { s with keys := { s.keys with
      remask := satAdd (2 ^ 32 - 1) s.keys.remask 1, remaskLate := satAdd (2 ^ 32 - 1) s.keys.remaskLate (b2n late)
      remasking := s.keys.slots.map (fun k => k.slot) } })

end Sys2Proof.Machine
end

