-- ==== Sys2Proof/Machine/Firmware.lean ====
section
/-! DEFINITION. Firmware images and slots (R425, R435 to R441) and the commands 0x0910 to 0x0912. -/

set_option autoImplicit false

namespace Sys2Proof.Machine

/-! ### Slots and images (R435, R436) -/

def fwStateCode : FwState → Nat
  | .empty => 0
  | .writing => 1
  | .verified => 2
  | .pending => 3
  | .active => 4
  | .invalid => 5

/-- Slot 0 is A, slot 1 is B. -/
def fwSlot (f : Firmware) (i : Nat) : FwSlot := if i = 0 then f.slotA else f.slotB

def setFwSlot (f : Firmware) (i : Nat) (g : FwSlot → FwSlot) : Firmware :=
  if i = 0 then { f with slotA := g f.slotA } else { f with slotB := g f.slotB }

def setFw (s : State) (f : Firmware → Firmware) : State := { s with fw := f s.fw }

/-- The slot that is not running. -/
def otherSlot (f : Firmware) : Nat := 1 - f.running

/-- `n` bytes of a slot's image. -/
def imageBytes (x : FwSlot) (off n : Nat) : List Byte :=
  if x.factory then (List.range n).map (fun i => Config.factoryByte (off + i)) else Memory.readN x.image off n

def securityVersion (x : FwSlot) : Nat := (field (imageBytes x 6 1) 0 1) % 128
def imageVersion (x : FwSlot) : Nat := field (imageBytes x 8 4) 0 4

/-- The measurement of an image: SHA-256 over bytes 0 to 255. -/
def measurement (x : FwSlot) : List Byte := Crypto.sha256 (imageBytes x 0 256)

def slotBytes : Nat := 64 * 2 ^ 20
def imageHead : Nat := 32768
def slhLong : Nat := 29792

/-- Numbers of the vendor keys in ROM: FW_PROD, FW_SERVICE, and the certificate key. -/
def keyProd : Nat := 0
def keyService : Nat := 1
def keyCert : Nat := 2

/-- Fields of an image in range (R435). -/
def imageForm (h : List Byte) : Bool :=
  field h 0 4 == 0x4657514C && field h 4 2 == 1 && field h 6 1 < 128 && 1 ≤ field h 12 4 && field h 12 4 ≤ 67076096 &&
    field h 48 1 ≤ 1 && allZero (slice h 49 207) && allZero (slice h 30048 2720)

/-- The check of R437: the refusal, or none. The image of manufacture is taken as checked but for its security
version (PRESUMED, notes/assumptions/37.md). -/
def imageCheck (s : State) (x : FwSlot) : Option (Status × Nat) :=
  if x.factory then (if securityVersion x < s.fw.rollback then some (.rollbackRefused, 0) else none)
  else
    let h := imageBytes x 0 imageHead
    let signer := field h 48 1
    if ¬ imageForm h then some (.imageAuth, 0)
    else if signer = 1 ∧ (s.fw.lc = .prov ∨ s.fw.lc = .deployed) then some (.imageAuth, 3)
    else if ¬ Config.slhVerify signer (h.take 256) (slice h 256 slhLong) then some (.imageAuth, 1)
    else if ¬ (field h 7 1).testBit (lifeCode s.fw.lc) then some (.imageAuth, 3)
    else if Crypto.sha256 (imageBytes x imageHead (field h 12 4)) ≠ slice h 16 32 then some (.imageAuth, 2)
    else if field h 6 1 < s.fw.rollback then some (.rollbackRefused, 0)
    else none

/-- GBL_FW. -/
def regFw (f : Firmware) : Nat :=
  f.running + 2 * b2n f.trial + 4 * b2n f.recovery + 8 * fwStateCode f.slotA.state + 2 ^ 6 * fwStateCode f.slotB.state +
    2 ^ 9 * f.rollback

/-- GBL_FW_VERSION: no image runs in RECOVERY. -/
def runningVersion (f : Firmware) : Nat := if f.recovery then 0 else imageVersion (fwSlot f f.running)

/-- GBL_LC. -/
def regLc (f : Firmware) : Nat := lifeCode f.lc + 4 * b2n f.debug + 8 * b2n f.debugPending

/-- STAGED of R431: how the slot that is not running stands. -/
def stagedCode (f : Firmware) : Nat :=
  match (fwSlot f (otherSlot f)).state with
  | .writing => 1
  | .verified => 2
  | .pending => 3
  | _ => 0

def stagedVersion (f : Firmware) : Nat := if 2 ≤ stagedCode f then imageVersion (fwSlot f (otherSlot f)) else 0

/-- Whether a write to flash or fuses succeeds is free (R444). -/
def storeWorks (s : State) : Bool × State :=
  let (d, s1) := drawFree s
  (Config.storeWorks d, s1)

/-! ### FW_STAGE (R436, R437) -/

def stageInline (p : Packet) : Bool := p.u8 0 == 1 && p.u8 1 == 0
def stageWindow (p : Packet) : Bool := p.u8 0 == 1 && p.u8 1 == 1

def writingSlot (s : State) : Option FwSlot :=
  let x := fwSlot s.fw (otherSlot s.fw)
  if x.state = .writing then some x else none

def cmdFwStage : Cmd where
  op := 0x0910
  sideband := true
  issuer := .vintner
  names p _ := if stageWindow p then [.window (p.u32 16 / 256)] else []
  access p s := windowCheck s p.ctx (p.u32 16) rightRead (p.u64 24) (p.u32 4)
    (p.len == 32 && stageWindow p && p.route != .sideband)
  form p s :=
    let write := p.u8 0 == 1
    formError p (p.len == (if stageInline p then 32 + p.u32 4 else 32)) false
      [(0, p.u8 0 ≤ 2), (1, p.u8 1 ≤ 1 && !(stageWindow p && p.route == .sideband)), (2, p.u16 2 == 0),
       (4, if stageInline p then 1 ≤ p.u32 4 && p.u32 4 ≤ 4000 else if write then 1 ≤ p.u32 4 && p.u32 4 ≤ 1048576
         else p.u32 4 == 0),
       (8, !write || (p.u64 8 + p.u32 4 ≤ slotBytes && ((writingSlot s).map (fun x => p.u64 8 == x.written)).getD true)),
       (16, stageWindow p || p.u32 16 == 0), (20, p.u32 20 == 0)]
  state p s :=
    if p.u8 0 = 0 then need (s.fw.slotA.state != .pending && s.fw.slotB.state != .pending &&
      (fwSlot s.fw (otherSlot s.fw)).state != .active) .badState
    else need (writingSlot s).isSome .badState
  body p s := do
    let (works, s1) := storeWorks s
    let i := otherSlot s.fw
    if ¬ works then .ok (s1, .answer { status := .storeFault })
    else match p.u8 0 with
    | 0 => .ok (setFw s1 (fun f => setFwSlot f i (fun _ => { state := .writing })), okWith)
    | 1 =>
      let (bytes, s2) ← if stageInline p then .ok (p.bytes 32 (p.u32 4), s1)
        else readWindow s1 p.ctx (p.u32 16) (p.u64 24) (p.u32 4)
      let put (x : FwSlot) : FwSlot := { x with
        image := Memory.writeN x.image (p.u64 8) bytes, written := p.u64 8 + bytes.length }
      .ok (setFw s2 (fun f => setFwSlot f i put), okWith (p.u64 8 + bytes.length))
    | _ =>
      match imageCheck s1 (fwSlot s1.fw i) with
      | some (st, detail) =>
        .ok (setFw s1 (fun f => setFwSlot f i (fun x => { x with state := .invalid })), .answer { status := st, detail := detail })
      | none =>
        .ok (setFw s1 (fun f => setFwSlot f i (fun x => { x with state := .verified })), okWith (securityVersion (fwSlot s1.fw i)))

/-- FW_STAGE. -/
def execFwStage (p : Packet) (s : State) : Host.Outcome State Fault Refusal := runCmd cmdFwStage p s

/-! ### FW_SELECT (R438, R439, R441) -/

/-- A PENDING slot that is not running. -/
def cancelable (f : Firmware) : Option Nat :=
  [0, 1].find? (fun i => (fwSlot f i).state == .pending && !(i == f.running && f.trial))

/-- R439. -/
def confirmTrial (f : Firmware) : Firmware :=
  let version := securityVersion (fwSlot f f.running)
  let f1 := setFwSlot f (otherSlot f) (fun x => if x.state = .active then { x with state := .verified } else x)
  let f2 := setFwSlot f1 f.running (fun x => { x with state := .active, tried := false })
  { f2 with trial := false, rollback := max f.rollback version }

def cmdFwSelect : Cmd where
  op := 0x0911
  sideband := true
  issuer := .vintner
  form p _ := formError p (p.len = 8) false
    [(0, p.u8 0 ≤ 2), (1, if p.u8 0 = 0 then p.u8 1 ≤ 1 else p.u8 1 == 0), (2, p.num 2 6 == 0)]
  state p s :=
    match p.u8 0 with
    | 0 => need ((fwSlot s.fw (p.u8 1)).state == .verified) .badState
    | 1 => need s.fw.trial .badState
    | _ => need (cancelable s.fw).isSome .badState
  body p s := do
    need (p.u8 0 != 0 || s.fw.rollback ≤ securityVersion (fwSlot s.fw (p.u8 1))) .rollbackRefused
    let (works, s1) := storeWorks s
    if ¬ works then .ok (s1, .answer { status := .storeFault })
    else match p.u8 0 with
    | 0 => .ok (setFw s1 (fun f => setFwSlot f (p.u8 1) (fun x => { x with state := .pending, tried := false })), okWith)
    | 1 =>
      let s2 := setFw s1 confirmTrial
      .ok (s2, okWith s2.fw.rollback)
    | _ => .ok (setFw s1 (fun f => setFwSlot f ((cancelable f).getD 0) (fun x => { x with state := .verified })), okWith)

/-- FW_SELECT. -/
def execFwSelect (p : Packet) (s : State) : Host.Outcome State Fault Refusal := runCmd cmdFwSelect p s

/-! ### FW_QUERY -/

def cmdFwQuery : Cmd where
  op := 0x0912
  sideband := true
  issuer := .vintner
  form p _ := formError p (p.len = 0) false []
  body _ s := .ok (s, okWith (regFw s.fw) (runningVersion s.fw) (stagedVersion s.fw) (regLc s.fw))

/-- FW_QUERY. -/
def execFwQuery (p : Packet) (s : State) : Host.Outcome State Fault Refusal := runCmd cmdFwQuery p s

end Sys2Proof.Machine
end

