-- ==== Sys2Proof/Machine/Vintages.lean ====
section
/-! DEFINITION. Vintages and Casks as commands reach them: the survivor exchange of a sharded Vintage (R93 to
R98), the seal (R105, R231), the ends of a Vintage (R104), and the commands 0x0101 to 0x0109 of chapter 4. -/

set_option autoImplicit false

namespace Sys2Proof.Machine

/-! ### Retraction (R230) -/

/-- A client with a placed count of 0 in every accumulate Cask and no packet in progress has nothing to
remove (R230). -/
def nothingToRemove (s : State) (g v u : Nat) : Bool :=
  let casks := accumulateCasks s g v
  casks.all (fun c => (tallyOf c.tallies u).placed == 0) && !clientInFlight s g casks u

/-- A client becomes RETRACTING, or RETRACTED at once; what was held back for it is discarded (R223, R226, R227,
R230). -/
def retractClient (s : State) (g vid u : Nat) : State :=
  let st := if nothingToRemove s g vid u then Standing.retracted else Standing.retracting
  setVintage s g vid (fun v => setStanding { v with
    heldConflicts := v.heldConflicts.filter (fun h => h.1 != u), heldMessages := v.heldMessages.filter (fun h => h.1 != u) } u st)

/-! ### The survivor exchange (R93, R95 to R98) -/

/-- The shard digest (R93). -/
def shardDigestOf (v : Vintage) : List Byte :=
  let m := v.masking
  Crypto.sha256 (Config.shardLayout
    [v.id, v.clients, v.floor, v.c, v.s, v.e, b2n v.sealAbort,
     (m.map (fun m => 1 + b2n m.uploaded + 2 * b2n m.commit + 4 * b2n m.sealedShares)).getD 0,
     (m.map (fun m => m.degree)).getD 0, (m.map (fun m => m.threshold)).getD 0]
    ((m.map (fun m => m.salt ++ m.seed)).getD []))

/-- Payload of a REPORT or RESULT: digest, and a bitmap of clients. -/
def shardPayload (digest : List Byte) (clients : Nat) (set : List Nat) : List Byte :=
  digest ++ toLE (ceilDiv clients 8) (set.foldl (fun n u => n ||| 2 ^ u) 0)

def shardBytes (clients : Nat) : Nat := 32 + ceilDiv clients 8

/-- The bytes of a stored report or result. -/
def reportBytes (r : ShardReport) : List Byte :=
  (List.range r.total).map (fun i => BitVec.ofNat 8 (Sparse.get r.bytes i))

def reportDigest (r : ShardReport) : List Byte := (reportBytes r).take 32
def reportClients (r : ShardReport) (clients : Nat) : List Nat :=
  (List.range clients).filter (fun u => (Sparse.get r.bytes (32 + u / 8)).testBit (u % 8))

/-- A report held whole. -/
def reportOf (shard conn : Nat) (bytes : List Byte) : ShardReport :=
  { shard := shard, conn := conn, total := bytes.length, complete := true, have_ := [(0, bytes.length)]
    bytes := (List.zip (List.range bytes.length) bytes).foldl (fun m x => Sparse.set m x.1 x.2.toNat) [] }

/-- This module is the lead of the Vintage. -/
def isLead (s : State) (v : Vintage) : Bool := s.net.trellis.member == v.lead

/-- A Glove's Trellis connection to a member that is ESTABLISHED. -/
def trellisTo (s : State) (g member : Nat) : Option Conn :=
  s.conns.find? (fun c => c.owner == g && c.trellis && c.member == member && c.state == .established)

/-- The connection a shard's exchange uses: the first ESTABLISHED one in the order of creation, else the first that may
resume. R97 does not say which of several carries the REPORT (DESIGN CHOICE, notes/assumptions/131.md). -/
def shardConn (s : State) (g member : Nat) : Option Conn :=
  match trellisTo s g member with
  | some c => some c
  | none => s.conns.find? (fun c => c.owner == g && c.trellis && c.member == member && c.state != .error &&
      c.state != .closing)

/-- Send a REPORT (kind 1) or RESULT (kind 2) message (R97, R117). -/
def sendShard (s : State) (cid : Nat) (v : Vintage) (kind index : Nat) (mismatch : Bool) (bytes : List Byte) : State :=
  match connOf s cid with
  | none => s
  | some c =>
    let parts := pieces 4088 bytes
    let ext := toLE 4 v.id ++ toLE 1 kind ++ toLE 1 (b2n mismatch) ++ toLE 2 index ++ toLE 4 bytes.length ++ zeros 4
    let s1 := setConn s cid (fun c => { c with nextMsg := (c.nextMsg + 1) % 2 ^ 32 })
    (List.zip (List.range parts.length) parts).foldl (fun s x =>
      submit s cid {
        psn := 0, op := 0x0F, timerUs := c.minTimer
        pkt := { port := 0, conn := 0, incarnation := 0, first := x.1 == 0, last := x.1 + 1 == parts.length,
                 msg := c.nextMsg, offset := 4088 * x.1, ext := ext, payload := x.2 } }) s1

/-- The survivor set is fixed: the floor is applied, VINTAGE_SEALED and the REMOVE notices go out, waiting
shares are judged, and a ledger whose close fell due closes (R95, R98, R106, R110, R187, R231). The local
view is `survivors`. Of the RACK_SAFE notices that a sharded Vintage withheld, those of each Cask's last verified
checkpoint go out (DESIGN CHOICE, notes/assumptions/157.md). -/
def fixSurvivors (s : State) (g vid : Nat) (survivors : List Nat) : State :=
  match vintageOf s g vid with
  | none => s
  | some v =>
    let total := survivors.length + v.partialSurvivors
    let v1 := { v with
      survivors := survivors, survivorsFixed := true, belowCohort := v.belowCohort || decide (total < v.floor) }
    let s1 := setVintage s g vid (fun _ => v1)
    let s2 := vintageEvent s1 v1 0x0113 (if v1.belowCohort then .belowCohort else .ok) 0 0 total v1.sealPhase
      (v1.clients - survivors.length) v1.leesRetracted
    let pend := pendingRemovals s2 v1
    let s3 := sendRemoves s2 v1 false pend v1.sealPhase
    let casks := accumulateCasks s3 g vid
    let s4 := if v1.shardCount = 1 then s3 else casks.foldl (fun s c =>
      match c.verified with
      | some cp => sendRackSafe s v1 c.id cp
      | none => s) s3
    let s5 := casks.foldl (fun s c => setCask s g c.id (fun c => { c with
      baseReady := pend.isEmpty && c.dueCuts.isEmpty && c.inProgress.isNone && c.rollback.isNone &&
        ((c.verified.map (fun cp => cp.sealCp)).getD false) })) s4
    closeLedger (runCorrections (releaseShares s5 g vid) g vid) g vid (2 ^ 64)

/-- SHARD_MISMATCH at the lead: a RESULT with MISMATCH and an empty bitmap goes to every shard whose report
it holds (R98). -/
def leadMismatch (s : State) (g vid : Nat) : State :=
  match vintageOf s g vid with
  | none => s
  | some v =>
    let s1 := setVintage s g vid (fun v => { v with shardMismatch := true })
    (v.reports.filter (fun r => r.complete && r.shard != v.shardIndex)).foldl (fun s r =>
      sendShard s r.conn v 2 r.shard true (shardPayload v.shardDigest v.clients [])) s1

/-- The lead computes the survivor set once it holds a report of every shard (R95 to R97). -/
def tryExchange (s : State) (g vid : Nat) : State :=
  match vintageOf s g vid with
  | none => s
  | some v =>
    let all := (List.range v.shardCount).all (fun i => v.reports.any (fun r => r.shard == i && r.complete))
    if v.state = .draft ∨ v.state = .opened ∨ terminalState v.state ∨ v.survivorsFixed ∨ v.shardMismatch ∨ ¬ all then s
    else
      let mismatch := v.reports.any (fun r => reportDigest r != v.shardDigest)
      let set := (reportClients (v.reports.getD 0 default) v.clients).filter (fun u =>
        v.reports.all (fun r => (Sparse.get r.bytes (32 + u / 8)).testBit (u % 8)))
      let s1 := (v.reports.filter (fun r => r.shard != v.shardIndex)).foldl (fun s r =>
        sendShard s r.conn v 2 r.shard mismatch (shardPayload v.shardDigest v.clients set)) s
      if mismatch then setVintage s1 g vid (fun v => { v with shardMismatch := true })
      else fixSurvivors s1 g vid set

/-- A shard's own report at its seal: kept at the lead, sent to it elsewhere (R97). -/
def reportShard (s : State) (g vid : Nat) : State :=
  match vintageOf s g vid with
  | none => s
  | some v =>
    let bytes := shardPayload v.shardDigest v.clients v.survivors
    if isLead s v then
      let s1 := setVintage s g vid (fun v => { v with
        reports := v.reports.filter (fun r => r.shard != v.shardIndex) ++ [reportOf v.shardIndex 0 bytes] })
      if v.shardMismatch then leadMismatch s1 g vid else tryExchange s1 g vid
    else match shardConn s g v.lead with
      | some c => sendShard s c.id v 1 v.shardIndex false bytes
      | none => if v.live then setVintage s g vid (fun v => { v with shardMismatch := true }) else s

/-! ### The ends of a Vintage (R103, R104) -/

/-- Removals pending and secrets not yet applied (VINTAGE_QUERY result 3), from SEALED to READY. -/
def pendingWork (s : State) (v : Vintage) : Nat :=
  match v.state with
  | .sealedV => (pendingRemovals s v).length + (if v.masking.isSome then pendingSecrets s v else 0)
  | .unmasking => (pendingRemovals s v).length + (if v.masking.isSome then pendingSecrets s v else 0)
  | .ready => (pendingRemovals s v).length + (if v.masking.isSome then pendingSecrets s v else 0)
  | _ => 0

def survivorCount (v : Vintage) : Nat := v.survivors.length + v.partialSurvivors

/-- What VINTAGE_QUERY and the summary say of a Vintage. -/
def summaryOf (s : State) (v : Vintage) (byPolicy : Bool) : Summary where
  id := v.id
  state := v.state
  flags := vintageFlags s v
  racked := if v.wasSealed then survivorCount v else (rackedClients s v).length
  dropped := if v.wasSealed then v.clients - v.survivors.length else 0
  verified := v.checkpoints
  pendingWork := pendingWork s v
  floor := v.floor
  allowance := v.allowance
  byPolicy := byPolicy

/-- Free a Cask: its granules and LPDDR are zeroed, and what connections kept about it goes (R102, R182). -/
def freeCask (s : State) (g cask : Nat) : State :=
  let s := dropLines s (fun l => l.glove == g && l.cask == cask)
  { s with
    casks := s.casks.filter (fun c => !(c.glove == g && c.id == cask))
    conns := s.conns.map (fun c =>
      if c.owner = g then
        { c with placedInto := c.placedInto.filter (· != cask), fences := c.fences.filter (fun f => f.1 != cask)
                 sentPartials := c.sentPartials.filter (fun x => x.cask != cask) }
      else c) }

/-- A terminal Vintage gives up its Casks, its records and its identity; the last 64 summaries stay (R103). -/
def freeVintage (s : State) (g vid : Nat) (sum : Summary) : State :=
  let s1 := (casksBound s g vid).foldl (fun s c => freeCask s g c.id) s
  let s2 := { s1 with vintages := s1.vintages.filter (fun v => !(v.glove == g && v.id == vid)) }
  setGlove s2 g (fun x =>
    let l := x.summaries ++ [sum]
    { x with
      summaries := l.drop (l.length - Config.maxSummaries)
      phase := { x.phase with due := x.phase.due.filter (fun e => e.vintage != vid || e.kind == .keyRotation) } })

/-- Keys of the Vintage's windows. -/
def vintageKeys (s : State) (g vid : Nat) : List Nat := (vintageWindows s g vid).map (fun w => windowKey w.index w.gen)

/-- Enter CLOSED or ABORTED: windows are revoked, shares, seeds and standings are zeroed, the event goes out, and the
boundary is taken. Answers the summary (R65, R104, R110, R207, R223). -/
def enterEnd (s : State) (v : Vintage) (st : VState) (byPolicy : Bool) : State × Summary :=
  let s1 := if st = .aborted then
      vintageEvent s v 0x0116 .ok 0 (b2n byPolicy) (vintageStateCode v.state) (contextWord s v.glove) 0 0
    else s
  let sum := summaryOf s1 { v with state := st } byPolicy
  let s2 := setVintage s1 v.glove v.id (fun v => { v with
    state := st, release := none, masking := none, shares := [], secrets := [], once := [], standings := [], reports := [], result := none })
  let s3 := (vintageWindows s2 v.glove v.id).foldl (fun s w => revokeWindow s w.index) s2
  (boundary s3 v.glove, sum)

/-- The whole end of a Vintage whose windows have nothing to drain. -/
def endVintage (s : State) (v : Vintage) (st : VState) (byPolicy : Bool) : State :=
  let (s1, sum) := enterEnd s v st byPolicy
  freeVintage s1 v.glove v.id sum

/-- VINTAGE_CLOSE and VINTAGE_ABORT whose windows have drained are answered (R137). -/
def settleEnds (s : State) : State :=
  s.outstanding.foldl (fun s o =>
    match o.wait with
    | .ends g vid keys left =>
      if keysBusy s keys then s
      else match vintageOf s g vid with
        | some v =>
          reply (freeVintage s g vid (summaryOf s v false)) o.pkt { status := .ok, r0 := left }
        | none => reply s o.pkt { status := .ok, r0 := left }
    | _ => s) s

/-! ### The seal (R17, R105, R159, R231) -/

/-- Source members with partials in the Vintage, and whether every accumulate Cask holds each complete. -/
def partialMembers (casks : List Cask) : List Nat :=
  dedup (casks.flatMap (fun c => c.partials.map (fun t => t.member)))

def partialWhole (t : PartialTally) : Bool := t.placed == t.expected && !t.conflict && t.expected != 0

def memberWhole (casks : List Cask) (m : Nat) : Bool :=
  casks.all (fun c => c.partials.any (fun t => t.member == m && partialWhole t))

/-- Survivors that complete partials carry (R159). -/
def carriedSurvivors (casks : List Cask) : Nat :=
  sumOf (fun m => (((casks.flatMap (fun c => c.partials)).find? (fun t => t.member == m)).map
    (fun t => t.survivors)).getD 0) ((partialMembers casks).filter (memberWhole casks))

/-- Under SEAL_POLICY ABORT unresolved Lees abort the Vintage (R231 step 1). -/
def sealAborts (v : Vintage) : Bool := v.sealAbort && v.standings.any (fun x => x.2 == .lees)

/-- Seal an OPEN Vintage at a phase word (R231). -/
def sealVintage (s : State) (g vid : Nat) (word : PhaseWord) : State :=
  match vintageOf s g vid with
  | none => s
  | some v =>
    if sealAborts v then endVintage s v .aborted true
    else
      let lees := (v.standings.filter (fun x => x.2 == .lees)).map Prod.fst
      let s1 := lees.foldl (fun s u => retractClient s g vid u) s
      let casks := accumulateCasks s1 g vid
      let racked := ((vintageOf s1 g vid).map (rackedClients s1)).getD []
      let broken := !(partialMembers casks).all (memberWhole casks)
      let s2 := setVintage s1 g vid (fun v => { v with
        state := .sealedV, wasSealed := true, sealPhase := word, leesRetracted := lees.length, survivors := racked
        partialSurvivors := carriedSurvivors casks, shardMismatch := v.shardMismatch || broken })
      let s3 := casks.foldl (fun s c => setCask s g c.id (fun c => { c with dueCuts := c.dueCuts ++ [(0, word, true)] })) s2
      if v.shardCount = 1 then fixSurvivors s3 g vid racked else reportShard s3 g vid

/-- Packets stamped at or below the close that are still parked or in progress for the Vintage's accumulate
Casks: the seal of a tick takes effect after them (R63, R105; DEDUCED, notes/assumptions/15.md). -/
def closeWaits (s : State) (g vid c : Nat) : Bool :=
  (accumulateCasks s g vid).any (fun k => s.conns.any (fun x => x.owner == g &&
    (x.req.flight.any (fun f => !f.complete && windowHits g k.id f.win && f.stamp.count ≤ c) ||
     x.parked.any (fun p => windowHits g k.id p.win && p.stamp.count ≤ c))))

/-- Share close: the Vintage enters UNMASKING, and its ledger closes (R64, R104, R220). -/
def shareClose (s : State) (g vid : Nat) (word : PhaseWord) : State :=
  let s1 := setVintage s g vid (fun v => { v with state := .unmasking, sharePhase := word })
  closeLedger s1 g vid (2 ^ 64)

/-! ### VINTAGE_CREATE (R103, R306) -/

/-- Vintages outside CLOSED and ABORTED. -/
def openCount (s : State) (sel : Vintage → Bool) : Nat :=
  (s.vintages.filter (fun v => !terminalState v.state && sel v)).length

/-- LPDDR that VINTAGE_CREATE reserves, in MiB: registry, standings and shard reports (R97, R216, R223). -/
def vintageLpddr (encrypted : Bool) (clients shards : Nat) : Nat :=
  (if encrypted then 0 else mib2 (64 * clients)) + mib2 clients +
    (if 1 < shards then mib2 (shards * shardBytes clients) else 0)

/-- The Glove still keeps a record or summary of the ID. -/
def vintageKept (s : State) (g vid : Nat) : Bool :=
  (vintageOf s g vid).isSome || (gloveOf s g).summaries.any (fun x => x.id == vid)

def cmdVintageCreate : Cmd where
  op := 0x0101
  names p _ := [.vintage p.ctx p.vintage] ++ (if p.u8 0 = 1 then [.keySet p.ctx (p.u32 56)] else []) ++
    (if p.u16 12 = 0xFFFF then [] else [.recipe p.ctx (p.u16 12)])
  access p s := do
    need (!(p.ctx < 16 && (gloveOf s p.ctx).cfg.masker)) .accessViolation
    need (!(p.len == 72 && p.u8 0 == 1) || (gloveOf s p.ctx).keySets.any (fun k => k.id == p.u32 56)) .accessViolation
  form p _ :=
    let n := p.u32 4
    let sharded := 1 < p.u16 60
    formError p (p.len = 72) true
      [(0, p.u8 0 ≤ 1), (1, p.u8 1 ≤ 1), (2, p.u8 2 ≤ 1), (3, p.u8 3 == 0),
       (4, 1 ≤ n && n ≤ 4194304), (8, p.u32 8 == 0 || (100 ≤ p.u32 8 && p.u32 8 ≤ n)),
       (12, p.u16 12 ≤ 63 || p.u16 12 == 0xFFFF), (14, p.u16 14 == 0),
       (16, p.u64 16 < 2 ^ 48), (24, p.u64 24 < 2 ^ 48 && p.u64 16 < p.u64 24),
       (32, p.u64 32 < 2 ^ 48 && p.u64 16 < p.u64 32), (40, p.u64 40 < 2 ^ 32),
       (48, if p.u8 2 = 0 then p.u64 48 == 0 else 2 ^ 16 ≤ p.u64 48 && p.u64 48 ≤ 2 ^ 56),
       (56, p.u8 0 == 1 || p.u32 56 == 0), (60, 1 ≤ p.u16 60 && p.u16 60 ≤ 64),
       (62, p.u16 62 < p.u16 60), (64, sharded || p.u16 64 == 0), (66, p.num 66 6 == 0)]
  state p s := need (p.vintage != 0 && !vintageKept s p.ctx p.vintage) .badState
  body p s := do
    need (openCount s (fun v => v.glove == p.ctx) < Config.maxVintagesGlove &&
      openCount s (fun _ => true) < Config.maxVintagesModule) .noResource 1
    let mib := vintageLpddr (p.u8 0 == 1) (p.u32 4) (p.u16 60)
    need (lpddrFits s p.ctx mib) .noResource 2
    let v : Vintage := {
      glove := p.ctx, id := p.vintage, state := .draft, encrypted := p.u8 0 == 1, sealAbort := p.u8 1 == 1
      noise := p.u8 2 == 1, clients := p.u32 4, floor := if p.u32 8 = 0 then 1000 else p.u32 8
      recipe := p.u16 12, c := p.u64 16, s := p.u64 24, e := p.u64 32, k := p.u64 40, sigma := p.u64 48
      keySet := p.u32 56, shardCount := p.u16 60, shardIndex := p.u16 62, lead := p.u16 64, lpddr := mib }
    .ok ({ s with vintages := s.vintages ++ [v] }, okWith)

/-- VINTAGE_CREATE. -/
def execVintageCreate (p : Packet) (s : State) : Host.Outcome State Fault Refusal := runCmd cmdVintageCreate p s

/-! ### CASK_ALLOC (R83, R84, R91, R92) -/

/-- LPDDR a Cask reserves, in MiB (R91). -/
def caskLpddr (bytes role limbs clients : Nat) : Nat :=
  if role = 0 then
    let tallies := mib2 (clients * (16 + 32 * limbs))
    3 * mib2 bytes + 2 * 18 + 3 * tallies
  else mib2 bytes

/-- Granules that the resident Casks of a Glove hold in each Vat. -/
def cellarUsed (s : State) (g : Nat) : Nat := sumOf (fun c => if c.glove = g then c.granules else 0) s.casks

def caskLimbs (p : Packet) : Nat := p.u8 8
def caskModuli (p : Packet) : List Nat := (List.range (caskLimbs p)).map (fun i => p.u64 (24 + 8 * i))

/-- First bad modulus of a list: each odd, from 3 to 2^62 - 1, all different. -/
def badModulus (l : List Nat) : Option Nat :=
  posOf (fun i => let m := l.getD i 0
    m < 3 || 2 ^ 62 ≤ m || m % 2 == 0 || (l.take i).contains m) (List.range l.length)

/-- The Cask of a CASK_ALLOC, over the Glove's own Vat list: resident where its placement and the quota let it be (R84, R90,
R453). -/
def newCask (p : Packet) (s : State) : Cask :=
  let limbs := caskLimbs p
  let w := coordBytes (p.u8 2)
  let vats := (gloveOf s p.ctx).vatList
  let granules := stripeGranules (p.u32 4 * limbs) w vats.length
  let fits := decide (cellarUsed s p.ctx + granules ≤ (gloveOf s p.ctx).cfg.cellar)
  let spilled := p.u8 3 == 2 || !fits
  let clients := ((vintageOf s p.ctx p.vintage).map (fun v => v.clients)).getD 0
  { glove := p.ctx, id := p.u16 0, vintage := p.vintage, ring := p.u8 2, n := p.u32 4, limbs := limbs
    moduli := if p.u8 2 = 3 then caskModuli p else [], role := p.u8 9, placement := p.u8 3, spilled := spilled
    granules := if spilled then 0 else granules
    lpddr := caskLpddr (w * p.u32 4 * limbs) (p.u8 9) limbs clients
    shardBase := p.u64 16, vats := vats }

def cmdCaskAlloc : Cmd where
  op := 0x0102
  names p _ := [.cask p.ctx (p.u16 0)] ++ (if p.vintage = 0 then [] else [.vintage p.ctx p.vintage])
  access p s := need (caskInRange s p.ctx (p.u16 0)) .accessViolation
  form p _ :=
    let ring := p.u8 2
    let limbs := p.u8 8
    let n := p.u32 4
    formError p (p.len == (if ring = 3 then 24 + 8 * limbs else 24)) true
      [(2, ring ≤ 5), (3, p.u8 3 ≤ 2), (4, 1 ≤ n && n * max 1 limbs ≤ 2 ^ 31),
       (8, if ring = 3 then 1 ≤ limbs && limbs ≤ 64 else limbs == 1),
       (9, p.u8 9 ≤ 2 && !(p.u8 9 == 0 && (4 ≤ ring || p.vintage == 0))), (10, p.num 10 6 == 0),
       (16, p.u64 16 + n ≤ 2 ^ 32)]
  state p s := do
    need (caskOf s p.ctx (p.u16 0)).isNone .badState
    if p.vintage = 0 then .ok ()
    else
      let v ← want (vintageOf s p.ctx p.vintage) .badState
      need (v.state == .draft) .badState
      need ((casksBound s p.ctx p.vintage).length < 256) .badState
      need (p.u8 9 != 0 || (accumulateCasks s p.ctx p.vintage).length < 255) .badState
      need (v.encrypted || p.u8 2 != 3 || p.u8 8 == 1) .badState
  body p s := do
    let c := newCask p s
    need (p.u8 3 != 0 || !c.spilled) .noResource 1
    need (lpddrFits s p.ctx c.lpddr) .noResource 2
    need (s.casks.length < Config.maxCasks) .noResource 3
    match (if p.u8 2 = 3 then badModulus (caskModuli p) else none) with
    | some i => fail .badParam (88 + 8 * i)
    | none => .ok ({ s with casks := s.casks ++ [c] }, okWith (b2n c.spilled) c.granules c.lpddr)

/-- CASK_ALLOC. -/
def execCaskAlloc (p : Packet) (s : State) : Host.Outcome State Fault Refusal := runCmd cmdCaskAlloc p s

/-! ### CASK_FREE -/

/-- A Cask ID that a recipe step names. -/
def stepNames (step : List Byte) (cask : Nat) : Bool :=
  field step 2 2 == cask || field step 4 2 == cask || field step 6 2 == cask || field step 8 2 == cask

/-- The recipe of a Vintage that is not terminal names the Cask. -/
def recipeNames (s : State) (g cask : Nat) : Bool :=
  s.vintages.any (fun v => v.glove == g && !terminalState v.state &&
    (((gloveOf s g).recipes.find? (fun r => r.id == v.recipe)).map
      (fun r => r.steps.any (fun st => stepNames st cask))).getD false)

def windowMaps (s : State) (g cask : Nat) (sel : Window → Bool) : Bool :=
  s.windows.any (fun w => w.owner == g && w.target == 0 && w.object == cask && sel w)

def cmdCaskFree : Cmd where
  op := 0x0103
  names p _ := [.cask p.ctx (p.u16 0)] ++ (if p.vintage = 0 then [] else [.vintage p.ctx p.vintage])
  access p s := need (caskInRange s p.ctx (p.u16 0)) .accessViolation
  form p _ := formError p (p.len = 8) true [(2, p.num 2 6 == 0)]
  state p s := do
    let c ← want (caskOf s p.ctx (p.u16 0)) .badState 1
    need (c.vintage == 0 || ((vintageOf s p.ctx c.vintage).map (fun v => v.state == .draft)).getD false) .badState 2
    need (!windowMaps s p.ctx c.id (fun _ => true)) .badState 3
    need (!recipeNames s p.ctx c.id) .badState 4
  body p s := .ok (freeCask s p.ctx (p.u16 0), okWith)

/-- CASK_FREE. -/
def execCaskFree (p : Packet) (s : State) : Host.Outcome State Fault Refusal := runCmd cmdCaskFree p s

/-! ### VINTAGE_OPEN (R56, R63 to R65, R70, R93, R176, R252, R295, R419) -/

/-- MASKED mode with an incomplete masking graph or registry. -/
def maskingComplete (v : Vintage) : Bool :=
  v.encrypted || ((v.masking.map (fun m => (m.graphComplete || !m.uploaded) && m.registry.length == v.clients)).getD false)

/-- Members to which a Glove holds an ESTABLISHED Trellis connection. -/
def trellisMembers (s : State) (g : Nat) : List Nat :=
  (s.conns.filter (fun c => c.owner == g && c.trellis && c.state == .established)).map (fun c => c.member)

/-- The mark of a VINTAGE_OPEN; of one that reaches dispatch without a serialization, by the present state. -/
def openMarkOf (s : State) (p : Packet) : Nat :=
  p.mark.getD (openMark (gloveOf s p.ctx).live (gloveOf s p.ctx).generation (trellisMembers s p.ctx))

/-- Ciphertexts bound in a Cask (R248). -/
def boundCiphertexts (c : Cask) : Nat := (c.binding.map (fun b => b.headers.length)).getD 0

def cmdVintageOpen : Cmd where
  op := 0x0104
  names p _ := [.vintage p.ctx p.vintage]
  form p _ := formError p (p.len = 0) true []
  state p s := do
    let v ← want ((vintageOf s p.ctx p.vintage).filter (fun v => v.state == .draft)) .badState 1
    need ((gloveOf s p.ctx).phase.type != .none) .badState 2
    need (p.stamp.count < v.c) .badState 3
    need (!(accumulateCasks s p.ctx p.vintage).isEmpty) .badState 4
    need (!v.encrypted || (accumulateCasks s p.ctx p.vintage).all (fun c => c.binding.isSome)) .badState 4
    need (maskingComplete v) .badState 5
    need (v.recipe == 0xFFFF || (gloveOf s p.ctx).recipes.any (fun r => r.id == v.recipe)) .badState 6
    need (v.shardCount == 1 || isLead s v || markMember (openMarkOf s p) v.lead) .badState 7
    entropyReady s
  draw _ _ := some (4, 4)
  body p s := do
    let v ← want (vintageOf s p.ctx p.vintage) .badState 1
    let mark := openMarkOf s p
    let (_, s1) := drawFree s
    let ticks := replayTicks (asOpened v p.stamp.count) (gloveOf s p.ctx).phase.recent
    let s2 := setVintage s1 p.ctx p.vintage (fun v => { asOpened v p.stamp.count with
      nextCheckpoint := ticks.1.nextCheckpoint, live := markLive mark, generation := markGeneration mark, printDraw := entropyDraw s
      shardDigest := shardDigestOf v
      allowance := 4 * sumOf boundCiphertexts (accumulateCasks s p.ctx p.vintage) })
    .ok (boundary (addDue s2 p.ctx ticks.2) p.ctx, okWith p.stamp.count (p.stamp.count / 2 ^ 32) (accumulateCasks s p.ctx v.id).length)

/-- VINTAGE_OPEN. -/
def execVintageOpen (p : Packet) (s : State) : Host.Outcome State Fault Refusal := runCmd cmdVintageOpen p s

/-! ### VINTAGE_SEAL (R17, R231) -/

def cmdVintageSeal : Cmd where
  op := 0x0105
  rank := 2
  names p _ := [.vintage p.ctx p.vintage]
  form p _ := formError p (p.len = 0) true []
  state p s := do
    need (!(gloveOf s p.ctx).summaries.any (fun x => x.id == p.vintage && x.byPolicy)) .badState 2
    need (((vintageOf s p.ctx p.vintage).map (fun v => v.state == .opened)).getD false) .badState 1
  body p s := do
    let v ← want (vintageOf s p.ctx p.vintage) .badState 1
    let s1 := sealVintage s p.ctx p.vintage p.stamp
    if sealAborts v then .ok (s1, .answer { status := .badState, detail := 2 })
    else
      let lees := (v.standings.filter (fun x => x.2 == .lees)).length
      let w ← want (vintageOf s1 p.ctx p.vintage) .badState 1
      .ok (s1, okWith (survivorCount w) lees (w.clients - w.survivors.length))

/-- VINTAGE_SEAL. -/
def execVintageSeal (p : Packet) (s : State) : Host.Outcome State Fault Refusal := runCmd cmdVintageSeal p s

/-! ### VINTAGE_CLOSE and VINTAGE_ABORT (R42, R104, R137, R303) -/

def cmdVintageClose : Cmd where
  op := 0x0106
  names p _ := [.vintage p.ctx p.vintage]
  form p _ := formError p (p.len = 0) true []
  state p s := do
    let v ← want ((vintageOf s p.ctx p.vintage).filter (fun v => v.state == .released)) .badState
    need v.release.isNone .busyRetry 1
  body p s := do
    let v ← want (vintageOf s p.ctx p.vintage) .badState
    let keys := vintageKeys s p.ctx p.vintage
    let (s1, sum) := enterEnd s v .closed false
    if keysBusy s1 keys then .ok (s1, .waits (.ends p.ctx p.vintage keys 0))
    else .ok (freeVintage s1 p.ctx p.vintage sum, okWith)

/-- VINTAGE_CLOSE. -/
def execVintageClose (p : Packet) (s : State) : Host.Outcome State Fault Refusal := runCmd cmdVintageClose p s

/-- The objects of an ABORT's scope: the Vintage, its Casks and its windows (R40). -/
def abortScope (s : State) (g vid : Nat) : List Obj :=
  [.vintage g vid] ++ (casksBound s g vid).map (fun c => Obj.cask g c.id) ++
    (vintageWindows s g vid).map (fun w => Obj.window w.index)

def cmdVintageAbort : Cmd where
  op := 0x0107
  rank := 4
  names p s := abortScope s p.ctx p.vintage
  form p _ := formError p (p.len = 0) true []
  state p s := do
    let v ← want (vintageOf s p.ctx p.vintage) .badState
    need (!terminalState v.state && v.state != .released) .badState
  body p s := do
    let v ← want (vintageOf s p.ctx p.vintage) .badState
    let scope := abortScope s p.ctx p.vintage
    let (s1, _) := preempt s 4 0x0107 (fun o => o.names.any scope.contains)
    let keys := vintageKeys s1 p.ctx p.vintage
    let (s2, sum) := enterEnd s1 v .aborted false
    let left := vintageStateCode v.state
    if keysBusy s2 keys then .ok (s2, .waits (.ends p.ctx p.vintage keys left))
    else .ok (freeVintage s2 p.ctx p.vintage sum, okWith left)

/-- VINTAGE_ABORT. -/
def execVintageAbort (p : Packet) (s : State) : Host.Outcome State Fault Refusal := runCmd cmdVintageAbort p s

/-! ### VINTAGE_QUERY and CASK_QUERY (R108, R227) -/

def queryWords (x : Summary) : Done :=
  okWith (vintageStateCode x.state + 16 * x.flags + 256 * (x.verified % 2 ^ 24)) x.racked x.dropped x.pendingWork

def cmdVintageQuery : Cmd where
  op := 0x0108
  names p _ := [.vintage p.ctx p.vintage]
  form p _ := formError p (p.len = 0) true []
  state p s := need (vintageKept s p.ctx p.vintage) .badState
  body p s :=
    match vintageOf s p.ctx p.vintage, (gloveOf s p.ctx).summaries.find? (fun x => x.id == p.vintage) with
    | some v, _ => .ok (s, queryWords (summaryOf s v false))
    | none, some x => .ok (s, queryWords x)
    | none, none => fail .badState

/-- VINTAGE_QUERY. -/
def execVintageQuery (p : Packet) (s : State) : Host.Outcome State Fault Refusal := runCmd cmdVintageQuery p s

def cmdCaskQuery : Cmd where
  op := 0x0109
  names p _ := [.cask p.ctx (p.u16 0)]
  access p s := need (caskInRange s p.ctx (p.u16 0)) .accessViolation
  form p _ := formError p (p.len = 8) false [(2, p.num 2 6 == 0)]
  state p s := need (caskOf s p.ctx (p.u16 0)).isSome .badState
  body p s := do
    let c ← want (caskOf s p.ctx (p.u16 0)) .badState
    .ok (s, okWith (c.ring + 2 ^ 8 * b2n c.spilled + 2 ^ 9 * c.role + 2 ^ 11 * c.limbs) c.n c.vintage c.granules)

/-- CASK_QUERY. -/
def execCaskQuery (p : Packet) (s : State) : Host.Outcome State Fault Refusal := runCmd cmdCaskQuery p s

end Sys2Proof.Machine
end

