-- ==== Sys2Proof/Machine/Windows.lean ====
section
/-! DEFINITION. Windows: WINDOW_CREATE, WINDOW_REVOKE and WINDOW_QUERY (R132, R135 to R138, R301, R312, R320,
R507) and the end of revocations (R137). -/

set_option autoImplicit false

namespace Sys2Proof.Machine

/-! ### WINDOW_CREATE -/

/-- Rights that a target may carry (R132), as a mask of the rights byte. -/
def rightsAllowed (s : State) (ctx target object : Nat) : Nat :=
  match target with
  | 0 => match caskOf s ctx object with
    | some c => if c.role = 0 then 5 else 11
    | none => 15
  | 1 => 11
  | _ => match queueOf s object with
    | some q => if q.kind = .receive ∨ (q.kind = .command ∧ q.conn.isSome) then 16 else 0
    | none => 16

/-- Bytes of the object a window maps; none where the object is absent or has no size. -/
def objectBytes (s : State) (ctx target object : Nat) (cuff : Bool) : Option Nat :=
  match target with
  | 0 => (caskOf s ctx object).map caskBytes
  | 1 => if cuff then (if (gloveOf s ctx).session.state = .established then some (2 ^ (gloveOf s ctx).session.log2S) else none)
      else some (2 ^ 64)
  | _ => none

/-- Lowest index of a context's range that is free and not retired, and which no release in progress has taken for an
export (DESIGN CHOICE, notes/assumptions/21.md). -/
def freeIndex (s : State) (ctx : Nat) : Option Nat :=
  let (first, n) := if ctx < 16 then (4096 * (gloveOf s ctx).cfg.winFirst, 4096 * (gloveOf s ctx).cfg.winBlocks)
    else (0, 4096)
  let reserved := s.vintages.flatMap (fun v => (v.release.map (fun r => r.keys.map (fun k => k / 256))).getD [])
  ((List.range n).map (· + first)).find? (fun i =>
    (windowOf s i).isNone && !reserved.contains i && generationOf s i < 256)

/-- A step exports the Cask. -/
def stepExports (st : List Byte) (cask : Nat) : Bool := field st 0 1 == 8 && field st 4 2 == cask

/-- The Cask is frozen while a Vintage whose recipe exports it is RELEASED, whatever becomes of the window (R320). -/
def caskFrozen (s : State) (g cask : Nat) : Bool :=
  s.vintages.any (fun v => v.glove == g && v.state == .released &&
    (((gloveOf s g).recipes.find? (fun r => r.id == v.recipe)).map (fun r => r.steps.any (fun st => stepExports st cask))).getD false)

/-- The Cask is named by the recipe of a release in progress (R312). -/
def caskInRelease (s : State) (g cask : Nat) : Bool :=
  s.vintages.any (fun v => v.glove == g && v.release.isSome &&
    (((gloveOf s g).recipes.find? (fun r => r.id == v.recipe)).map
      (fun r => r.steps.any (fun st => stepNames st cask))).getD false)

/-- The release of the Vintage of an accumulate Cask has completed, and the Cask is its released output: in ENCRYPTED mode
that is the output Cask alone (R109, R301, R321). -/
def outputReleased (s : State) (g : Nat) (c : Cask) : Bool :=
  ((vintageOf s g c.vintage).map (fun v => v.state == .released && v.completed && !v.encrypted)).getD false

def winFlag (p : Packet) (b : Nat) : Bool := (p.u8 2).testBit b

def winConn (p : Packet) : Nat := p.u16 6 % 2 ^ 15

/-- The checks of R507 on the Vintner's windows. -/
def vintnerWindow (p : Packet) (s : State) : List (Nat × Bool) :=
  [(0, p.u8 0 == 1), (1, 1 ≤ p.u8 1 && p.u8 1 ≤ 3), (2, p.u8 2 == 1), (3, p.u8 3 == 0), (4, p.u16 4 == 0),
   (6, p.u16 6 == 0), (16, 1 ≤ p.u64 16 && p.u64 16 ≤ 2 ^ 33 && p.u64 8 + p.u64 16 ≤ 2 ^ 64),
   (24, ((queueOf s (p.u16 24)).map (fun q => q.owner == vintner && q.kind == .event)).getD (p.u16 24 < 256)), (26, p.u16 26 == 0), (28, p.u32 28 == 0)]

def gloveWindow (p : Packet) (s : State) : List (Nat × Bool) :=
  let size := objectBytes s p.ctx (p.u8 0) (p.u16 4) (winFlag p 2)
  [(0, p.u8 0 ≤ 2), (1, p.u8 1 < 32 && p.u8 1 &&& rightsAllowed s p.ctx (p.u8 0) (p.u16 4) == p.u8 1),
   (2, p.u8 2 < 8 && (!winFlag p 2 || p.u8 0 == 1)), (3, p.u8 3 == 0), (4, p.u8 0 != 1 || p.u16 4 == 0),
   (6, if winFlag p 0 then p.u16 6 == 0 else p.u16 6 < 2 ^ 15),
   (8, (p.u8 0 != 2 || p.u64 8 == 0) && (!(p.u8 1).testBit rightAtomic || p.u64 8 % 8 == 0)),
   (16, 1 ≤ p.u64 16 && p.u64 16 ≤ 2 ^ 33 && (size.map (fun n => decide (p.u64 8 + p.u64 16 ≤ n))).getD true),
   (26, winFlag p 1 || p.u16 26 == 0), (28, p.u32 28 == 0)]

def cmdWindowCreate : Cmd where
  op := 0x0601
  issuer := .any
  names p _ :=
    (if p.u8 0 = 0 then [.cask p.ctx (p.u16 4)] else if p.u8 0 = 2 then [.queue (p.u16 4)] else []) ++
    [.queue (p.u16 24)] ++ (if winFlag p 0 then [] else [.conn (winConn p)]) ++
    (if winFlag p 1 then [.queue (p.u16 26)] else [])
  access p s :=
    if p.ctx < 16 ∧ p.len = 32 then do
      need (p.u8 0 != 0 || caskInRange s p.ctx (p.u16 4)) .accessViolation
      need (p.u8 0 != 2 || queueInRange s p.ctx (p.u16 4)) .accessViolation
      need (winFlag p 0 || connInRange s p.ctx (winConn p)) .accessViolation
      need (queueInRange s p.ctx (p.u16 24)) .accessViolation
      need (!winFlag p 1 || queueInRange s p.ctx (p.u16 26)) .accessViolation
    else .ok ()
  form p s := formError p (p.len = 32) false (if p.ctx < 16 then gloveWindow p s else vintnerWindow p s)
  state p s := do
    need ((queueOf s (p.u16 24)).map (fun q => q.kind == .event) == some true) .badState
    if p.ctx < 16 then do
      need (winFlag p 0 || (connOf s (winConn p)).isSome) .badState
      need (!winFlag p 1 || ownQueue s p.ctx (p.u16 26) .receive) .badState
      match p.u8 0 with
      | 0 => do
        let c ← want (caskOf s p.ctx (p.u16 4)) .badState
        need (!((p.u8 1).testBit rightRead && c.role == 0) || outputReleased s p.ctx c) .badState
        need (!((p.u8 1).testBit rightWrite || (p.u8 1).testBit rightAtomic) ||
          !(caskFrozen s p.ctx c.id || caskInRelease s p.ctx c.id)) .badState
      | 1 => need (!winFlag p 2 || (gloveOf s p.ctx).session.state == .established) .badState
      | _ => need (queueOf s (p.u16 4)).isSome .badState
    else .ok ()
  body p s := do
    let i ← want (freeIndex s p.ctx) .noResource
    let w : Window := {
      index := i, gen := generationOf s i, owner := p.ctx, target := p.u8 0, rights := p.u8 1
      anyConn := winFlag p 0, countOn := winFlag p 1, cuff := winFlag p 2, object := p.u16 4, conn := winConn p
      base := p.u64 8, length := p.u64 16, eventQ := p.u16 24, countQ := p.u16 26 }
    let s1 := { s with windows := s.windows ++ [w] }
    let s2 := if p.u8 0 = 0 ∧ (p.u8 1).testBit rightWrite then
        setCask s1 p.ctx (p.u16 4) (fun c => { c with withheld := false })
      else s1
    .ok (s2, okWith (windowKey i w.gen))

/-- WINDOW_CREATE. -/
def execWindowCreate (p : Packet) (s : State) : Host.Outcome State Fault Refusal := runCmd cmdWindowCreate p s

/-! ### WINDOW_REVOKE -/

/-- The window that a key names. -/
def keyedWindow (s : State) (key : Nat) : Option Window := (windowOf s (key / 256)).filter (fun w => w.gen == key % 256)

/-- A window with ACCUMULATE rights on a Cask of an OPEN Vintage (R138). -/
def revokeBarred (s : State) (w : Window) : Bool :=
  w.rights.testBit rightAccumulate && w.target == 0 &&
    (((caskOf s w.owner w.object).bind (fun c => vintageOf s w.owner c.vintage)).map (fun v => v.state == .opened)).getD false

/-- Key of the next window at an index, or 0xFFFFFFFF where the index has retired (R135). -/
def nextKey (s : State) (i : Nat) : Nat := if generationOf s i < 256 then windowKey i (generationOf s i) else 0xFFFFFFFF

def cmdWindowRevoke : Cmd where
  op := 0x0602
  rank := 3
  issuer := .any
  names p _ := [.window (p.u32 0 / 256)]
  access p s := need (windowInRange s p.ctx (p.u32 0 / 256)) .accessViolation
  form p _ := formError p (p.len = 8) false [(4, p.u32 4 == 0)]
  state p s := do
    let w ← want (keyedWindow s (p.u32 0)) .badState 1
    need (!revokeBarred s w) .badState 2
  body p s :=
    let s1 := revokeWindow s (p.u32 0 / 256)
    let next := nextKey s1 (p.u32 0 / 256)
    if keysBusy s1 [p.u32 0] then .ok (s1, .waits (.revoke (p.u32 0) next)) else .ok (s1, okWith next)

/-- WINDOW_REVOKE. -/
def execWindowRevoke (p : Packet) (s : State) : Host.Outcome State Fault Refusal := runCmd cmdWindowRevoke p s

/-- Revocations whose last packet has been placed are answered (R137). -/
def settleRevokes (s : State) : State :=
  s.outstanding.foldl (fun s o =>
    match o.wait with
    | .revoke key next => if keysBusy s [key] then s else reply s o.pkt { status := .ok, r0 := next }
    | _ => s) s

/-! ### WINDOW_QUERY -/

def cmdWindowQuery : Cmd where
  op := 0x0603
  issuer := .any
  names p _ := [.window (p.u32 0 / 256)]
  access p s := need (windowInRange s p.ctx (p.u32 0 / 256)) .accessViolation
  form p _ := formError p (p.len = 8) false [(4, p.u32 4 == 0)]
  state p s := need (keyedWindow s (p.u32 0)).isSome .badState
  body p s := do
    let w ← want (keyedWindow s (p.u32 0)) .badState
    .ok (s, okWith (w.rights + 2 ^ 8 * w.target + 2 ^ 10 * (w.object % 2 ^ 16)) (ceilDiv w.length 1024)
      (min (2 ^ 32 - 1) w.accesses) (min (2 ^ 32 - 1) w.violations))

/-- WINDOW_QUERY. -/
def execWindowQuery (p : Packet) (s : State) : Host.Outcome State Fault Refusal := runCmd cmdWindowQuery p s

end Sys2Proof.Machine
end

