-- ==== Sys2Proof/Machine/Conns.lean ====
section
/-! DEFINITION. Connections as commands reach them: CONN_CREATE, CONN_DESTROY, CONN_QUERY, TRIGGER_CANCEL and
FAULT_INJECT (R119, R120, R142, R144, R150), their events (R161), and the removal of a connection (R506). -/

set_option autoImplicit false

namespace Sys2Proof.Machine

/-! ### Events (R161) -/

/-- A WRA event: code, status, key or epoch, connection or member count, count, PSN, offset. -/
def wraEvent (s : State) (ctx code status key conn count psn off : Nat) : List Byte :=
  toLE 2 code ++ toLE 2 status ++ toLE 4 key ++ toLE 2 conn ++ toLE 2 count ++ toLE 4 psn ++
    phaseBytes (contextWord s ctx) ++ toLE 8 off

/-- An event to the event queue a connection named at CONN_CREATE. -/
def connEvent (s : State) (c : Conn) (code status : Nat) : State :=
  postTo s c.eventQ (wraEvent s c.owner code status 0 c.id 1 0 0)

/-! ### CONN_CREATE -/

def connFlag (p : Packet) (b : Nat) : Bool := (p.u8 3).testBit b

/-- Usage bit CONN_SEAL of a key slot (R410). -/
def usageConnSeal : Nat := 4

/-- The Glove has an address of the family on a port (CONN_CREATE). -/
def hasAddress (s : State) (g port : Nat) (ipv4 : Bool) : Bool :=
  let x := (gloveOf s g).cfg.shares.getD port {}
  if ipv4 then x.ipv4 != 0 else x.ipv6 != 0

/-- Every named port is the Glove's and carries an address of the peer's family. -/
def portsAllowed (p : Packet) (s : State) : Bool :=
  (bitList 8 (p.u8 34)).all (fun i => (gloveOf s p.ctx).cfg.ports.testBit i && hasAddress s p.ctx i (connFlag p 2))

/-- Contexts of a Glove that the Context Store must hold (R144, R325). -/
def contextStoreFits (s : State) (g : Nat) : Bool :=
  let n := (s.conns.filter (fun c => c.owner == g)).length
  let x := gloveOf s g
  if x.cfg.ctxHost then n + 1 ≤ x.cfg.resident || (x.session.state == .established && n + 1 ≤ x.session.ctxRecords)
  else lpddrUsed s g + (ceilDiv (n + 1) 1024 - ceilDiv n 1024) ≤ lpddrCap s g

/-- The extension of CONNECT and CONNECT_ACK (R117): boot epoch, the sender's connection and incarnation. -/
def connectExt (s : State) (c : Conn) : List Byte :=
  toLE 4 s.fw.epoch ++ toLE 2 c.id ++ toLE 2 c.incarnation ++ zeros 8

/-- CONNECT of a connection just created, which the engine repeats under R129 (R120). It waits for a resident slot as all
outbound work does (R146). -/
def sendConnect (s : State) (cid : Nat) : State :=
  match connOf s cid with
  | none => s
  | some c => submit s c.id {
      psn := 0, op := 0x0A, timerUs := c.minTimer
      pkt := { port := 0, conn := 0, incarnation := 0, first := true, last := true, ext := connectExt s c } }

/-- The connection of a CONN_CREATE. -/
def newConn (p : Packet) (s : State) (resident : Bool) : Conn where
  id := p.u16 0
  owner := p.ctx
  state := .connecting
  incarnation := (Sparse.get s.incs (p.u16 0) + 1) % 2 ^ 16
  trellis := p.u8 2 == 1
  sealedC := connFlag p 0
  pinned := connFlag p 1 || p.u8 2 == 1
  ipv4 := connFlag p 2
  peerConn := p.u16 4
  paths := p.u16 6
  sendQ := p.u16 8
  recvQ := p.u16 10
  eventQ := p.u16 12
  keySlot := p.u16 14
  address := p.bytes 16 16
  udpPort := p.u16 32
  ports := p.u8 34
  member := p.u16 36
  minTimer := if p.u16 38 = 0 then 20 else p.u16 38
  resident := resident
  rateMbps := 800000

/-- Pinned contexts: of the module, and of a Glove (R144, R336). -/
def pinFits (p : Packet) (s : State) : Bool :=
  !(connFlag p 1 || p.u8 2 == 1) ||
    ((s.conns.filter (fun c => c.pinned)).length < Config.maxPinned &&
     (s.conns.filter (fun c => c.pinned && c.owner == p.ctx)).length < (gloveOf s p.ctx).cfg.pinned)

def cmdConnCreate : Cmd where
  op := 0x0604
  names p _ := [.conn (p.connAt 0), .queue (p.u16 8), .queue (p.u16 10), .queue (p.u16 12)] ++
    (if connFlag p 0 then [.key (p.slotAt 14)] else [])
  access p s :=
    if p.len = 48 then do
      need (connInRange s p.ctx (p.connAt 0)) .accessViolation
      need (queueInRange s p.ctx (p.u16 8) && queueInRange s p.ctx (p.u16 10) && queueInRange s p.ctx (p.u16 12))
        .accessViolation
      need (!connFlag p 0 || slotInRange s p.ctx (p.slotAt 14)) .accessViolation
      need (!connFlag p 0 || ((keySlotOf s (p.slotAt 14)).map (fun k => k.state == .lost || k.usage &&& usageConnSeal != 0)).getD true)
        .accessViolation
      need (p.u8 2 != 0 || portsAllowed p s) .accessViolation
      need (p.u8 2 != 1 || (gloveOf s p.ctx).cfg.trellis) .accessViolation
    else .ok ()
  form p _ := formError p (p.len = 48) false
    [(0, p.u16 0 < 2 ^ 15), (2, p.u8 2 ≤ 1), (3, p.u8 3 < 8), (4, p.u16 4 < 2 ^ 15),
     (6, 1 ≤ p.u16 6 && p.u16 6 ≤ 256), (14, if connFlag p 0 then p.u16 14 < 1024 else p.u16 14 == 0),
     (16, !connFlag p 2 || allZero (p.bytes 16 12)),
     (34, if p.u8 2 = 0 then p.u8 34 != 0 else p.u8 34 == 0), (35, p.u8 35 == 0),
     (36, if p.u8 2 = 1 then p.u16 36 != 0 && p.u16 36 != 0xFFFF else p.u16 36 == 0),
     (38, p.u16 38 == 0 || (20 ≤ p.u16 38 && p.u16 38 ≤ 10000)), (40, p.u64 40 == 0)]
  state p s := do
    need (connOf s (p.u16 0)).isNone .badState
    need (ownQueue s p.ctx (p.u16 8) .send && ownQueue s p.ctx (p.u16 10) .receive && ownQueue s p.ctx (p.u16 12) .event)
      .badState
    need (p.u8 2 != 1 || s.net.trellis.bypass == 2) .badState
    if connFlag p 0 then do
      let k ← servingSlot s (p.u16 14)
      need (k.lifetime != 1 || k.left != 0) .keyExpired
    else .ok ()
  body p s := do
    need (s.conns.length < Config.maxConns) .noResource 1
    need (pinFits p s) .noResource 2
    need (contextStoreFits s p.ctx) .noResource 3
    let (s1, resident) := match makeRoom s p.ctx with
      | some s' => (s', true)
      | none => (s, connFlag p 1 || p.u8 2 == 1)
    let c := newConn p s resident
    let s2 := { s1 with conns := s1.conns ++ [c], incs := Sparse.set s1.incs c.id c.incarnation }
    let s3 := if c.sealedC then
        setKeySlot s2 c.keySlot (fun k => if k.lifetime = 1 then { k with left := k.left - 1 } else k)
      else s2
    .ok (sendConnect (touchConn s3 c.id) c.id, okWith c.incarnation)

/-- CONN_CREATE. -/
def execConnCreate (p : Packet) (s : State) : Host.Outcome State Fault Refusal := runCmd cmdConnCreate p s

/-! ### The removal of a connection (R119, R137, R506) -/

/-- Work of a connection that is not over: packets not acknowledged or not yet sent, requests, packets parked
or in progress, and packets of a connection-bound queue whose reply is still owed. -/
def connBusy (s : State) (c : Conn) : Bool :=
  !c.txReq.unacked.isEmpty || !c.txResp.unacked.isEmpty || !c.waiting.isEmpty || !c.messages.isEmpty ||
  !c.issued.isEmpty || !c.parked.isEmpty || (c.req.flight ++ c.resp.flight).any (fun f => !f.complete) ||
  (s.staged ++ s.outstanding.map (fun o => o.pkt)).any (fun p => p.route == .wra &&
    ((queueOf s p.queue).bind (fun q => q.conn)) == some c.id)

/-- A connection that is gone has placed into no Cask: a later one of the same ID gets no fence of its own (R120, R181). -/
def forgetConn (s : State) (c : Conn) : State :=
  { s with casks := s.casks.map (fun k =>
      if k.glove = c.owner then
        { k with
          placers := k.placers.filter (· != c.id), placersCut := k.placersCut.filter (· != c.id)
          rollback := k.rollback.map (fun r => { r with fences := r.fences.filter (fun x => x.1 != c.id) }) }
      else k) }

/-- Take a connection away; CONN_DESTROY is answered with its failed requests. -/
def removeConn (s : State) (cid : Nat) : State :=
  match connOf s cid with
  | none => s
  | some c =>
    let s1 := undeliverAll s c
    let s2 := retryFetches (forgetConn { s1 with conns := s1.conns.filter (fun x => x.id != cid) } c) c.owner
    s2.outstanding.foldl (fun s o =>
      if o.wait = .connGone cid then reply s o.pkt { status := .ok, r0 := min (2 ^ 32 - 1) c.failures } else s) s2

/-- CONN_REMOVE: a CLOSING connection whose outstanding work has ended is removed (R119, R506). A connection of a
Glove in reset is left for step 4 of R341, which sends CLOSE on it first, unless a CONN_DESTROY under way, which step 3
lets end, waits for it. -/
def execConnRemove (conn : Nat) (s : State) : Host.Outcome State Fault Refusal :=
  match connOf s conn with
  | some c => .next (if c.state = .closing ∧ ¬ connBusy s c ∧
      ((gloveOf s c.owner).reset.isNone ∨ s.outstanding.any (fun o => o.wait == .connGone conn)) then removeConn s conn else s)
  | none => .next s

/-! ### CONN_DESTROY -/

def connForm (p : Packet) : Option Nat :=
  formError p (p.len = 8) false [(0, p.u16 0 < 2 ^ 15), (2, p.num 2 6 == 0)]

def cmdConnDestroy : Cmd where
  op := 0x0605
  names p _ := [.conn (p.connAt 0)]
  access p s := need (p.len != 8 || connInRange s p.ctx (p.connAt 0)) .accessViolation
  form p _ := connForm p
  state p s := do
    need (connOf s (p.u16 0)).isSome .badState
    need (!s.queues.any (fun q => q.kind == .command && q.conn == some (p.u16 0))) .badState
  body p s := do
    let c ← want (connOf s (p.u16 0)) .badState
    if c.state = .error then
      let s1 := undeliverAll s c
      .ok (retryFetches (forgetConn { s1 with conns := s1.conns.filter (fun x => x.id != c.id) } c) c.owner, okWith c.failures)
    else
      let s1 := if c.state = .closing then s else sendClose (closeConn s c.id) c.id
      .ok (s1, .waits (.connGone c.id))

/-- CONN_DESTROY. -/
def execConnDestroy (p : Packet) (s : State) : Host.Outcome State Fault Refusal := runCmd cmdConnDestroy p s

/-! ### CONN_QUERY -/

def cmdConnQuery : Cmd where
  op := 0x0606
  names p _ := [.conn (p.connAt 0)]
  access p s := need (p.len != 8 || connInRange s p.ctx (p.connAt 0)) .accessViolation
  form p _ := connForm p
  state p s := need (connOf s (p.u16 0)).isSome .badState
  body p s := do
    let c ← want (connOf s (p.u16 0)) .badState
    let (d, s1) := drawFree s
    .ok (s1, okWith (connStateCode c.state + 8 * b2n (!c.resident) + 2 ^ 16 * c.incarnation) c.req.v c.txReq.next
      (Config.roundTrip d))

/-- CONN_QUERY: the smoothed round trip is a free value. -/
def execConnQuery (p : Packet) (s : State) : Host.Outcome State Fault Refusal := runCmd cmdConnQuery p s

/-! ### TRIGGER_CANCEL (R142) -/

/-- A request of the trigger table ends with a status; its op and WR ID stand in its entry (R139). -/
def endTrigger (s : State) (g : Nat) (t : Trigger) (st : Status) : State :=
  completeRequest s g t.queue (field t.entry 0 8) ((field t.entry 9 1).testBit 2) (statusWord st) 0 (field t.entry 8 1) 0
    (((s.conns.find? (fun c => c.sendQ == t.queue)).map (fun c => c.id)).getD 0)

def cmdTriggerCancel : Cmd where
  op := 0x0607
  names p _ := [.glove p.ctx]
  form p _ := formError p (p.len = 8) false [(4, p.u32 4 == 0)]
  body p s :=
    let gone := (gloveOf s p.ctx).triggers.filter (fun t => t.tag == p.u32 0)
    let s1 := setGlove s p.ctx (fun x => { x with triggers := x.triggers.filter (fun t => t.tag != p.u32 0) })
    .ok (gone.foldl (fun s t => endTrigger s p.ctx t .flushed) s1, okWith gone.length)

/-- TRIGGER_CANCEL. -/
def execTriggerCancel (p : Packet) (s : State) : Host.Outcome State Fault Refusal := runCmd cmdTriggerCancel p s

/-! ### FAULT_INJECT (R150) -/

def cmdFaultInject : Cmd where
  op := 0x0608
  names p _ := [.conn (p.connAt 0)]
  access p s := need (p.len != 24 || connInRange s p.ctx (p.connAt 0)) .accessViolation
  form p _ := formError p (p.len = 24) false
    [(0, p.u16 0 < 2 ^ 15), (2, p.u8 2 ≤ 3), (3, p.u8 3 != 0 || p.u16 8 == 0), (10, p.u16 10 == 0),
     (12, p.u32 12 != 0 || p.u8 2 == 0), (20, p.u32 20 == 0)]
  state p s := need (connOf s (p.u16 0)).isSome .badState
  body p s := do
    let c ← want (connOf s (p.u16 0)) .badState
    let set (i : Inject) : Inject := {
      dir := p.u8 2, drop := p.u16 4, corrupt := p.u16 6, reorder := p.u16 8, depth := p.u8 3, seed := p.u32 12, lfsr := p.u32 12
      left := p.u32 16, count := 0, heldRx := i.heldRx, heldTx := i.heldTx }
    .ok (setConn s c.id (fun c => { c with inject := set c.inject }), okWith c.inject.count)

/-- FAULT_INJECT. -/
def execFaultInject (p : Packet) (s : State) : Host.Outcome State Fault Refusal := runCmd cmdFaultInject p s

end Sys2Proof.Machine
end

