-- ==== Sys2Proof/Machine/Gloves.lean ====
section
/-! DEFINITION. Gloves: assignment, mode and query (R323 to R327, R346), and the Glove reset in its steps (R339 to
R345), with the Function Level Resets and the SR-IOV control of the host (R374 to R377). -/

set_option autoImplicit false

namespace Sys2Proof.Machine

/-! ### GLOVE_ASSIGN (R324, R325, R357, R404) -/

def assignLength : Nat := 408

/-- Parameter fields of one port: its share at 88 + 8p, its addresses at 152 + 32p. -/
def portFields (p : Packet) (i : Nat) : List (Nat × Bool) :=
  let on := (p.u8 5).testBit i
  let a := 88 + 8 * i
  let b := 152 + 32 * i
  [(a, on || p.u16 a == 0), (a + 2, if on then 1 ≤ p.u8 (a + 2) else p.u8 (a + 2) == 0),
   (a + 3, if on then 4 ≤ p.u8 (a + 3) && p.u8 (a + 3) ≤ 192 else p.u8 (a + 3) == 0), (a + 4, p.u32 (a + 4) == 0),
   (b, if on then p.u8 b % 2 == 0 else p.num b 6 == 0),
   (b + 6, if on then bitsAt (p.u16 (b + 6)) 12 3 == 0 else p.u16 (b + 6) == 0), (b + 8, on || p.u32 (b + 8) == 0),
   (b + 12, on || p.num (b + 12) 16 == 0), (b + 28, p.u32 (b + 28) == 0)]

/-- Parameter fields of GLOVE_ASSIGN in the order of the packet: all shares stand before all addresses. -/
def assignFields (p : Packet) : List (Nat × Bool) :=
  let ports := (List.range 8).flatMap (portFields p)
  ([(0, p.u8 0 ≤ 15), (1, p.u8 1 ≤ 1), (2, p.u8 2 ≤ 3), (3, p.u8 3 ≤ 3), (4, 4 ≤ p.u8 4 && p.u8 4 ≤ 12), (6, p.u16 6 == 0),
   (8, p.u32 8 ≤ 253952), (12, p.num 12 12 != 0),
   (24, 4 ≤ p.u16 24 && p.u16 24 < 1024), (26, 1 ≤ p.u16 26 && p.u16 26 ≤ 60 && p.u16 24 + p.u16 26 ≤ 1024),
   (28, 1 ≤ p.u16 28 && p.u16 28 < 256), (30, 1 ≤ p.u16 30 && p.u16 28 + p.u16 30 ≤ 256),
   (32, p.u16 32 ≤ 512), (34, p.u16 32 + p.u16 34 ≤ 512), (36, 1 ≤ p.u16 36 && p.u16 36 ≤ 64), (38, p.u16 36 + p.u16 38 ≤ 64),
   (40, 1 ≤ p.u16 40 && p.u16 40 ≤ 16384), (42, p.u16 42 ≤ 16384), (44, p.u16 44 ≤ p.u16 42 && p.u16 44 ≤ 8192),
   (46, p.u16 46 ≤ 256), (48, p.u8 48 ≤ 32), (49, p.u8 49 ≤ 64), (50, p.u16 50 ≤ 256), (52, 1 ≤ p.u16 52 && p.u16 52 ≤ 256),
   (54, p.u16 54 == 0), (56, p.num 56 32 != 0)] : List (Nat × Bool)) ++ ports.filter (fun f => f.1 < 152) ++ ports.filter (fun f => 152 ≤ f.1)

def portShareOf (p : Packet) (i : Nat) : PortShare where
  rate := p.u16 (88 + 8 * i)
  weight := p.u8 (90 + 8 * i)
  ingress := p.u8 (91 + 8 * i)
  mac := p.num (152 + 32 * i) 6
  vlan := p.u16 (158 + 32 * i)
  ipv4 := p.u32 (160 + 32 * i)
  ipv6 := p.num (164 + 32 * i) 16

/-- The resources a GLOVE_ASSIGN asks for, at a Cellar base. -/
def cfgOf (p : Packet) (base : Nat) : GloveCfg where
  masker := p.u8 1 == 1
  qos := p.u8 2
  ctxHost := (p.u8 3).testBit 0
  trellis := (p.u8 3).testBit 1
  taste := p.u8 4
  ports := p.u8 5
  cellar := p.u32 8
  cellarBase := base
  channels := p.num 12 12
  queueFirst := p.u16 24
  queueBlocks := p.u16 26
  winFirst := p.u16 28
  winBlocks := p.u16 30
  connFirst := p.u16 32
  connBlocks := p.u16 34
  keyFirst := p.u16 36
  keyBlocks := p.u16 38
  casks := p.u16 40
  resident := p.u16 42
  pinned := p.u16 44
  primes := p.u16 46
  luts := p.u8 48
  miss := p.u8 49
  entropy := p.u16 50
  dma := p.u16 52
  slots := p.num 56 32
  shares := (List.range 8).map (portShareOf p)

/-- Two ranges of blocks share a block. -/
def overlap (a n b m : Nat) : Bool := a < b + m && b < a + n && 0 < n && 0 < m

/-- Lowest base of a contiguous Cellar range that no other range meets (DESIGN CHOICE,
notes/assumptions/34.md). -/
def cellarBaseFor (others : List GloveCfg) (n : Nat) : Option Nat :=
  let free (b : Nat) : Bool := b + n ≤ Config.granulesPerVat && others.all (fun o => !overlap b n o.cellarBase o.cellar)
  let tries := (0 :: others.map (fun o => o.cellarBase + o.cellar)).filter free
  match tries with
  | [] => none
  | b :: bs => some (bs.foldl min b)

/-- First exhausted resource of GLOVE_ASSIGN, by its detail (ST_NO_RESOURCE). `others` are the Gloves that are not
FREE. -/
def assignLack (others : List GloveCfg) (c : GloveCfg) : Option Nat :=
  let total (f : GloveCfg → Nat) : Nat := sumOf f others + f c
  let share (x : GloveCfg) (i : Nat) : PortShare := x.shares.getD i {}
  let ports (bad : Nat → Bool) : Bool := (List.range 8).any bad
  let same (a b : Nat) : Bool := a == b && a != 0
  let lacks : List (Nat × Bool) := [
    (1, others.any (fun o => o.slots &&& c.slots != 0)), (2, (cellarBaseFor others c.cellar).isNone),
    (3, others.any (fun o => o.channels &&& c.channels != 0)),
    (4, others.any (fun o => overlap o.queueFirst o.queueBlocks c.queueFirst c.queueBlocks)),
    (5, others.any (fun o => overlap o.winFirst o.winBlocks c.winFirst c.winBlocks)),
    (6, others.any (fun o => overlap o.connFirst o.connBlocks c.connFirst c.connBlocks)),
    (7, others.any (fun o => overlap o.keyFirst o.keyBlocks c.keyFirst c.keyBlocks)),
    (8, 16384 < total (fun o => o.casks)), (9, 16384 < total (fun o => o.resident) || 8192 < total (fun o => o.pinned)),
    (10, 256 < total (fun o => o.primes)), (11, 32 < total (fun o => o.luts)), (12, 64 < total (fun o => o.miss)),
    (13, 256 < total (fun o => o.entropy)), (14, 256 < total (fun o => o.dma)),
    (15, ports (fun i => 800 < total (fun o => (share o i).rate))), (16, ports (fun i => 192 < total (fun o => (share o i).ingress))),
    (17, c.trellis && others.any (fun o => o.trellis)),
    (18, ports (fun i => others.any (fun o => same (share o i).mac (share c i).mac || same (share o i).ipv4 (share c i).ipv4 ||
      same (share o i).ipv6 (share c i).ipv6)))]
  (lacks.find? (fun x => x.2)).map Prod.fst

def heldCfgs (s : State) : List GloveCfg := (s.gloves.filter (fun g => g.state != .free)).map (fun g => g.cfg)

/-- Every resource that GLOVE_ASSIGN asks for is there. -/
def assignRoom (p : Packet) (s : State) : Check :=
  match assignLack (heldCfgs s) (cfgOf p 0) with
  | some d => fail .noResource d
  | none => .ok ()

def cmdGloveAssign : Cmd where
  op := 0x0702
  sideband := true
  issuer := .vintner
  names p _ := [.glove (p.u8 0)]
  form p _ := formError p (p.len = assignLength) false (assignFields p)
  state p s := do
    let g := gloveOf s (p.u8 0)
    rootsPresent s
    need (g.state != .wedged) .wedged
    need (g.state == .free) .badState
    entropyReady s
  draw _ _ := some (1, 1)
  ready := assignRoom
  body p s := do
    assignRoom p s
    let base := (cellarBaseFor (heldCfgs s) (p.u32 8)).getD 0
    let (nonce, s1) := drawBytes s 16
    let digest := Crypto.sha256 (p.bytes 0 assignLength)
    let vats := inServiceVats s1
    let seed := gloveSeed s1 (p.u8 0) nonce
    let fresh (x : Glove) : Glove := {
      state := .active, resets := x.resets, cfg := cfgOf p base, assign := p.bytes 0 assignLength, digest := digest
      dataSeed := seed, vatList := vats }
    .ok (setGlove s1 (p.u8 0) fresh, okBytes digest)

/-- GLOVE_ASSIGN. -/
def execGloveAssign (p : Packet) (s : State) : Host.Outcome State Fault Refusal := runCmd cmdGloveAssign p s

/-! ### GLOVE_MODE_SET and GLOVE_QUERY -/

def cmdGloveModeSet : Cmd where
  op := 0x0704
  names p _ := [.glove p.ctx]
  form p _ := formError p (p.len = 8) false [(0, p.u8 0 ≤ 1), (1, p.u8 1 ≤ 1), (2, p.num 2 6 == 0)]
  state p s := need (p.u8 0 == 1 || (gloveOf s p.ctx).phase.limit == 0) .badState 1
  body p s := .ok (setGlove s p.ctx (fun x => { x with live := p.u8 0 == 1, autoRefresh := p.u8 1 == 1 }), okWith)

/-- GLOVE_MODE_SET. -/
def execGloveModeSet (p : Packet) (s : State) : Host.Outcome State Fault Refusal := runCmd cmdGloveModeSet p s

def cmdGloveQuery : Cmd where
  op := 0x0705
  sideband := true
  issuer := .any
  names p _ := [.glove (p.u8 0)] ++ (if p.u32 4 = 0 then [] else [.window (p.u32 4 / 256)])
  access p s := do
    need (p.ctx == vintner || p.u8 0 == p.ctx) .accessViolation
    windowCheck s p.ctx (p.u32 4) rightWrite (p.u64 8) assignLength
      (p.len == 16 && p.u32 4 != 0 && p.ctx == vintner && p.route != .sideband)
  form p _ := formError p (p.len = 16) false
    [(0, p.u8 0 ≤ 15), (1, p.num 1 3 == 0), (4, p.u32 4 == 0 || (p.ctx == vintner && p.route != .sideband))]
  body p s := do
    let g := gloveOf s (p.u8 0)
    let s1 ← if p.u32 4 = 0 then .ok s else writeWindow s p.ctx (p.u32 4) (p.u64 8) (padTo assignLength g.assign)
    .ok (s1, okWith (regGlvState g) (regGlvCfg g) (regGlvSlots g) (regGlvShares g))

/-- GLOVE_QUERY. -/
def execGloveQuery (p : Packet) (s : State) : Host.Outcome State Fault Refusal := runCmd cmdGloveQuery p s

/-! ### The start of a Glove reset (R339 to R341, step 1) -/

def isResetting (g : Glove) : Bool := g.state == .resetting || g.state == .releasing

/-- A connection whose part of the ingress and miss buffers is emptied (R341). -/
def emptyIngress (c : Conn) : Conn :=
  { c with parked := [], req := { c.req with flight := [] }, resp := { c.resp with flight := [] } }

/-- Every one of a function's 256 vectors is masked, its pending count discarded (R341). -/
def maskVectors (fn : Nat) (vs : List Vector) : List Vector :=
  vs.filter (fun v => v.fn != fn) ++ (List.range 256).map (fun i =>
    { (vs.find? (fun v => v.fn == fn && v.index == i)).getD { fn := fn, index := i } with
      masked := true, count := 0, pendingBit := false })

/-- Step 1: the Glove is fenced, and its parts of the ingress and miss buffers are emptied; commands that waited for
packets there wait no longer. -/
def fenceGlove (s : State) (g source cycle : Nat) (word : PhaseWord) : State :=
  let r : Reset := { source := source, release := source == 2, start := word, cycle := cycle }
  let s1 := setGlove s g (fun x => { x with
    state := if source = 2 then .releasing else .resetting, reset := some r })
  let s2 := { s1 with
    conns := mapIf (fun c => c.owner == g) emptyIngress s1.conns
    host := { s1.host with vectors := maskVectors (g + 1) s1.host.vectors } }
  settleEnds (settleRevokes ((s2.conns.filter (fun c => c.owner == g)).foldl (fun s c => closeConn s c.id) s2))

/-- Start a reset, or join the one in progress: a release makes the Glove RELEASING, so that the sequence ends in
FREE, and a Function Level Reset of its own cycle owns it (R323, R339; DEDUCED, log 41). -/
def startReset (s : State) (g source cycle : Nat) (word : PhaseWord) : State :=
  match (gloveOf s g).reset with
  | none => fenceGlove s g source cycle word
  | some r =>
    let r' : Reset := { r with
      release := r.release || source == 2, source := if source = 1 ∧ r.cycle = cycle then 1 else r.source }
    setGlove s g (fun x => { x with reset := some r', state := if source = 2 then .releasing else x.state })

/-- The parts that GLOVE_RESET and GLOVE_RELEASE share. Step 1 was taken where the command was serialized (`fenceAt`), and its
dispatch joins that reset. -/
def resetCmd (op source : Nat) : Cmd where
  op := op
  sideband := true
  issuer := .vintner
  rank := 5
  names p _ := [.glove (p.u8 0)]
  form p _ := formError p (p.len = 8) false [(0, p.u8 0 ≤ 15), (1, p.num 1 7 == 0)]
  state p s := do
    let g := gloveOf s (p.u8 0)
    need (g.state != .wedged) .wedged g.wedgeCause
    need (g.state != .free) .badState
  body p s := .ok (startReset s (p.u8 0) source p.cycle p.stamp, .waits (.gloveReset (p.u8 0)))

def cmdGloveReset : Cmd := resetCmd 0x0701 0
def cmdGloveRelease : Cmd := resetCmd 0x0703 2

/-- A GLOVE_RESET or GLOVE_RELEASE that passes its checks where it is serialized fences the Glove in that cycle (R340,
R341). -/
def fenceAt (p : Packet) (s : State) : State :=
  let source := if p.opcode = 0x0703 then 2 else 0
  if p.opcode = 0x0701 ∨ p.opcode = 0x0703 then
    match checks (if source = 2 then cmdGloveRelease else cmdGloveReset) p s with
    | .ok () => startReset s (p.u8 0) source p.cycle p.stamp
    | .error _ => s
  else s

/-- GLOVE_RESET at its dispatch: the reply comes when the sequence ends. One that was not serialized before starts it. -/
def execGloveReset (p : Packet) (s : State) : Host.Outcome State Fault Refusal := runCmd cmdGloveReset p s

/-- GLOVE_RELEASE: as GLOVE_RESET, and the sequence ends in FREE. -/
def execGloveRelease (p : Packet) (s : State) : Host.Outcome State Fault Refusal := runCmd cmdGloveRelease p s

/-! ### Step 2: replies (R340 to R342) -/

/-- Staged packets are flushed, those of the reset's own cycle that name an object are overruled, and the dispatched
commands that have not committed are preempted. `named` says whether a packet names an object of the Glove. -/
def resetReplies (s : State) (g : Nat) (named : State → Packet → Bool) : State :=
  match (gloveOf s g).reset with
  | none => s
  | some r =>
    if r.replied then s
    else
      let mine := s.staged.filter (fun p => turnOf s p == g)
      let late := mine.filter (fun p => p.cycle == r.cycle && named s p)
      let early := mine.filter (fun p => !(p.cycle == r.cycle && named s p))
      let s1 := { s with staged := s.staged.filter (fun p => turnOf s p != g) }
      let s2 := early.foldl (fun s p => deliver s p { status := .flushed }) s1
      let s3 := late.foldl (fun s p => deliver s p { status := .overruled, detail := 0x0701 }) s2
      let (s4, n) := preempt s3 5 0x0701 (fun o => o.pkt.ctx == g || o.names.any (objGlove s g))
      let r' : Reset := { r with replied := true, flushed := early.length, preempted := late.length + n }
      setGlove s4 g (fun x => { x with reset := some r' })

/-! ### Steps 3 to 6 -/

/-- A GLOVE_RESET or GLOVE_RELEASE of the Glove is serialized and has not been dispatched. -/
def resetStaged (s : State) (g : Nat) : Bool :=
  s.staged.any (fun p => (p.opcode == 0x0701 || p.opcode == 0x0703) && p.u8 0 == g)

/-- Step 3 has ended: the replies of step 2 are out, the commands that asked for the reset are dispatched, and no command of
the Glove is still at work. -/
def committedDone (s : State) (g : Nat) : Bool :=
  (((gloveOf s g).reset.map (fun r => r.replied)).getD false) && !s.outstanding.any (fun o => o.pkt.ctx == g) &&
  !resetStaged s g

/-- Work requests of a Glove that still wait end with ST_FLUSHED, and its connections are taken away. -/
def dropConns (s : State) (g : Nat) : State :=
  let ts := (gloveOf s g).triggers
  let s1 := setGlove s g (fun x => { x with triggers := [], counterWaits := [] })
  let s2 := ts.foldl (fun s t => endTrigger s g t .flushed) s1
  let ids := (s2.conns.filter (fun c => c.owner == g)).map (fun c => c.id)
  let s3 := ids.foldl (fun s c => ((connOf s c).map (fun k => failRequests s k .flushed)).getD s) s2
  let s4 := ids.foldl sendClose s3
  ids.foldl removeConn s4

/-- Step 4: everything the Glove has made goes. Window generations and incarnations persist. -/
def teardown (s : State) (g : Nat) : State :=
  let s1 := (s.windows.filter (fun w => w.owner == g)).foldl (fun s w => revokeWindow s w.index) s
  let s2 := dropLines (dropConns s1 g) (fun l => l.glove == g)
  let s3 := { s2 with
    revokedWins := s2.revokedWins.filter (fun w => w.owner != g)
    queues := s2.queues.filter (fun q => q.owner != g)
    vintages := s2.vintages.filter (fun v => v.glove != g)
    casks := s2.casks.filter (fun c => c.glove != g)
    keys := { s2.keys with slots := s2.keys.slots.filter (fun k => k.owner != g) }
    int := { s2.int with
      verifying := s2.int.verifying.filter (fun x => x.1 != g), faulted := s2.int.faulted.filter (fun x => x.1 != g)
      reissued := s2.int.reissued.filter (fun w => workGlove w != g)
      waiting := s2.int.waiting.filter (fun w => workGlove w != g) } }
  setGlove s3 g (fun x => { x with
    params := [], keySets := [], recipes := [], summaries := [], serial := 0, phase := {} })

/-- An event of R349. -/
def gloveEvent (code : Nat) (st : Status) (g source cause duration : Nat) (r : Reset) : List Byte :=
  toLE 2 code ++ toLE 2 (statusWord st) ++ toLE 1 g ++ toLE 1 source ++ toLE 1 cause ++ zeros 1 ++ toLE 4 duration ++
    toLE 4 r.flushed ++ toLE 4 r.preempted ++ zeros 4 ++ phaseBytes r.start

/-- The source an event names (R339). -/
def resetSource (r : Reset) : Nat := if r.release then 2 else r.source

/-- Answer every GLOVE_RESET and GLOVE_RELEASE that waits for a Glove's sequence. -/
def answerResets (s : State) (g : Nat) (a : Answer) : State :=
  (s.outstanding.filter (fun o => o.wait == .gloveReset g)).foldl (fun s o => reply s o.pkt a) s

/-- The VF's configuration registers take their reset values (R375). -/
def endFlr (s : State) (fn : Nat) : State :=
  { s with host := { s.host with
      vectors := s.host.vectors.filter (fun v => v.fn != fn), flr := s.host.flr.filter (· != fn)
      busMaster := s.host.busMaster.filter (· != fn), memorySpace := s.host.memorySpace.filter (· != fn) } }

/-- A Glove's carried stripes are dropped, and nothing waits for them any more (R454). -/
def dropCarried (s : State) (g : Nat) : State :=
  setGlove { s with int := { s.int with verifying := s.int.verifying.filter (fun x => x.1 != g) } } g
    (fun x => { x with carried := false })

/-- The Glove becomes WEDGED (R343, R344, R454, R459). -/
def wedgeGlove (s : State) (g cause duration : Nat) (r : Reset) : State :=
  let s1 := setGlove (dropCarried s g) g (fun x => { x with state := .wedged, wedgeCause := cause, reset := none })
  let s2 := postEvent s1 vintner (gloveEvent 0x0711 .wedged g (resetSource r) cause duration r)
  let s3 := addRecord s2 { kind := 10, unit := 0x30 + g, outcome := cause, glove := g }
  settleVats (answerResets s3 g { status := .wedged, detail := cause })

/-- The block of the nonce: one that the reserve has served to the reset, else one of its queue. -/
def takeNonce (s : State) (r : Reset) : State :=
  if r.nonce then s else { s with ent := { s.ent with reserve := s.ent.reserve - 1 } }

/-- Steps 5 and 6, once the erase is proven and the nonce of R404 can be drawn. -/
def finishReset (s : State) (g duration : Nat) (r : Reset) : State :=
  let (nonce, s1) := drawBytes (takeNonce s r) 16
  let seed := gloveSeed s1 g nonce
  let vats := inServiceVats s1
  let clean (x : Glove) : Glove :=
    if r.release then { resets := satAdd 65535 x.resets 1 }
    else {
      state := .active, resets := satAdd 65535 x.resets 1, cfg := x.cfg, assign := x.assign, digest := x.digest
      dataSeed := seed, tastes := x.tastes, vatList := vats, blocks := x.blocks }
  let s2 := setGlove s1 g clean
  let s3 := if s2.host.flr.contains (g + 1) then endFlr s2 (g + 1) else s2
  let s4 := postEvent s3 vintner (gloveEvent 0x0710 .ok g (resetSource r) 0 duration r)
  settleVats (answerResets s4 g { status := .ok, r0 := duration % 2 ^ 32, r1 := r.flushed, r2 := r.preempted })

/-- The nonce's draw takes its place in the reserve stream (R389, R404). -/
def awaitNonce (s : State) (g : Nat) : State :=
  setGlove s g (fun x => { x with reset := x.reset.map (fun r => { r with awaits := some (r.awaits.getD s.clock.order) }) })

/-- GLOVE_RESET_END: teardown and erase. The Glove ends ACTIVE or FREE, or WEDGED where a granule does not read back
as zero (cause 2) or its keys cannot be replaced (cause 3). Before committed work has ended, and while the nonce
must wait for its block (R404), nothing ends. -/
def execGloveResetEnd (glove durationUs : Nat) (readBackZero : Bool) (s : State) : Host.Outcome State Fault Refusal :=
  match (gloveOf s glove).reset with
  | none => .next s
  | some r =>
    if ¬ committedDone s glove then .next s
    else if ¬ readBackZero then .next (wedgeGlove (teardown s glove) glove 2 durationUs r)
    else if s.ent.state = .failed ∨ s.keys.zeroized then .next (wedgeGlove (teardown s glove) glove 3 durationUs r)
    else if ¬ r.nonce ∧ (s.ent.state = .startup ∨ s.ent.reserve = 0) then .next (awaitNonce s glove)
    else .next (finishReset (teardown s glove) glove durationUs r)

/-- QUIESCENCE_TIMEOUT: 100 ms after committed work ended, teardown has not (cause 1). -/
def execQuiescenceTimeout (glove durationUs : Nat) (s : State) : Host.Outcome State Fault Refusal :=
  match (gloveOf s glove).reset with
  | none => .next s
  | some r => .next (if committedDone s glove then wedgeGlove s glove 1 durationUs r else s)

/-! ### Function Level Reset and SR-IOV (R351, R374 to R377) -/

/-- The engine answers configuration requests of the PF (R352). -/
def hostReady (s : State) : Bool := s.pwr.state == .on && s.pwr.ready

/-- An FLR on an existing VF (R374). -/
def flrFunction (cycle : Nat) (s : State) (fn : Nat) : State :=
  let g := fn - 1
  match (gloveOf s g).state with
  | .free => endFlr s fn
  | .wedged => endFlr s fn
  | _ =>
    let s1 := startReset s g 1 cycle (calendarWord s)
    { s1 with host := { s1.host with flr := s1.host.flr.filter (· != fn) ++ [fn] } }

/-- FLR_VF. -/
def execFlrVf (fn cycle : Nat) (s : State) : Host.Outcome State Fault Refusal :=
  .next (if vfExists s fn then flrFunction cycle { s with clock := { s.clock with cycle := cycle } } fn else s)

/-- FLR_COMPLETE, 100 ms after the write where the reset has not ended by then: entries of the Glove are discarded
from now on (R375). -/
def execFlrComplete (fn : Nat) (s : State) : Host.Outcome State Fault Refusal :=
  if s.host.flr.contains fn then
    .next (setGlove (endFlr s fn) (fn - 1) (fun x => { x with flrEnded := isResetting x }))
  else .next s

/-- Clearing VF Enable acts as an FLR on every VF (R377). -/
def clearVfEnable (s : State) (cycle : Nat) : State :=
  let fns := if s.host.vfEnable then (List.range s.host.numVfs).map (· + 1) else []
  let s1 := fns.foldl (flrFunction cycle) s
  { s1 with host := { s1.host with vfEnable := false } }

/-- VF_ENABLE_CLEAR. -/
def execVfEnableClear (cycle : Nat) (s : State) : Host.Outcome State Fault Refusal :=
  .next (clearVfEnable { s with clock := { s.clock with cycle := cycle } } cycle)

/-- VF_ENABLE_SET: the VFs answer from now on. NumVFs above TotalVFs, or a change while VF Enable is set, is not
taken (PRESUMED, notes/assumptions/35.md). -/
def execVfEnableSet (numVfs : Nat) (s : State) : Host.Outcome State Fault Refusal :=
  .next (if hostReady s ∧ ¬ s.host.vfEnable ∧ numVfs ≤ 16 then
    { s with host := { s.host with vfEnable := true, numVfs := numVfs } } else s)

/-- The Vintner's queues, windows and key slots are flushed and destroyed, and nothing is posted (R377). -/
def dropVintner (s : State) : State :=
  let s1 := (s.windows.filter (fun w => w.owner == vintner)).foldl (fun s w => revokeWindow s w.index) s
  { s1 with
    staged := s1.staged.filter (fun p => turnOf s1 p != vintner || p.route == .sideband)
    outstanding := s1.outstanding.filter (fun o => o.pkt.ctx != vintner || o.pkt.route == .sideband || o.committed)
    queues := s1.queues.filter (fun q => q.owner != vintner)
    keys := { s1.keys with slots := s1.keys.slots.filter (fun k => k.owner != vintner) } }

/-- FLR_PF. -/
def execFlrPf (cycle : Nat) (s : State) : Host.Outcome State Fault Refusal :=
  if hostReady s then
    let s1 := clearVfEnable (dropVintner { s with clock := { s.clock with cycle := cycle } }) cycle
    .next (endFlr { s1 with host := { s1.host with numVfs := 0 } } 0)
  else .next s

end Sys2Proof.Machine
end

