-- ==== Sys2Proof/Machine/Queues.lean ====
section
/-! DEFINITION. Packet headers and the queue commands 0x0000 to 0x0004 (chapter 2, "Queue commands"). -/

set_option autoImplicit false

namespace Sys2Proof.Machine

/-! ### The command packet header (R20, R21) -/

/-- Step 1 of R32 on a header slot: the detail of ST_BAD_HEADER, or 0 (R25). -/
def headerError (h : List Byte) : Nat :=
  if field h 0 2 ≠ 0x4357 then 1
  else if field h 2 1 ≠ 1 then 2
  else if field h 60 4 ≠ Crypto.crc32c (padTo 60 h) then 3
  else if field h 12 2 ≠ 1 + ceilDiv (field h 10 2) 64 then 4
  else if 4032 < field h 10 2 then 5
  else 0

/-- Offset of the first header field with a reserved bit set (R10, R20). -/
def headerReserved (h : List Byte) : Option Nat :=
  if 8 ≤ field h 3 1 then some 3
  else if 4 ≤ field h 6 2 then some 6
  else if field h 9 1 ≠ 0 then some 9
  else if field h 14 2 ≠ 0 then some 14
  else if ¬ allZero (slice h 24 36) then some 24
  else none

/-- The route of a packet of a queue (R41). -/
def routeOf (q : Queue) : Route :=
  if q.conn.isSome then .wra else if q.owner < 16 then .vf else .pf

/-- The packet that a header slot and its parameter slots spell. -/
def packetOf (h : List Byte) (params : List Byte) (route : Route) (queue : Nat) (stamp : PhaseWord)
    (cycle order slot : Nat) : Packet where
  route := route
  queue := queue
  opcode := field h 4 2
  ctx := field h 8 1
  vintage := field h 16 4
  tag := field h 20 4
  priority := field h 3 1 % 8
  fence := (field h 6 2).testBit 0
  ordered := (field h 6 2).testBit 1
  params := params.take (field h 10 2)
  stamp := stamp
  cycle := cycle
  order := order
  slot := slot
  reservedAt := headerReserved h

/-- Slots of the packet a good header opens. -/
def headerSlots (h : List Byte) : Nat := field h 12 2

/-- What a reply needs of a packet that is answered without being serialized (R503): the tag as read, and
the phase word in force in the cycle in which the reply is posted. -/
def unserialized (q : Queue) (h : List Byte) (slot : Nat) (word : PhaseWord) : Packet :=
  { packetOf h [] (routeOf q) q.id word 0 0 slot with ctx := q.owner }

/-- The reply of a packet that the queue manager answers without dispatch. It has no reserved entry: it is posted
behind the replies that wait for room, and takes no entry reserved for another (R27). -/
def answerUndispatched (s : State) (p : Packet) (a : Answer) : State := deliverBy postTo s p a

/-- Remove `n` slots from the front of a command queue: the consumer index moves past them. -/
def consumeSlots (s : State) (q n : Nat) : State :=
  setQueue s q (fun x => { x with slots := x.slots.drop n, cons := (x.cons + n) % 2 ^ 32 })

/-! ### NOP -/

def cmdNop : Cmd where
  op := 0x0000
  issuer := .any
  form p _ := formError p (p.len ≤ 16) false []
  body p s := .ok (s, okBytes (padTo 16 p.params))

/-- NOP: no effect; the first 16 parameter bytes return in the result words. -/
def execNop (p : Packet) (s : State) : Host.Outcome State Fault Refusal := runCmd cmdNop p s

/-! ### QUEUE_CREATE (R35) -/

def queueKind : Nat → QKind
  | 0 => .command
  | 1 => .reply
  | 2 => .send
  | 3 => .receive
  | 4 => .completion
  | _ => .event

/-- The rule of R35 and the type of the bound queue, where that queue exists. -/
def boundFits (p : Packet) (s : State) : Bool :=
  match queueOf s (p.u16 4) with
  | none => true
  | some b =>
    if p.u16 6 < 2 ^ 15 then b.kind == .reply
    else
      let c := p.u16 6 % 2 ^ 15
      b.kind == .send && (b.conn == some c || ((connOf s c).map (fun x => x.sendQ)) == some b.id) &&
        ((connOf s c).map (fun x => x.owner)).getD p.ctx == p.ctx

def cmdQueueCreate : Cmd where
  op := 0x0001
  issuer := .any
  names p _ := [.queue (p.u16 0)] ++ (if p.u8 2 = 0 then [.queue (p.u16 4)] else []) ++
    (if p.u16 6 < 2 ^ 15 then [] else [.conn (p.connAt 6)])
  access p s := do
    need (queueInRange s p.ctx (p.u16 0)) .accessViolation
    need (p.u8 2 != 0 || queueInRange s p.ctx (p.u16 4)) .accessViolation
    need (p.u16 6 < 2 ^ 15 || connInRange s p.ctx (p.connAt 6)) .accessViolation
    need (vectorInRange p.ctx (p.u8 17)) .accessViolation
    need (!(p.ctx < 16 && (gloveOf s p.ctx).session.confidential && p.u8 16 == 0)) .accessViolation 7
  form p s :=
    let t := p.u8 2
    let bound := 2 ^ 15 ≤ p.u16 6
    formError p (p.len = 24) false
      [(2, t ≤ 5), (3, 6 ≤ p.u8 3 && p.u8 3 ≤ 16 && (t != 3 || 7 ≤ p.u8 3)),
       (4, t == 0 || p.u16 4 == 0), (4, t != 0 || bound || boundFits p s),
       (6, if bound then t == 0 || t == 2 || t == 3 else p.u16 6 == 0),
       (6, t != 0 || !bound || boundFits p s),
       (8, p.u64 8 % 4096 == 0), (16, p.u8 16 ≤ 1),
       (17, t == 1 || t == 4 || t == 5 || p.u8 17 == 0), (18, p.num 18 6 == 0)]
  state p s := do
    need (queueOf s (p.u16 0)).isNone .badState
    need (p.u8 2 != 0 || (queueOf s (p.u16 4)).isSome) .badState
    need (p.u16 6 < 2 ^ 15 || (connOf s (p.connAt 6)).isSome) .badState
    need (p.u8 16 == 0 || (p.ctx < 16 && (gloveOf s p.ctx).session.state == .established)) .badState
  body p s := do
    need (p.u8 2 != 0 || (s.queues.filter (fun q => q.kind == .command && q.bound == p.u16 4)).length <
      Config.queuesPerReply) .noResource
    let q : Queue := {
      id := p.u16 0, owner := p.ctx, kind := queueKind (p.u8 2), log2Depth := p.u8 3, bound := p.u16 4
      conn := if p.u16 6 < 2 ^ 15 then none else some (p.connAt 6)
      base := p.u64 8, cuff := p.u8 16 == 1, vector := p.u8 17 }
    .ok ({ s with queues := s.queues ++ [q] }, okWith)

/-- QUEUE_CREATE. -/
def execQueueCreate (p : Packet) (s : State) : Host.Outcome State Fault Refusal := runCmd cmdQueueCreate p s

/-! ### Discarding packets (R36 to R38) -/

/-- The packet begins before index `f` (R37). -/
def beginsBefore (slot f : Nat) : Bool := 0 < circle 32 f slot && circle 32 f slot ≤ 2 ^ 31

/-- Discard the staged packets of a queue that begin before `f`: each receives ST_FLUSHED with its own
stamp. Answers how many. -/
def flushStaged (s : State) (q f : Nat) : State × Nat :=
  let gone := s.staged.filter (fun p => p.queue == q && p.route != .sideband && beginsBefore p.slot f)
  let s1 := { s with staged := s.staged.filter (fun p =>
    !(p.queue == q && p.route != .sideband && beginsBefore p.slot f)) }
  (gone.foldl (fun s p => deliver s p { status := .flushed }) s1, gone.length)

/-- Discard the unfetched packets of a queue that begin before `f`, with `fuel` for their number. A whole
packet receives ST_FLUSHED; one whose slots are not all published yet is marked and answered at its fetch
(R37). A header that fails leaves no boundary: the slots up to `f` go with one ST_BAD_HEADER reply (R33,
R38; DEDUCED, notes/assumptions/14.md). -/
def flushRing : Nat → State → Nat → Nat → State × Nat
  | 0, s, _, _ => (s, 0)
  | n + 1, s, id, f =>
    match queueOf s id with
    | none => (s, 0)
    | some q =>
      match q.slots with
      | [] => (s, 0)
      | h :: _ =>
        if ¬ beginsBefore q.cons f then (s, 0)
        else if headerError h ≠ 0 then
          let s1 := answerUndispatched s (unserialized q h q.cons (contextWord s q.owner))
            { status := .badHeader, detail := headerError h, r0 := q.cons }
          (consumeSlots s1 id (circle 32 f q.cons), 0)
        else if q.slots.length < headerSlots h then
          (setQueue s id (fun x => { x with flushTo := some f }), 1)
        else
          let s1 := answerUndispatched s (unserialized q h q.cons (contextWord s q.owner)) { status := .flushed }
          let (s2, k) := flushRing n (consumeSlots s1 id (headerSlots h)) id f
          (s2, k + 1)

/-- Slots of a HALTED queue from the failed header up to `f` (R38); none where `f` lies at or before that header. -/
def haltedSlots (q : Queue) (f : Nat) : Nat := if beginsBefore q.cons f then circle 32 f q.cons else 0

/-- Discard the unfetched packets of a command queue up to `f`, and answer the packets and the slots that went. On a
HALTED queue the slots go without a reply, and are no packets that could be counted (R38). -/
def discardUnfetched (s : State) (q : Queue) (f : Nat) : State × Nat × Nat :=
  if q.state = .halted then (consumeSlots s q.id (haltedSlots q f), 0, haltedSlots q f)
  else
    let (s1, b) := flushRing q.slots.length s q.id f
    (s1, b, 0)

/-! ### QUEUE_DESTROY (R36) -/

/-- A queue that is DESTROYING already answers ST_BAD_STATE, a case that the opcode's table does not list (DESIGN
CHOICE, notes/assumptions/117.md). -/
def cmdQueueDestroy : Cmd where
  op := 0x0002
  issuer := .any
  names p _ := [.queue (p.u16 0)]
  access p s := need (queueInRange s p.ctx (p.u16 0)) .accessViolation
  form p s := formError p (p.len = 8) false
    [(0, p.u16 0 != p.queue && ((queueOf s p.queue).map (fun q => q.bound)) != some (p.u16 0)),
     (2, p.num 2 6 == 0)]
  state p s := do
    let q ← want (queueOf s (p.u16 0)) .badState
    need (q.state != .destroying) .badState
    need (!((q.kind == .reply || q.kind == .send) &&
      s.queues.any (fun x => x.kind == .command && x.bound == q.id))) .badState
  body p s :=
    let id := p.u16 0
    match (queueOf s id).filter (fun q => q.kind == .command) with
    | some q =>
      let (s1, a) := flushStaged s id q.prod
      let (s2, b, _) := discardUnfetched s1 q q.prod
      let s3 := setQueue s2 id (fun q => { q with state := .destroying })
      if destroyReady s3 id then .ok (removeQueue s3 id, okWith (a + b))
      else .ok (s3, .waits (.destroy id (a + b)))
    | none => .ok (removeQueue s id, okWith)

/-- QUEUE_DESTROY. -/
def execQueueDestroy (p : Packet) (s : State) : Host.Outcome State Fault Refusal := runCmd cmdQueueDestroy p s

/-! ### QUEUE_FLUSH (R37, R38) -/

def cmdQueueFlush : Cmd where
  op := 0x0003
  issuer := .any
  names p _ := [.queue (p.u16 0)]
  access p s := need (queueInRange s p.ctx (p.u16 0)) .accessViolation
  form p _ := formError p (p.len = 8) false [(2, p.num 2 6 == 0)]
  state p s := do
    let q ← want (queueOf s (p.u16 0)) .badState
    need (q.kind == .command) .badState
  body p s := do
    let q ← want (queueOf s (p.u16 0)) .badState
    let f := p.mark.getD q.prod
    let (s1, a) := flushStaged s q.id f
    let (s2, b, n) := discardUnfetched s1 q f
    if q.state = .halted then
      let clear (x : Queue) : Queue := { x with state := .active, failSlot := none, badIndex := false }
      .ok (setQueue s2 q.id clear, okWith n f a)
    else .ok (setQueue s2 q.id (fun x => { x with badIndex := false }), okWith (a + b) f (a + b))

/-- QUEUE_FLUSH. -/
def execQueueFlush (p : Packet) (s : State) : Host.Outcome State Fault Refusal := runCmd cmdQueueFlush p s

/-! ### QUEUE_QUERY -/

/-- Packets of a queue that are dispatched and await a reply, this query among them when it came from the
queue itself. -/
def awaitingCount (s : State) (p : Packet) (q : Nat) : Nat :=
  (s.outstanding.filter (fun o => o.pkt.queue == q && o.pkt.route != .sideband)).length +
    b2n (p.queue == q && p.route != .sideband)

def cmdQueueQuery : Cmd where
  op := 0x0004
  issuer := .any
  names p _ := [.queue (p.u16 0)]
  access p s := need (queueInRange s p.ctx (p.u16 0)) .accessViolation
  form p _ := formError p (p.len = 8) false [(2, p.num 2 6 == 0)]
  state p s := need (queueOf s (p.u16 0)).isSome .badState
  body p s := do
    let q ← want (queueOf s (p.u16 0)) .badState
    let staged := (s.staged.filter (fun x => x.queue == q.id && x.route != .sideband)).length
    .ok (s, okWith q.prod q.cons (staged + 2 ^ 16 * queueStateCode q.state) (awaitingCount s p q.id))

/-- QUEUE_QUERY. -/
def execQueueQuery (p : Packet) (s : State) : Host.Outcome State Fault Refusal := runCmd cmdQueueQuery p s

/-- Command queue entries could not be read: the queue enters HALTED, with one reply that names the slot (R362, R368). -/
def failCommandRing (s : State) (q : Queue) (slot : Nat) (st : Status) : State :=
  if q.kind = .command ∧ q.state = .active ∧ q.conn.isNone ∧ ¬ q.slots.isEmpty then
    let s1 := setQueue s q.id (fun x => { x with state := .halted, failSlot := some x.cons })
    answerUndispatched s1 (unserialized q [] q.cons (contextWord s q.owner)) { status := st, r0 := slot }
  else s

end Sys2Proof.Machine
end

