-- ==== Sys2Proof/Machine/Requests.lean ====
section
/-! DEFINITION. Work requests of send queues (R139 to R143, R156, R157, R160): the check of the local window, the
packets each operation sends, triggers and counter waits. -/

set_option autoImplicit false

namespace Sys2Proof.Machine

/-! ### The entry (R139) -/

def wrId (e : List Byte) : Nat := field e 0 8
def wrOp (e : List Byte) : Nat := field e 8 1
def wrFlag (e : List Byte) (b : Nat) : Bool := (field e 9 1).testBit b
def wrTriggered (e : List Byte) : Bool := wrFlag e 0
def wrCounterWait (e : List Byte) : Bool := wrFlag e 1
def wrSignal (e : List Byte) : Bool := wrFlag e 2
def wrCount (e : List Byte) : Nat := field e 10 2
def wrAwait (e : List Byte) : Nat := field e 12 4
def wrQueue (e : List Byte) : Nat := field e 20 2
def wrThreshold (e : List Byte) : Nat := field e 24 8
def wrLocal (e : List Byte) : Nat := field e 32 4
def wrRemote (e : List Byte) : Nat := field e 36 4
def wrLocalOff (e : List Byte) : Nat := field e 40 8
def wrRemoteOff (e : List Byte) : Nat := field e 48 8
def wrLength (e : List Byte) : Nat := field e 56 4
def wrParty (e : List Byte) : Nat := field e 60 4

/-- The connection a send queue works for: the one that named it at CONN_CREATE, the lowest where several did
(DESIGN CHOICE, notes/assumptions/22.md). -/
def queueConn (s : State) (q : Nat) : Option Conn :=
  s.conns.foldl (fun best c =>
    if c.sendQ = q then
      match best with
      | some b => if c.id < b.id then some c else some b
      | none => some c
    else best) none

/-- The entry has an operation of R139, no reserved bit, and a length that the operation can carry; an entry
that has not completes with ST_BAD_PARAM (DESIGN CHOICE, notes/assumptions/23.md). -/
def wrWellFormed (s : State) (queue : Nat) (e : List Byte) : Bool :=
  [1, 2, 4, 5, 7, 13].contains (wrOp e) && field e 9 1 < 32 && field e 22 2 == 0 &&
  (!wrTriggered e || wrCount e != 0) && (wrOp e == 5 || wrLength e != 0) && (wrOp e != 7 || wrLength e ≤ 4096) &&
  (wrOp e != 4 || wrParty e < 2 ^ 22) &&
  (!wrCounterWait e || (queue < wrQueue e && ((queueOf s (wrQueue e)).map (fun q =>
    (q.kind == .send || q.kind == .receive) && ((queueOf s queue).map (fun x => x.owner)) == some q.owner)).getD false))

/-! ### Sending -/

/-- End a request that sends nothing. -/
def failRequest (s : State) (c : Conn) (queue : Nat) (e : List Byte) (st : Status) (detail : Nat) : State :=
  completeRequest s c.owner queue (wrId e) (wrSignal e) (statusWord st) detail (wrOp e) 0 c.id

/-- The next message ID of a connection, and the state after it (R116). -/
def takeMsg (s : State) (cid : Nat) : Nat × State :=
  (((connOf s cid).map (fun c => c.nextMsg)).getD 0,
   setConn s cid (fun c => { c with nextMsg := (c.nextMsg + 1) % 2 ^ 32 }))

/-- One packet of a request's message. -/
def wrPacket (e : List Byte) (msg index total : Nat) (ext payload : List Byte) (th : Option TrellisHeader := none) :
    WraPacket where
  trellis := th
  port := 0
  conn := 0
  incarnation := 0
  first := index == 0
  last := index + 1 == total
  spec := wrFlag e 4
  trigger := wrFlag e 3
  trigTag := if wrFlag e 3 then field e 16 4 else 0
  msg := msg
  key := wrRemote e
  offset := wrRemoteOff e + 4096 * index
  ext := ext
  payload := payload

/-- Send the message of a request; its sender's record waits for every packet's acknowledgment (R126). A PARTIAL names its
local Cask and the byte of it that it starts at. -/
def sendRequest (s : State) (c : Conn) (queue : Nat) (e : List Byte) (ext : Nat → List Byte) (cask pos : Nat)
    (parts : List (List Byte)) (th : Option TrellisHeader := none) : State :=
  let (msg, s1) := takeMsg s c.id
  let m : Message := {
    msg := msg, op := wrOp e, queue := queue, wrId := wrId e, signal := wrSignal e, left := parts.length
    bytes := wrLength e }
  let s2 := setConn s1 c.id (fun c => { c with messages := c.messages ++ [m] })
  (List.zip (List.range parts.length) parts).foldl (fun s x =>
    submit s c.id {
      psn := 0, op := wrOp e, timerUs := c.minTimer, cask := cask, pos := pos + 4096 * x.1
      pkt := wrPacket e msg x.1 parts.length (ext parts.length) x.2 th }) s2

/-- READ and ATOMIC send one packet and wait for the response (R118, R166). -/
def sendIssued (s : State) (c : Conn) (queue : Nat) (e ext : List Byte) (offset left : Nat) : State :=
  let (msg, s1) := takeMsg s c.id
  let i : Issued := {
    msg := msg, key := wrLocal e, offset := offset, left := left, total := left, atomic := wrOp e == 5
    wr := (queue, wrId e, wrSignal e) }
  let s2 := setConn s1 c.id (fun c => { c with issued := c.issued ++ [i] })
  submit s2 c.id { psn := 0, op := wrOp e, timerUs := c.minTimer, pkt := wrPacket e msg 0 1 ext [] }

/-- The bytes of a request's source. A DMA read that DMA_READ_FAIL has announced for the PSN the request takes fails (R362). -/
def sourceBytes (s : State) (c : Conn) (w : Window) (off n : Nat) : Except ReadFail (List Byte × State) :=
  match c.readFail with
  | some (psn, cause) =>
    if w.target = 1 ∧ psn = c.txReq.next then .error { cause := cause, records := (gloveOf s c.owner).session.records }
    else windowBytes s w off n
  | none => windowBytes s w off n

/-- The bytes a request sends, after the check of R140; host memory that cannot be read completes it with the
status of R362 or R368. -/
def requestSource (s : State) (c : Conn) (queue : Nat) (e : List Byte) (right n : Nat) :
    Except State (Window × List Byte × State) :=
  match localWindow s c.owner (wrLocal e) right (wrLocalOff e) n (wrOp e == 4 || wrOp e == 13) with
  | .error r => .error (failRequest s c queue e r.answer.status r.answer.detail)
  | .ok w =>
    if mapsWithheld s w then .error (failRequest s c queue e .badState 0)
    else match sourceBytes s c w (wrLocalOff e) n with
      | .ok (bytes, s') => .ok (w, bytes, s')
      | .error f => .error (failRequest (dmaReport (setConn s c.id (fun c => { c with readFail := none })) c.owner f) c queue e
          (dmaStatus f.cause) 0)

/-- The Vintage whose sum a PARTIAL sends: READY, with no client LEES (R157, R227). -/
def partialSource (s : State) (g : Nat) (w : Window) : Option (Cask × Vintage) :=
  match (if w.target = 0 then caskOf s g w.object else none) with
  | none => none
  | some k =>
    ((vintageOf s g k.vintage).filter (fun v => k.role == 0 && v.state == .ready &&
      !v.standings.any (fun x => x.2 == .lees))).map (fun v => (k, v))

/-- The members a request may name (R156). -/
def memberPresent (s : State) (m : Nat) : Bool := s.net.trellis.members.contains m

/-- A request names a member outside the membership (R156). -/
def memberLost (s : State) (c : Conn) (e : List Byte) : Bool :=
  (c.trellis && !memberPresent s c.member) || (wrOp e == 13 && !memberPresent s (wrParty e % 2 ^ 16))

/-- The member that started the reduction whose sum a Cask holds: the origin of the first partial it took, else this
member (R76, R153; DEDUCED, notes/assumptions/135.md). -/
def reductionOrigin (s : State) (k : Cask) : Nat := ((k.partials.head?).map (fun t => t.origin)).getD s.net.trellis.member

/-- A PARTIAL request (R157). On a connection that is no Trellis connection it completes with ST_BAD_PARAM: R117 keeps the
operation to the Trellis and names no status (DESIGN CHOICE, notes/assumptions/153.md). -/
def runPartial (s : State) (c : Conn) (queue : Nat) (e : List Byte) : State :=
  match requestSource s c queue e rightAccumulate (wrLength e) with
  | .error s' => s'
  | .ok (w, bytes, s1) =>
    match partialSource s1 c.owner w with
    | none => failRequest s1 c queue e .badState 0
    | some (k, v) =>
      if ¬ c.trellis then failRequest s1 c queue e .badParam 0
      else sendRequest s1 c queue e (fun n => toLE 4 (survivorCount v) ++ toLE 4 n) k.id (w.base + wrLocalOff e) (pieces 4096 bytes)
        (some { dest := wrParty e % 2 ^ 16, source := s1.net.trellis.member, origin := reductionOrigin s1 k
                subclass := false, hops := 0 })

/-- Carry out a request now (R139). A request that fires on a CLOSING connection is no longer new work it may start: it
completes with ST_FLUSHED (R119, R142; DESIGN CHOICE, notes/assumptions/134.md). -/
def runRequest (s : State) (queue : Nat) (e : List Byte) : State :=
  match queueConn s queue with
  | none => s
  | some c =>
    if c.state = .error then failRequest s c queue e .peerLost 0
    else if c.state = .closing then failRequest s c queue e .flushed 0
    else if ¬ wrWellFormed s queue e then failRequest s c queue e .badParam 0
    else if memberLost s c e then failRequest s c queue e .peerLost 0
    else match wrOp e with
      | 2 =>
        match localWindow s c.owner (wrLocal e) rightWrite (wrLocalOff e) (wrLength e) with
        | .error r => failRequest s c queue e r.answer.status r.answer.detail
        | .ok _ => sendIssued s c queue e (toLE 4 (wrLocal e) ++ toLE 4 (wrLength e) ++ toLE 8 (wrLocalOff e))
            (wrLocalOff e) (wrLength e)
      | 5 =>
        match localWindow s c.owner (wrLocal e) rightWrite (wrLocalOff e + 24) 8 with
        | .error r => failRequest s c queue e r.answer.status r.answer.detail
        | .ok _ =>
          match requestSource s c queue e rightRead 24 with
          | .error s' => s'
          | .ok (_, ext, s1) => sendIssued s1 c queue e ext (wrLocalOff e + 24) 8
      | 13 => runPartial s c queue e
      | _ =>
        match requestSource s c queue e rightRead (wrLength e) with
        | .error s' => s'
        | .ok (_, bytes, s1) =>
          sendRequest s1 c queue e
            (fun n => if wrOp e = 4 then toLE 4 (wrParty e % 2 ^ 22) ++ toLE 4 n else []) 0 0 (pieces 4096 bytes)

/-! ### Queue order, triggers and counter waits (R142, R143) -/

/-- The counter a request waits for has reached its threshold. -/
def counterReached (s : State) (e : List Byte) : Bool :=
  ((queueOf s (wrQueue e)).map (fun q => decide (wrThreshold e ≤ q.counter))).getD false

def addWait (s : State) (g queue : Nat) : State :=
  setGlove s g (fun x => if x.counterWaits.contains queue then x else { x with counterWaits := x.counterWaits ++ [queue] })

def dropWait (s : State) (g queue : Nat) : State :=
  setGlove s g (fun x => { x with counterWaits := x.counterWaits.filter (· != queue) })

/-- Counter waits held in the module. -/
def waitCount (s : State) : Nat := sumOf (fun x => x.counterWaits.length) s.gloves

/-- The head of a send queue leaves it: into the trigger table, where it has room, or to be carried out. -/
def executeHead (s : State) (g queue : Nat) (e : List Byte) : State :=
  let s1 := dropWait s g queue
  if wrTriggered e ∧ wrWellFormed s queue e then
    if (gloveOf s1 g).triggers.length < Config.triggerEntries then
      setGlove (consumeSlots s1 queue 1) g (fun x => { x with
        triggers := x.triggers ++ [{ queue := queue, entry := e, tag := wrAwait e, needed := wrCount e }] })
    else s1
  else runRequest (consumeSlots s1 queue 1) queue e

/-- The head entry of a send queue that may run: the queue is not stopped, its connection takes work, and the completion
queue has room (R77). -/
def readyHead (s : State) (queue : Nat) : Option (Queue × List Byte) :=
  match queueOf s queue, queueConn s queue with
  | some q, some c =>
    if q.kind = .send ∧ ¬ q.stopped ∧ (c.state = .established ∨ c.state = .error) ∧
        (gloveOf s q.owner).state = .active ∧ ¬ completionsStalled s q.owner then
      q.slots.head?.map (fun e => (q, e))
    else none
  | _, _ => none

/-- Send queue entries could not be read: the queue stops at its head, with one completion (R362, R368). -/
def failSendRing (s : State) (q : Queue) (st : Status) : State :=
  if q.kind = .send ∧ ¬ q.stopped ∧ ¬ q.slots.isEmpty then
    let conn := ((queueConn s q.id).map (fun c => c.id)).getD 0
    postCompletion (setQueue s q.id (fun x => { x with stopped := true })) q.owner 0 (statusWord st) 0 0 0 conn
  else s

/-- WORK_REQUEST_EXECUTE: the next request of a send queue. A COUNTER_WAIT head whose counter is short takes a
wait entry, where one is free, and holds the queue. At an entry whose Cuff record was refused the queue stops (R368). -/
def execWorkRequestExecute (queue : Nat) (s : State) : Host.Outcome State Fault Refusal :=
  match readyHead s queue with
  | none => .next s
  | some (q, e) =>
    if e.isEmpty then .next (failSendRing s q .cuffAuth)
    else if wrCounterWait e ∧ wrWellFormed s queue e ∧ ¬ counterReached s e then
      .next (if waitCount s < Config.counterWaits then addWait s q.owner queue else s)
    else .next (executeHead s q.owner queue e)

/-- COUNTER_WAIT_RELEASE: the queue that waits goes on once the counter has reached the threshold. -/
def execCounterWaitRelease (queue : Nat) (s : State) : Host.Outcome State Fault Refusal :=
  match readyHead s queue with
  | none => .next s
  | some (q, e) =>
    .next (if (gloveOf s q.owner).counterWaits.contains queue ∧ counterReached s e then
        executeHead s q.owner queue e
      else s)

/-- An armed request fires. Where the connection of its queue has been removed it is no longer work that may start: it completes
with ST_FLUSHED (R119, R142; DESIGN CHOICE, notes/assumptions/134.md). -/
def fireRequest (g : Nat) (s : State) (t : Trigger) : State :=
  if (queueConn s t.queue).isSome then runRequest s t.queue t.entry else endTrigger s g t .flushed

/-- A message with a tag has become visible on a connection of the Glove: every request armed for the tag
counts it, and those that have their number fire (R142). -/
def fireTag (s : State) (g tag : Nat) : State :=
  let bump (t : Trigger) : Trigger := if t.tag = tag then { t with seen := t.seen + 1 } else t
  let all := (gloveOf s g).triggers.map bump
  let fired := all.filter (fun t => t.tag == tag && t.needed ≤ t.seen)
  let s1 := setGlove s g (fun x => { x with triggers := all.filter (fun t => !(t.tag == tag && t.needed ≤ t.seen)) })
  fired.foldl (fireRequest g) s1

/-- A head that waits for an entry of the trigger table or of the wait table ends at 10 ms under LIVE with ST_NO_RESOURCE
(R72, R143). -/
def endTableWait (s : State) (queue : Nat) : State :=
  match readyHead s queue, queueConn s queue with
  | some (q, e), some c =>
    let g := gloveOf s q.owner
    let wait := wrCounterWait e && !counterReached s e && !g.counterWaits.contains queue && decide (Config.counterWaits ≤ waitCount s)
    let table := wrTriggered e && (!wrCounterWait e || counterReached s e) && decide (Config.triggerEntries ≤ g.triggers.length)
    if g.live ∧ wrWellFormed s queue e ∧ (wait ∨ table) then
      failRequest (consumeSlots s queue 1) c queue e .noResource 0
    else s
  | _, _ => s

end Sys2Proof.Machine
end

