-- ==== Sys2Proof/Machine/Lees.lean ====
section
/-! DEFINITION. Lees: the commands LEES_RACK, LEES_RETRACT and CASK_ADJUST (R229 to R240), and what they do to
checkpoints after seal (R185, R211). -/

set_option autoImplicit false

namespace Sys2Proof.Machine

/-- A CLIENT_CONFLICT event (R172, R189). -/
def conflictEvent (s : State) (g vid cask u : Nat) : State :=
  postEvent s g (toLE 2 0x0111 ++ toLE 2 0 ++ toLE 4 vid ++ toLE 2 cask ++ zeros 2 ++ toLE 4 u ++
    phaseBytes (contextWord s g) ++ zeros 8)

/-! ### LEES_RACK and LEES_RETRACT -/

/-- The clients a batch names. -/
def batchClients (p : Packet) : List Nat := (List.range (p.u16 0)).map (fun i => p.u32 (8 + 4 * i))

/-- First entry that is refused: a bad index, or a standing that the command does not take. -/
def batchError (v : Vintage) (bars : Standing → Bool) (clients : List Nat) : Option (Nat × Status × Nat) :=
  (posOf (fun u => v.clients ≤ u || bars (standingOf v u)) clients).map (fun i =>
    if v.clients ≤ clients.getD i 0 then (i, .badParam, 72 + 4 * i) else (i, .badState, 2))

def leesForm (p : Packet) : Option Nat :=
  formError p (p.len == 8 + 4 * p.u16 0) true [(0, 1 ≤ p.u16 0 && p.u16 0 ≤ 1006), (2, p.num 2 6 == 0)]

def leesState (p : Packet) (s : State) : Check :=
  need (((vintageOf s p.ctx p.vintage).map (fun v => v.state == .opened)).getD false) .badState 1

def racked (st : Standing) : Bool := st == .racked
def retracted (st : Standing) : Bool := st == .retracting || st == .retracted

/-- A message that was held back while its client was LEES counts and fires now (R226, R227; DESIGN CHOICE,
notes/assumptions/129.md). -/
def showHeld (s : State) (g : Nat) (h : Nat × Option Nat × Option Nat) : State :=
  let s1 := match h.2.1 with
    | some q => setQueue s q (fun q => { q with counter := q.counter + 1 })
    | none => s
  match h.2.2 with
  | some tag => fireTag s1 g tag
  | none => s1

/-- One client becomes RACKED: its held conflicts are posted, its packets are counted in the windows they
came through, and its messages count (R172, R226, R227, R229). -/
def rackClient (s : State) (g vid u : Nat) : State :=
  match vintageOf s g vid with
  | none => s
  | some v =>
    let held := v.heldConflicts.filter (fun h => h.1 == u)
    let s1 := setVintage s g vid (fun v =>
      setStanding { v with
        heldConflicts := v.heldConflicts.filter (fun h => h.1 != u), heldMessages := v.heldMessages.filter (fun h => h.1 != u) } u .racked)
    let ids := (accumulateCasks s1 g vid).map (fun c => c.id)
    let count (w : Window) : Window :=
      { w with accesses := w.accesses + Sparse.get w.hidden u, hidden := Sparse.set w.hidden u 0 }
    let shows (w : Window) : Bool := w.owner == g && w.target == 0 && ids.contains w.object
    let s2 := { s1 with windows := mapIf shows count s1.windows }
    let s3 := held.foldl (fun s h => conflictEvent s g vid h.2 u) s2
    (v.heldMessages.filter (fun h => h.1 == u)).foldl (fun s h => showHeld s g h) s3

def cmdLeesRack : Cmd where
  op := 0x0120
  names p _ := [.vintage p.ctx p.vintage]
  form p _ := leesForm p
  state := leesState
  body p s := do
    let v ← want (vintageOf s p.ctx p.vintage) .badState 1
    match batchError v retracted (batchClients p) with
    | some (i, st, d) => failWith { status := st, detail := d, r3 := i }
    | none =>
      let fresh := dedup ((batchClients p).filter (fun u => standingOf v u != .racked))
      let s1 := fresh.foldl (fun s u => rackClient s p.ctx p.vintage u) s
      .ok (s1, .answer { status := .racked, r0 := fresh.length, r1 := (batchClients p).length - fresh.length })

/-- LEES_RACK. -/
def execLeesRack (p : Packet) (s : State) : Host.Outcome State Fault Refusal := runCmd cmdLeesRack p s

def cmdLeesRetract : Cmd where
  op := 0x0121
  names p _ := [.vintage p.ctx p.vintage]
  form p _ := leesForm p
  state := leesState
  body p s := do
    let v ← want (vintageOf s p.ctx p.vintage) .badState 1
    match batchError v racked (batchClients p) with
    | some (i, st, d) => failWith { status := st, detail := d, r3 := i }
    | none =>
      let fresh := dedup ((batchClients p).filter (fun u => !retracted (standingOf v u)))
      let s1 := fresh.foldl (fun s u => retractClient s p.ctx p.vintage u) s
      .ok (s1, okWith fresh.length ((batchClients p).length - fresh.length))

/-- LEES_RETRACT. -/
def execLeesRetract (p : Packet) (s : State) : Host.Outcome State Fault Refusal := runCmd cmdLeesRetract p s

/-! ### The unmask base (R185, R211) -/

/-- The placed count and digest of a client in the target recorded at a sealed rollback (R235). -/
def targetOf (c : Cask) (u : Nat) : Option (Nat × Sparse) :=
  c.target.map (fun t => ((tallyOf t.1 u).placed, clientDigest t.2.1 u))

/-- Every survivor's tally is again what it was before the sealed rollback, and every partial: the replay of a partial is
refused after the seal, so one that the rollback undid leaves the Vintage short of READY (R159, R160, R185). -/
def caskRestored (v : Vintage) (c : Cask) : Bool :=
  match c.target with
  | none => true
  | some t => c.partials == t.2.2 && v.survivors.all (fun u =>
      targetOf c u == some ((tallyOf c.tallies u).placed, clientDigest c.digests u))

/-- A seal checkpoint cannot yet be the unmask base of a Cask. -/
def baseBlocked (s : State) (v : Vintage) (c : Cask) : Bool :=
  !v.survivorsFixed || !(pendingRemovals s v).isEmpty || !caskRestored v c

/-- Once nothing is left to place, every accumulate Cask without its unmask base takes a checkpoint (R185,
R211). -/
def rebase (s : State) (g vid : Nat) : State :=
  match vintageOf s g vid with
  | none => s
  | some v =>
    if ¬ (v.state = .sealedV ∨ v.state = .unmasking) then s
    else (accumulateCasks s g vid).foldl (fun s c =>
      if c.baseReady ∨ baseBlocked s v c ∨ ¬ c.dueCuts.isEmpty ∨ c.inProgress.isSome then s
      else setCask s g c.id (fun c => { c with dueCuts := [(0, contextWord s g, true)] })) s

/-! ### CASK_ADJUST (R233 to R238) -/

/-- What a row of R235 requires of the staging vector: the digest it must have, and the tally and digest
afterwards; `done` when nothing remains to adjust. -/
structure Adjustment where
  digest : Sparse
  placed : Nat
  after : Sparse
  done : Bool

/-- D_f of a vector read from the difference of two digests, key by key. -/
def digestMinus (c : Cask) (a b : Sparse) : Sparse :=
  (dedup ((a ++ b).map Prod.fst)).foldl (fun m k =>
    Sparse.set m k (subMod (caskModulus c (k % 64)) (Sparse.get a k) (Sparse.get b k))) []

/-- The row of R235 that admits a sign, Vintage state and client. -/
def adjustRow (v : Vintage) (c : Cask) (add : Bool) (u : Nat) : Option Adjustment :=
  let mine := clientDigest c.digests u
  let placed := (tallyOf c.tallies u).placed
  let remove : Adjustment := { digest := mine, placed := 0, after := [], done := placed == 0 && mine.isEmpty }
  let after := v.state == .sealedV || v.state == .unmasking
  if ¬ add then
    if v.state = .opened then (if standingOf v u = .retracting then some remove else none)
    else if after && !v.survivors.contains u then some remove
    else none
  else if after && v.survivors.contains u then
    match targetOf c u with
    | some t => some { digest := digestMinus c t.2 mine, placed := t.1, after := t.2, done := placed == t.1 && mine == t.2 }
    | none => none
  else none

/-- The restoration of a client is complete in every accumulate Cask. -/
def restoreComplete (s : State) (g vid u : Nat) : Bool :=
  (accumulateCasks s g vid).all (fun c => c.target.isNone ||
    targetOf c u == some ((tallyOf c.tallies u).placed, clientDigest c.digests u))

/-- Pass 2: the vector is added or subtracted in every coordinate, with its fingerprints; tally and digest
take the values of the row. A survivor's contribution is whole again, so its expected count is its placed count
(DEDUCED, log 42). -/
def applyAdjust (v : Vintage) (add : Bool) (u stamp : Nat) (values : List Nat) (row : Adjustment) (c : Cask) : Cask :=
  let c1 := placeValues v.printDraw (!add) none c 0 values
  let digests := (row.after ++ c1.digests.filter (fun x => x.1 / 256 != u))
  let c2 := { c1 with
    tallies := setTally c1.tallies (if add then { tallyOf c1.tallies u with placed := row.placed, expected := row.placed }
      else { tallyOf c1.tallies u with placed := row.placed, conflict := false })
    digests := sortBy Prod.fst digests }
  if add then c2 else { c2 with removedAt := Sparse.set c2.removedAt u (stamp + 1) }

def cmdCaskAdjust : Cmd where
  op := 0x0122
  names p _ := [.vintage p.ctx p.vintage, .cask p.ctx (p.u16 0), .cask p.ctx (p.u16 2)]
  access p s := need (caskInRange s p.ctx (p.u16 0) && caskInRange s p.ctx (p.u16 2)) .accessViolation
  form p s := formError p (p.len = 16) true
    [(4, p.u8 4 ≤ 1), (5, p.num 5 3 == 0),
     (8, p.u32 8 < 2 ^ 22 && ((vintageOf s p.ctx p.vintage).map (fun v => decide (p.u32 8 < v.clients))).getD true),
     (12, p.u32 12 == 0)]
  state p s := do
    let v ← want (vintageOf s p.ctx p.vintage) .badState 1
    let c ← want ((caskOf s p.ctx (p.u16 0)).filter (fun c => c.role == 0 && c.vintage == p.vintage)) .badState 1
    let st ← want (caskOf s p.ctx (p.u16 2)) .badState 2
    need (!c.withheld && !st.withheld) .integrityFault
    need (st.role != 0 && st.ring == c.ring && st.limbs == c.limbs && st.n == c.n) .badState 2
    let row ← want (adjustRow v c (p.u8 4 == 1) (p.u32 8)) .badState 3
    need (!row.done) .badState 4
  body p s := do
    let v ← want (vintageOf s p.ctx p.vintage) .badState 1
    let c ← want (caskOf s p.ctx (p.u16 0)) .badState 1
    let st ← want (caskOf s p.ctx (p.u16 2)) .badState 2
    let add := p.u8 4 == 1
    let u := p.u32 8
    let row ← want (adjustRow v c add u) .badState 3
    let values := (List.range (caskCount st)).map (coord st)
    need (vectorDigest v.printDraw c u values == row.digest) .digestMismatch
    let s1 := setCask s p.ctx c.id (applyAdjust v add u p.stamp.count values row)
    let complete := if add then restoreComplete s1 p.ctx v.id u else removalComplete s1 p.ctx v.id u
    let s2 := if ¬ add ∧ complete ∧ standingOf v u = .retracting then
        setVintage s1 p.ctx v.id (fun v => setStanding v u .retracted)
      else s1
    .ok (rebase s2 p.ctx v.id, okWith (caskCount c) (b2n complete))

/-- CASK_ADJUST. -/
def execCaskAdjust (p : Packet) (s : State) : Host.Outcome State Fault Refusal := runCmd cmdCaskAdjust p s

end Sys2Proof.Machine
end

