-- ==== Sys2Proof/Machine/Checkpoints.lean ====
section
/-! DEFINITION. Phase events that have fallen due, checkpoints, rollbacks and READY:
contribution close (its row stands in Turn.lean), SHARE_CLOSE_DUE, CHECKPOINT_DUE, KEY_ROTATION_DUE, CHECKPOINT_CUT, CHECKPOINT_COPY_DONE,
CHECKPOINT_VERIFY_DONE, ROLLBACK_RESTORE_DONE and VINTAGE_READY (R17, R64, R65, R99 to R102, R180 to R185, R213,
R252, R420). A row whose event is not due, or not yet first, has no effect. -/

set_option autoImplicit false

namespace Sys2Proof.Machine

/-! ### Events in their order (R49, R65) -/

/-- The first due event of an ACTIVE Glove, while the Cellarmaster runs and the Glove's events have room; none while an event comes
before it whose Vintage a serialized VINTAGE_OPEN has still to open (R49, R65, R77, R330). -/
def firstDue (s : State) (g : Nat) : Option DueEvent :=
  if s.cm.state = .running ∧ (gloveOf s g).state = .active ∧ ¬ eventsStalled s g then
    (gloveOf s g).phase.due.head?.filter (fun e => !(openingEvents s g).any (fun o => dueBefore o e))
  else none

/-- The first due event is of a kind and for a Vintage. -/
def dueFor (s : State) (g : Nat) (kind : EvKind) (vintage : Nat) : Option DueEvent :=
  (firstDue s g).filter (fun e => e.kind == kind && e.vintage == vintage)

def dropDue (s : State) (g : Nat) : State :=
  setGlove s g (fun x => { x with phase := { x.phase with due := x.phase.due.drop 1 } })

/-! ### READY (R104, R106, R213, R252) -/

/-- The headers an accumulate Cask takes as its Vintage becomes READY (R252). B_fresh stands in the binding's
headers since LAT_BIND; log2 of the survivors is rounded up to 1/256. -/
def readyHeaders (s : State) (v : Vintage) (x : Glove) (c : Cask) : Cask :=
  let n := survivorCount v
  let head (h : Nat × CtHeader) : CtHeader := { h.2 with
    state := 1, engineSum := true, cohort := n, noise := h.2.noise + clog2 (n ^ 256), vintage := v.id
    epoch := s.fw.epoch, serial := x.serial + h.1 }
  { c with binding := c.binding.map (fun b =>
      { b with headers := (List.zip (List.range b.headers.length) b.headers).map head }) }

/-- A PRESS tile of the Vintage is unresolved and waits to be re-issued (R450). -/
def pressWaits (s : State) (v : Vintage) : Bool :=
  s.int.waiting.any (fun w =>
    match w with
    | .press g vid _ => g == v.glove && vid == v.id
    | _ => false)

/-- Everything READY waits for: its Glove is ACTIVE (R330). An ENCRYPTED Vintage has no unmasking work: it waits for its removals alone
(R252); a MASKED one for every secret final and applied in every stripe of every Cask, with no restore left (R213). -/
def readyNow (s : State) (v : Vintage) : Bool :=
  let casks := accumulateCasks s v.glove v.id
  (gloveOf s v.glove).state == .active && v.state == .unmasking && v.survivorsFixed && !v.belowCohort && !v.shortShares && !v.shardMismatch &&
  (pendingRemovals s v).isEmpty && casks.all (fun c => c.rollback.isNone && caskRestored v c) &&
  (v.encrypted || (v.ledgerClosed && pendingSecrets s v == 0 && !pressWaits s v && casks.all (fun c => c.baseReady && c.redo.isEmpty)))

/-- Enter READY: the event, and the headers of an ENCRYPTED Vintage's sums. -/
def enterReady (s : State) (v : Vintage) : State :=
  let s1 := setVintage s v.glove v.id (fun v => { v with state := .ready })
  let s2 := (accumulateCasks s1 v.glove v.id).foldl (fun s c =>
    let n := boundCiphertexts c
    setGlove (setCask s v.glove c.id (readyHeaders s v (gloveOf s v.glove))) v.glove (fun x => { x with serial := x.serial + n })) s1
  vintageEvent s2 { v with state := .ready } 0x0115 .ok 0 0 (survivorCount v) (contextWord s2 v.glove) 0 0

def tryReady (s : State) (g vid : Nat) : State :=
  match vintageOf s g vid with
  | some v => if readyNow s v then enterReady s v else s
  | none => s

/-- VINTAGE_READY. -/
def execVintageReady (glove vintage : Nat) (s : State) : Host.Outcome State Fault Refusal :=
  .next (unlessStalled s (tryReady s glove vintage))

/-! ### Contribution close, share close, checkpoints and rotation -/

/-- Contribution close acts, once it is the first due event: the Vintage seals under its SEAL_POLICY, after every
packet stamped at or below C that is parked or in progress (R17, R63). -/
def takeClose (s : State) (g vid : Nat) : State :=
  match dueFor s g .contributionClose vid, vintageOf s g vid with
  | some e, some v =>
    if v.state ≠ .opened then dropDue s g
    else if closeWaits s g vid v.c then s
    else sealVintage (dropDue s g) g vid e.tick
  | some _, none => dropDue s g
  | none, _ => s

/-- SHARE_CLOSE_DUE: the Vintage enters UNMASKING and its ledger closes; an ENCRYPTED Vintage with no removal
pending enters READY in the same tick (R64, R104, R220, R252). -/
def execShareCloseDue (glove vintage : Nat) (s : State) : Host.Outcome State Fault Refusal :=
  match dueFor s glove .shareClose vintage, vintageOf s glove vintage with
  | some e, some v =>
    let s1 := dropDue s glove
    if v.state ≠ .sealedV then .next s1
    else
      let s2 := shareClose s1 glove vintage e.tick
      .next (if v.encrypted then tryReady s2 glove vintage else s2)
  | some _, none => .next (dropDue s glove)
  | none, _ => .next s

/-- CHECKPOINT_DUE: a cut falls due for every accumulate Cask of an OPEN Vintage (R64, R99). -/
def execCheckpointDue (glove vintage : Nat) (s : State) : Host.Outcome State Fault Refusal :=
  match dueFor s glove .checkpoint vintage with
  | none => .next s
  | some e =>
    let s1 := dropDue s glove
    let live := ((vintageOf s glove vintage).map (fun v => v.state == .opened)).getD false
    let cut : Nat × PhaseWord × Bool := (e.index, ⟨e.tick.src, e.phase⟩, false)
    .next (if live then (accumulateCasks s1 glove vintage).foldl (fun s c =>
        setCask s glove c.id (fun c => { c with dueCuts := c.dueCuts ++ [cut] })) s1
      else s1)

/-- KEY_ROTATION_DUE: the key generation rises by one (R420). -/
def execKeyRotationDue (glove : Nat) (s : State) : Host.Outcome State Fault Refusal :=
  match dueFor s glove .keyRotation 0 with
  | none => .next s
  | some _ =>
    .next (setGlove (dropDue s glove) glove (fun x => { x with generation := (x.generation + 1) % 2 ^ 32 }))

/-! ### Checkpoints -/

/-- CHECKPOINT_CUT. -/
def execCheckpointCut (glove cask : Nat) (s : State) : Host.Outcome State Fault Refusal := .next (takeCut s glove cask)

/-- An image in which some coordinates were copied wrongly: index and the value found there. -/
def spoilImage (c : Cask) (errors : List (Nat × Nat)) (image : Mem) : Mem :=
  (errors.foldl (fun k e => if e.1 < caskCount c then setCoord k e.1 (e.2 % caskModulus c (limbOf c e.1)) else k)
    { c with data := image }).data

/-- CHECKPOINT_COPY_DONE: the copy ends; `errors` are the coordinates that a hardware fault left wrong in it. -/
def execCheckpointCopyDone (glove cask : Nat) (errors : List (Nat × Nat)) (s : State) : Host.Outcome State Fault Refusal :=
  .next (setCask s glove cask (fun c =>
    match c.inProgress with
    | some cp => if cp.copied then c
        else { c with inProgress := some { cp with copied := true, image := spoilImage c errors cp.image } }
    | none => c))

/-- CHECKPOINT_VERIFY_DONE: the image read back is fingerprinted as the snapshot was laid out. All four match in
every stripe and limb: the checkpoint is verified. Otherwise the Cask starts rolling back (R101, R180, R181). R185 speaks
of the seal checkpoint alone: a failure of one that fell due before the seal is taken as not SEALED, even after the seal
(DESIGN CHOICE, notes/assumptions/155.md). -/
def execCheckpointVerifyDone (glove cask : Nat) (s : State) : Host.Outcome State Fault Refusal :=
  match caskOf s glove cask with
  | none => .next s
  | some c =>
    match c.inProgress, vintageOf s glove c.vintage with
    | some cp, some v =>
      if ¬ cp.copied ∨ (gloveOf s glove).state ≠ .active then .next s
      else
        let found := imagePrints v.printDraw { c with vats := cp.vats } cp.image
        let diff := printDiff found cp.prints
        if diff = 0 then
          let s1 := acceptCheckpoint s v c cp (baseBlocked s v c)
          .next (unlessStalled s (rebase (runCorrections s1 glove v.id) glove v.id))
        else .next (unlessStalled s (startRollback s glove cask diff cp.vats cp.sealCp))
    | _, _ => .next s

/-- Adds accepted before t0 that are not yet complete: the restore ends after them (R181). -/
def restoreWaits (s : State) (g cask : Nat) : Bool :=
  s.conns.any (addsInto g cask)

/-- ROLLBACK_RESTORE_DONE. -/
def execRollbackRestoreDone (glove cask : Nat) (s : State) : Host.Outcome State Fault Refusal :=
  match caskOf s glove cask with
  | none => .next s
  | some c =>
    if c.rollback.isNone ∨ restoreWaits s glove cask ∨ (gloveOf s glove).state ≠ .active then .next s
    else .next (unlessStalled s (rebase (finishRollback s glove cask) glove c.vintage))

end Sys2Proof.Machine
end

