-- ==== Sys2Proof/Machine/Gauss.lean ====
section
/-! DEFINITION. Privacy noise: the sampler of R307 over the bits of a pool, and the size of a pool (R306 to R308). -/

set_option autoImplicit false

namespace Sys2Proof.Machine

/-! ### Thresholds. A σ has 16 fractional bits; exponentials are held in units of 2^-256. -/

/-- e^y for y below 1: the terms of the series up to the 48th. -/
def expSeries (y : Nat) : Nat :=
  ((List.range 48).foldl (fun (acc : Nat × Nat) n =>
    let term := acc.2 * y / 2 ^ 256 / (n + 1)
    (acc.1 + term, term)) (2 ^ 256, 2 ^ 256)).1

/-- e^(-num / den), for arguments below 1,024: the argument is divided by 1,024 and the result squared ten times. -/
def expNeg (num den : Nat) : Nat :=
  (List.range 10).foldl (fun x _ => x * x / 2 ^ 256) (2 ^ 512 / expSeries (num * 2 ^ 246 / max 1 den))

/-- ⌈log2 σ⌉. -/
def sigmaLog (sigma : Nat) : Nat := clog2 sigma - 16

/-- k of R307. -/
def noiseShift (sigma : Nat) : Nat := sigmaLog sigma - 6

/-- The number J of buckets. -/
def bucketCount (sigma : Nat) : Nat := ceilDiv (14 * sigma) (2 ^ 16 * 2 ^ noiseShift sigma)

/-- ρ of the difference of two squares: ρ(x) / ρ(y) for x ≥ y. -/
def rhoRatio (sigma x y : Nat) : Nat := expNeg ((x ^ 2 - y ^ 2) * 2 ^ 32) (2 * sigma ^ 2)

/-- Upper ends of the buckets in units of 2^-128, in proportion to their weights (truncated: DESIGN CHOICE,
notes/assumptions/139.md). -/
def bucketEnds (sigma : Nat) : List Nat :=
  let weights := (List.range (bucketCount sigma)).map (fun j => rhoRatio sigma (j * 2 ^ noiseShift sigma) 0)
  let total := max 1 (sumOf id weights)
  (weights.foldl (fun (acc : List Nat × Nat) w => (acc.1 ++ [2 ^ 128 * (acc.2 + w) / total], acc.2 + w)) ([], 0)).1

/-! ### The sampler (R307) -/

/-- Bit i of a pool, of the draw that filled it (DESIGN CHOICE, notes/assumptions/139.md: bits are taken from the least
significant bit of byte 0 on). -/
def poolBit (draw i : Nat) : Bool := (entropyByte draw (i / 8)).toNat.testBit (i % 8)

/-- `n` bits from a position, the first taken the most significant. -/
def poolNumber (draw pos n : Nat) : Nat := (List.range n).foldl (fun x i => 2 * x + b2n (poolBit draw (pos + i))) 0

/-- The bucket that a threshold falls into. -/
def bucketOf (ends : List Nat) (v : Nat) : Nat := (posOf (fun e => decide (v < e)) ends).getD (ends.length - 1)

/-- lazy_invert: `taken` bits have given `x`; another is taken until the bucket is decided. Answers it and the bits taken. -/
def lazyInvert (ends : List Nat) (draw pos : Nat) : Nat → Nat → Nat → Nat × Nat
  | 0, taken, x => (bucketOf ends x, taken)
  | fuel + 1, taken, x =>
    let unit := 2 ^ (128 - taken)
    let low := bucketOf ends (x * unit)
    if low = bucketOf ends ((x + 1) * unit - 1) then (low, taken)
    else lazyInvert ends draw pos fuel (taken + 1) (2 * x + b2n (poolBit draw (pos + taken)))

/-- lazy_less against a threshold in units of 2^-128: bits are taken until one differs. Answers whether the pool is less, and
the bits taken; a threshold of 1 takes none. -/
def lazyLess (a draw pos : Nat) : Nat → Nat → Bool × Nat
  | 0, taken => (false, taken)
  | fuel + 1, taken =>
    if 2 ^ 128 ≤ a then (true, taken)
    else
      let mine := poolBit draw (pos + taken)
      let theirs := a.testBit (127 - taken)
      if mine = theirs then lazyLess a draw pos fuel (taken + 1) else (theirs, taken + 1)

/-- One sample from a position of the pool, and the position after it; `fuel` bounds the rounds. -/
def sampleNoise (sigma : Nat) (ends : List Nat) (draw : Nat) : Nat → Nat → Int × Nat
  | 0, pos => (0, pos)
  | fuel + 1, pos =>
    let k := noiseShift sigma
    let j := lazyInvert ends draw pos 128 0 0
    let pos1 := pos + j.2
    let m := j.1 * 2 ^ k + poolNumber draw pos1 k
    let minus := poolBit draw (pos1 + k)
    let pos2 := pos1 + k + 1
    if m = 0 ∧ minus then sampleNoise sigma ends draw fuel pos2
    else
      let less := lazyLess (rhoRatio sigma m (j.1 * 2 ^ k) / 2 ^ 128) draw pos2 128 0
      if less.1 then (if minus then -(m : Int) else m, pos2 + less.2)
      else sampleNoise sigma ends draw fuel (pos2 + less.2)

/-- Rounds after which the model gives up a sample: every round ends it with probability above 1/4. -/
def sampleRounds : Nat := 4096

/-- The samples of n coordinates, in coordinate order, and the bits they take from the pool (R308). -/
def noiseSamples (sigma draw n : Nat) : List Int × Nat :=
  let ends := bucketEnds sigma
  (List.range n).foldl (fun (acc : List Int × Nat) _ =>
    let x := sampleNoise sigma ends draw sampleRounds acc.2
    (acc.1 ++ [x.1], x.2)) ([], 0)

/-- Bits drawn for the pool of n samples: max(n, 4096) × D, and blocks of 4096 × D where that runs short (R308). -/
def poolBits (sigma draw n : Nat) : Nat :=
  let d := sigmaLog sigma + 19
  let first := max n 4096 * d
  first + ceilDiv ((noiseSamples sigma draw n).2 - first) (4096 * d) * (4096 * d)

end Sys2Proof.Machine
end

