-- ==== Sys2Proof/Machine/Float.lean ====
section
/-! DEFINITION. IEEE 754 binary32 as recipes use it (R316): every operation is computed exactly over rationals
and rounded once, to nearest, ties to even. Values are their 32-bit codes. -/

set_option autoImplicit false

namespace Sys2Proof.Machine.Fp

/-- A decoded value: m * 2^e with a sign, an infinity, or a NaN. -/
inductive Val where
  | nan
  | inf (neg : Bool)
  | fin (neg : Bool) (m : Nat) (e : Int)
deriving DecidableEq, Repr

/-- Every NaN produced (R316). -/
def nanBits : Nat := 0x7FC00000

def infBits (neg : Bool) : Nat := 0x7F800000 + 2 ^ 31 * b2n neg

/-- The value of a code. -/
def decode (b : Nat) : Val :=
  let neg := b.testBit 31
  let ex := bitsAt b 23 8
  let fr := b % 2 ^ 23
  if ex = 255 then (if fr = 0 then .inf neg else .nan)
  else if ex = 0 then .fin neg fr (-149)
  else .fin neg (fr + 2 ^ 23) ((ex : Int) - 150)

/-- Quotient rounded to nearest, ties to even. -/
def divRound (a b : Nat) : Nat :=
  let q := a / b
  let r := a % b
  if 2 * r < b then q else if 2 * r = b then q + q % 2 else q + 1

/-- num/den * 2^k. -/
def scaled (num den : Nat) (k : Int) : Nat × Nat := if 0 ≤ k then (num * 2 ^ k.toNat, den) else (num, den * 2 ^ (-k).toNat)

/-- Largest k with 2^k at or below num/den, both above 0. -/
def floorLog (num den : Nat) : Int :=
  let k : Int := (Nat.log2 num : Int) - Nat.log2 den
  let p := scaled num den (-k)
  if p.2 ≤ p.1 then k else k - 1

/-- A rational rounded to a format of `prec` significand bits whose least exponent is `low`: the magnitude's
code. The code of k * 2^q with k below 2^prec is k + (q - low) * 2^(prec-1), subnormals and carries included. -/
def roundCode (prec : Nat) (low : Int) (num den : Nat) : Nat :=
  if num = 0 then 0
  else
    let q := max (floorLog num den - (prec - 1 : Nat)) low
    let p := scaled num den (-q)
    divRound p.1 p.2 + (q - low).toNat * 2 ^ (prec - 1)

/-- A signed rational rounded to binary32. -/
def round (neg : Bool) (num den : Nat) : Nat := min 0x7F800000 (roundCode 24 (-149) num den) + 2 ^ 31 * b2n neg

/-- m * 2^e rounded. -/
def roundDyadic (neg : Bool) (m : Nat) (e : Int) : Nat := let p := scaled m 1 e; round neg p.1 p.2

/-- The sum of two signed dyadic numbers, rounded; an exact zero is +0 unless both are -0. -/
def addDyadic (n1 : Bool) (m1 : Nat) (e1 : Int) (n2 : Bool) (m2 : Nat) (e2 : Int) : Nat :=
  let e := min e1 e2
  let part (n : Bool) (m : Nat) (k : Int) : Int := let v : Int := m * 2 ^ (k - e).toNat; if n then -v else v
  let t := part n1 m1 e1 + part n2 m2 e2
  if t = 0 then (if n1 && n2 then 2 ^ 31 else 0) else roundDyadic (decide (t < 0)) t.natAbs e

def neg (a : Nat) : Nat := a ^^^ 2 ^ 31

/-- Fused multiply-add: a * b + c rounded once. -/
def fma (a b c : Nat) : Nat :=
  match decode a, decode b, decode c with
  | .nan, _, _ => nanBits
  | _, .nan, _ => nanBits
  | _, _, .nan => nanBits
  | .inf na, .inf nb, z => addInf (na != nb) z
  | .inf na, .fin nb m _, z => if m = 0 then nanBits else addInf (na != nb) z
  | .fin na m _, .inf nb, z => if m = 0 then nanBits else addInf (na != nb) z
  | .fin _ _ _, .fin _ _ _, .inf n => infBits n
  | .fin na ma ea, .fin nb mb eb, .fin nc mc ec => addDyadic (na != nb) (ma * mb) (ea + eb) nc mc ec
where
  /-- an infinite product plus a value -/
  addInf (n : Bool) (z : Val) : Nat :=
    match z with
    | .inf k => if k = n then infBits n else nanBits
    | _ => infBits n

def mul (a b : Nat) : Nat :=
  match decode a, decode b with
  | .nan, _ => nanBits
  | _, .nan => nanBits
  | .inf na, .inf nb => infBits (na != nb)
  | .inf na, .fin nb m _ => if m = 0 then nanBits else infBits (na != nb)
  | .fin na m _, .inf nb => if m = 0 then nanBits else infBits (na != nb)
  | .fin na ma ea, .fin nb mb eb => roundDyadic (na != nb) (ma * mb) (ea + eb)

def one : Nat := 0x3F800000

def add (a b : Nat) : Nat := fma one a b

def sub (a b : Nat) : Nat := if decode b = .nan then nanBits else add a (neg b)

def div (a b : Nat) : Nat :=
  match decode a, decode b with
  | .nan, _ => nanBits
  | _, .nan => nanBits
  | .inf _, .inf _ => nanBits
  | .inf na, .fin nb _ _ => infBits (na != nb)
  | .fin na _ _, .inf nb => 2 ^ 31 * b2n (na != nb)
  | .fin na ma ea, .fin nb mb eb =>
    if mb = 0 then (if ma = 0 then nanBits else infBits (na != nb))
    else let p := scaled ma mb (ea - eb); round (na != nb) p.1 p.2

/-- Square root: the integer root of a wide enough multiple, with a half for a remainder, rounds as the exact
root does. -/
def sqrt (a : Nat) : Nat :=
  match decode a with
  | .nan => nanBits
  | .inf n => if n then nanBits else infBits false
  | .fin n m e =>
    if m = 0 then a
    else if n then nanBits
    else
      let odd := e % 2
      let v := m * 2 ^ odd.toNat * 2 ^ 64
      let r := Crypto.rootFloor 2 v 64 0
      roundDyadic false (if r * r = v then 2 * r else 2 * r + 1) ((e - odd) / 2 - 33)

/-- An integer times a binary32 value, rounded (DEQUANT). -/
def mulInt (v : Int) (f : Nat) : Nat :=
  match decode f with
  | .nan => nanBits
  | .inf n => if v = 0 then nanBits else infBits (n != decide (v < 0))
  | .fin n m e => roundDyadic (n != decide (v < 0)) (v.natAbs * m) e

/-- A natural number as binary32. -/
def ofNat (v : Nat) : Nat := round false v 1

/-- RN(a / n) for a natural number n above 0, taken exactly (SCALE by the cohort). -/
def divNat (a n : Nat) : Nat :=
  match decode a with
  | .nan => nanBits
  | .inf k => infBits k
  | .fin k m e => if n = 0 then div a 0 else let p := scaled m n e; round k p.1 p.2

/-- a ≤ b; false where either is a NaN. -/
def le (a b : Nat) : Bool :=
  match decode a, decode b with
  | .nan, _ => false
  | _, .nan => false
  | .inf n, .inf k => n || !k
  | .inf n, .fin _ _ _ => n
  | .fin _ _ _, .inf k => !k
  | .fin na ma ea, .fin nb mb eb =>
    let e := min ea eb
    let part (n : Bool) (m : Nat) (x : Int) : Int := let v : Int := m * 2 ^ (x - e).toNat; if n then -v else v
    decide (part na ma ea ≤ part nb mb eb)

def isNan (a : Nat) : Bool := decode a == .nan
def isFinite (a : Nat) : Bool := bitsAt a 23 8 != 255

/-- Rounded to 8 significand bits: the BF16 code (QUANTIZE). -/
def toBf16 (a : Nat) : Nat :=
  match decode a with
  | .nan => 0x7FC0
  | .inf n => 0x7F80 + 2 ^ 15 * b2n n
  | .fin n m e => let p := scaled m 1 e; min 0x7F80 (roundCode 8 (-133) p.1 p.2) + 2 ^ 15 * b2n n

/-- The exact product u * f rounded to an integer and saturated to the signed range of `bits` (QUANTIZE). -/
def toInt (bits u f : Nat) : Int :=
  let top : Int := 2 ^ (bits - 1) - 1
  let low : Int := -(2 ^ (bits - 1))
  let ofSign (n : Bool) : Int := if n then low else top
  match decode u, decode f with
  | .nan, _ => 0
  | _, .nan => 0
  | .inf na, .inf nb => ofSign (na != nb)
  | .inf na, .fin nb m _ => if m = 0 then 0 else ofSign (na != nb)
  | .fin na m _, .inf nb => if m = 0 then 0 else ofSign (na != nb)
  | .fin na ma ea, .fin nb mb eb =>
    let p := scaled (ma * mb) 1 (ea + eb)
    let v : Int := divRound p.1 p.2
    max low (min top (if na != nb then -v else v))

/-- b^t by square-and-multiply over the bits of t from the most significant, rounding every product (R315). -/
def pow (b t : Nat) : Nat :=
  (List.range (Nat.log2 t + 1)).reverse.foldl (fun acc i =>
    let sq := mul acc acc
    if t.testBit i then mul sq b else sq) one

end Sys2Proof.Machine.Fp
end

