-- ==== Sys2Proof/Machine/Recipes.lean ====
section
/-! DEFINITION. Recipes: their steps and checks (R314, R315, R318), the arithmetic of a step over whole Casks
(R315 to R317), RECIPE_LOAD and RECIPE_FREE. Steps run coordinate by coordinate, so running each over a whole
Cask gives what the tiles of R318 give. -/

set_option autoImplicit false

namespace Sys2Proof.Machine

/-! ### Steps (R314) -/

def stOp (st : List Byte) : Nat := field st 0 1
def stFlags (st : List Byte) : Nat := field st 1 1
def stDst (st : List Byte) : Nat := field st 2 2
def stA (st : List Byte) : Nat := field st 4 2
def stB (st : List Byte) : Nat := field st 6 2
def stC (st : List Byte) : Nat := field st 8 2
def stF (st : List Byte) (i : Nat) : Nat := field st (12 + 4 * i) 4

def isTemp (r : Nat) : Bool := 0xFE00 ≤ r && r ≤ 0xFE03
def isAccRef (r : Nat) : Bool := 0xFF00 ≤ r && r ≤ 0xFFFE
def isCaskRef (r : Nat) : Bool := r < 0xFE00
def isRef (r : Nat) : Bool := isTemp r || isAccRef r || isCaskRef r

/-- What a step reads and writes: sources, then the references written. -/
def stReads (st : List Byte) : List Nat :=
  match stOp st with
  | 3 => [stA st, stB st]
  | 5 => [stA st, stDst st, stB st]
  | 6 => [stA st, stDst st, stB st, stC st]
  | _ => [stA st]

def stWrites (st : List Byte) : List Nat :=
  match stOp st with
  | 5 => [stDst st, stB st]
  | 6 => [stDst st, stB st, stC st]
  | 8 => []
  | _ => [stDst st]

/-- A binary32 code in [0, 1). -/
def unitInterval (f : Nat) : Bool := f < Fp.one || f == 2 ^ 31

/-- A code whose value is above 0. -/
def positive (f : Nat) : Bool := f != 0 && f < 2 ^ 31

/-- Fields of a step on its own, with their offsets. The model, moments and destinations of optimizer steps
are Casks (R315), which only a release resolves where they are accumulate Casks; every immediate is finite. -/
def stepFields (st : List Byte) : List (Nat × Bool) :=
  let op := stOp st
  let dst := stDst st
  let a := stA st
  [(0, 1 ≤ op && op ≤ 8), (1, stFlags st == 0 || (stFlags st == 1 && op == 2) || (stFlags st == 2 && op == 6)),
   (2, if op = 8 then dst == 0xFFFF else if op = 5 ∨ op = 6 ∨ op = 7 then isCaskRef dst || isAccRef dst else isRef dst),
   (4, if op = 8 then isCaskRef a else if op = 4 then isCaskRef a || isAccRef a else isRef a),
   (6, if op = 3 then isRef (stB st) else if op = 5 ∨ op = 6 then isCaskRef (stB st) || isAccRef (stB st) else stB st == 0xFFFF),
   (8, if op = 6 then isCaskRef (stC st) || isAccRef (stC st) else stC st == 0xFFFF), (10, field st 10 2 == 0),
   (12, Fp.isFinite (stF st 0) && (op != 4 || positive (stF st 0))),
   (16, Fp.isFinite (stF st 1) && (!(op == 5 || op == 6) || unitInterval (stF st 1))),
   (20, Fp.isFinite (stF st 2) && (op != 6 || unitInterval (stF st 2))),
   (24, Fp.isFinite (stF st 3) && (op != 6 || positive (stF st 3))), (28, field st 28 4 == 0)]

/-- The steps so far: references written, temporaries written in this pass, EXPORT steps. -/
structure StepScan where
  written : List Nat := []
  temps : List Nat := []
  exports : Nat := 0
deriving DecidableEq, Repr

/-- A pass ends before a CLIP_NORM whose A an earlier step writes (R318). -/
def scanPass (c : StepScan) (st : List Byte) : StepScan :=
  if stOp st = 4 ∧ c.written.contains (stA st) then { c with temps := [] } else c

def scanStep (c : StepScan) (st : List Byte) : StepScan :=
  let c1 := scanPass c st
  { written := c1.written ++ stWrites st, temps := c1.temps ++ (stWrites st).filter isTemp
    exports := c1.exports + b2n (stOp st == 8) }

/-- Offset within a step of its first field in error, given the steps before it. -/
def stepError (c : StepScan) (st : List Byte) : Option Nat :=
  let c1 := scanPass c st
  let unwritten (r : Nat) : Bool := isTemp r && !c1.temps.contains r
  let order : List (Nat × Bool) := [(0, !(stOp st == 8 && c1.exports == 2)), (4, !unwritten (stA st)),
    (6, !(stOp st == 3 && unwritten (stB st)))]
  (sortBy id (((stepFields st ++ order).filter (fun f => !f.2)).map Prod.fst)).head?

/-- Packet offset of the first field in error of a list of steps. -/
def stepsError : Nat → StepScan → List (List Byte) → Option Nat
  | _, _, [] => none
  | i, c, st :: rest =>
    match stepError c st with
    | some o => some (72 + 32 * i + o)
    | none => stepsError (i + 1) (scanStep c st) rest

/-! ### RECIPE_LOAD and RECIPE_FREE -/

def cmdRecipeLoad : Cmd where
  op := 0x0502
  names p _ := [.recipe p.ctx (p.u16 0)]
  form p _ := formError p (8 ≤ p.len && p.len == 8 + 32 * p.u16 2) false
    [(0, p.u16 0 ≤ 63), (2, 1 ≤ p.u16 2 && p.u16 2 ≤ 125), (4, p.u32 4 == 0)]
  state p s := need (!(gloveOf s p.ctx).recipes.any (fun r => r.id == p.u16 0)) .badState
  body p s :=
    let bytes := p.params.drop 8
    let steps := pieces 32 bytes
    match stepsError 0 {} steps with
    | some o => fail .badParam o
    | none =>
      if steps.any (fun st => (stReads st ++ stWrites st).any (fun r => isCaskRef r && !caskInRange s p.ctx r)) then
        fail .accessViolation
      else
        let r : Recipe := { id := p.u16 0, steps := steps, digest := Crypto.sha256 bytes }
        .ok (setGlove s p.ctx (fun x => { x with recipes := x.recipes ++ [r] }), okBytes r.digest)

/-- RECIPE_LOAD. -/
def execRecipeLoad (p : Packet) (s : State) : Host.Outcome State Fault Refusal := runCmd cmdRecipeLoad p s

def cmdRecipeFree : Cmd where
  op := 0x0503
  names p _ := [.recipe p.ctx (p.u16 0)]
  form p _ := formError p (p.len = 8) false [(0, p.u16 0 ≤ 63), (2, p.num 2 6 == 0)]
  state p s := do
    need ((gloveOf s p.ctx).recipes.any (fun r => r.id == p.u16 0)) .badState 1
    need (!s.vintages.any (fun v => v.glove == p.ctx && !terminalState v.state && v.recipe == p.u16 0)) .badState 2
  body p s := .ok (setGlove s p.ctx (fun x => { x with recipes := x.recipes.filter (fun r => r.id != p.u16 0) }), okWith)

/-- RECIPE_FREE. -/
def execRecipeFree (p : Packet) (s : State) : Host.Outcome State Fault Refusal := runCmd cmdRecipeFree p s

/-! ### References at a release -/

/-- The Cask a reference names in a release: by ID, or the i-th accumulate Cask in ascending ID. -/
def refCask (s : State) (g vid r : Nat) : Option Cask :=
  if isAccRef r then (sortBy (fun c => c.id) (accumulateCasks s g vid))[r - 0xFF00]?
  else if isCaskRef r then (caskOf s g r).filter (fun c => c.role != 0) else none

/-- A reference suits its place: a temporary, or a Cask of an allowed ring. -/
def refOk (s : State) (g vid r : Nat) (temps : Bool) (ring : Nat → Bool) (oneLimb : Bool) : Bool :=
  (isTemp r && temps) ||
  ((refCask s g vid r).map (fun c => ring c.ring && (!oneLimb || c.limbs == 1))).getD false

/-- No Cask that a step names is withheld (R468). -/
def stepServes (s : State) (g vid : Nat) (st : List Byte) : Bool :=
  ((stReads st ++ stWrites st).filterMap (refCask s g vid)).all (fun c => !c.withheld)

/-- Every Cask of a step exists with the ring, limbs and role the step needs, and all have one n (ST_BAD_STATE
detail 3). Model state and moments are FP32 or BF16 (R312, R315; DEDUCED, notes/assumptions/141.md). -/
def stepFits (s : State) (g vid : Nat) (st : List Byte) : Bool :=
  let fp (r : Nat) (temps : Bool) : Bool := refOk s g vid r temps (· == 4) false
  let model (r : Nat) : Bool := refOk s g vid r false (fun x => x == 4 || x == 5) false
  let kinds := match stOp st with
    | 1 => fp (stDst st) true && refOk s g vid (stA st) false (· ≤ 3) true
    | 2 => fp (stDst st) true && fp (stA st) true
    | 3 => fp (stDst st) true && fp (stA st) true && fp (stB st) true
    | 4 => fp (stDst st) true && fp (stA st) false
    | 5 => model (stDst st) && fp (stA st) true && model (stB st)
    | 6 => model (stDst st) && fp (stA st) true && model (stB st) && model (stC st)
    | 7 => refOk s g vid (stDst st) false (fun r => r ≤ 2 || r == 5) false && fp (stA st) true
    | _ => refOk s g vid (stA st) false (fun _ => true) false
  let ns := ((stReads st ++ stWrites st).filterMap (refCask s g vid)).map (fun c => c.n)
  kinds && ns.all (· == ns.headD 0)

/-! ### The arithmetic of a step (R315 to R317) -/

/-- The temporaries T0 to T3, as far as they have been written. -/
abbrev Temps := List (Nat × List Nat)

/-- The coordinates a reference holds, as binary32 where it is a BF16 Cask. -/
def readRef (s : State) (g vid : Nat) (t : Temps) (r : Nat) : List Nat :=
  if isTemp r then ((t.find? (fun x => x.1 == r)).map Prod.snd).getD []
  else ((refCask s g vid r).map (fun c => (List.range c.n).map (fun i => if c.ring = 5 then coord c i * 2 ^ 16 else coord c i))).getD []

/-- The coordinates of a source, as long as `n`: a temporary that is shorter holds free values beyond its end. -/
def readLong (s : State) (g vid : Nat) (t : Temps) (n r : Nat) : List Nat :=
  let l := readRef s g vid t r
  (l ++ (List.range (n - l.length)).map (fun i => Config.staleTemp r (l.length + i) % 2 ^ 32)).take n

/-- Store coordinates under a reference: binary32 values, rounded to BF16 in a BF16 Cask. -/
def writeRef (s : State) (g vid : Nat) (t : Temps) (r : Nat) (vals : List Nat) : State × Temps :=
  if isTemp r then (s, t.filter (fun x => x.1 != r) ++ [(r, vals)])
  else match refCask s g vid r with
    | some c =>
      let held := if c.ring = 5 then vals.map Fp.toBf16 else vals
      let data := Memory.writeN c.data 0 (held.flatMap (toLE (coordBytes c.ring)))
      (setCask s g c.id (fun c => { c with data := data }), t)
    | none => (s, t)

/-- Coordinates a step covers: the n of its Casks, or the length of A where it names none. -/
def stepLength (s : State) (g vid : Nat) (t : Temps) (st : List Byte) : Nat :=
  match ((stReads st ++ stWrites st).filterMap (refCask s g vid)) with
  | c :: _ => c.n
  | [] => (readRef s g vid t (stA st)).length

/-- The signed value of a stored coordinate (DEQUANT). -/
def signedCoord (c : Cask) (v : Nat) : Int :=
  if c.ring < 3 then signed (8 * coordBytes c.ring) v
  else let q := caskModulus c 0; if (q - 1) / 2 < v then (v : Int) - q else v

/-- One level of the reduction of R317. -/
def reducePairs : List Nat → List Nat
  | a :: b :: rest => Fp.add a b :: reducePairs rest
  | l => l

/-- The norm of a vector in the order of R317; `fuel` is at least the number of levels. -/
def normOf : Nat → List Nat → Nat
  | 0, l => Fp.sqrt (l.headD 0)
  | n + 1, l => if l.length ≤ 1 then Fp.sqrt (l.headD 0) else normOf n (reducePairs l)

/-- m̂ or v̂ of ADAM_STEP (R315). -/
def unbias (bias : Bool) (beta t m : Nat) : Nat :=
  if bias then Fp.div m (Fp.sub Fp.one (Fp.pow beta t)) else m

/-- One ADAM_STEP coordinate: new w, m and v. -/
def adamCoord (st : List Byte) (t u w m v : Nat) : Nat × Nat × Nat :=
  let bias := stFlags st == 2
  let b1 := Fp.sub Fp.one (stF st 1)
  let b2 := Fp.sub Fp.one (stF st 2)
  let m' := Fp.fma (stF st 1) m (Fp.mul b1 u)
  let v' := Fp.fma (stF st 2) v (Fp.mul b2 (Fp.mul u u))
  let step := Fp.div (unbias bias (stF st 1) t m') (Fp.add (Fp.sqrt (unbias bias (stF st 2) t v')) (stF st 3))
  (Fp.fma (stF st 0) step w, m', v')

/-- Run one step for S survivors. -/
def runStep (g vid survivors : Nat) (acc : State × Temps) (st : List Byte) : State × Temps :=
  let (s, t) := acc
  let n := stepLength s g vid t st
  let u := readLong s g vid t n (stA st)
  let put (acc : State × Temps) (r : Nat) (l : List Nat) := writeRef acc.1 g vid acc.2 r l
  let f0 := stF st 0
  match stOp st with
  | 1 => match refCask s g vid (stA st) with
    | some c => put acc (stDst st) (u.map (fun x => Fp.mulInt (signedCoord c x) f0))
    | none => acc
  | 2 =>
    let c := if stFlags st = 1 then Fp.divNat f0 survivors else f0
    put acc (stDst st) (u.map (Fp.mul c))
  | 3 => put acc (stDst st) (List.zipWith (Fp.fma f0) u (readLong s g vid t n (stB st)))
  | 4 =>
    let r := normOf 64 (u.map (fun x => Fp.mul x x))
    put acc (stDst st) (if Fp.isNan r || Fp.le r f0 then u else u.map (Fp.mul (Fp.div f0 r)))
  | 5 =>
    let m := List.zipWith (Fp.fma (stF st 1)) (readLong s g vid t n (stB st)) u
    let w := List.zipWith (Fp.fma f0) m (readLong s g vid t n (stDst st))
    put (put acc (stB st) m) (stDst st) w
  | 6 =>
    let steps := ((refCask s g vid (stDst st)).map (fun c => c.steps)).getD 0 + 1
    let w := readLong s g vid t n (stDst st)
    let m := readLong s g vid t n (stB st)
    let v := readLong s g vid t n (stC st)
    let rows := (List.range n).map (fun i => adamCoord st steps (u.getD i 0) (w.getD i 0) (m.getD i 0) (v.getD i 0))
    let a1 := put (put (put acc (stB st) (rows.map (fun x => x.2.1))) (stC st) (rows.map (fun x => x.2.2))) (stDst st)
      (rows.map (fun x => x.1))
    (setCask a1.1 g (stDst st) (fun c => { c with steps := steps }), a1.2)
  | 7 => match refCask s g vid (stDst st) with
    | some c =>
      let one (x : Nat) : Nat := if c.ring = 5 then x
        else unsigned (8 * coordBytes c.ring) (Fp.toInt (8 * coordBytes c.ring) x f0)
      put acc (stDst st) (u.map one)
    | none => acc
  | _ => acc

/-- The Casks a recipe's steps export (R320). -/
def exportRefs (r : Recipe) : List Nat := (r.steps.filter (fun st => stOp st == 8)).map stA

/-- The Casks, by ID, that a recipe reads or writes, and those it writes. -/
def recipeCasks (r : Recipe) : List Nat := (r.steps.flatMap (fun st => stReads st ++ stWrites st)).filter isCaskRef
def recipeWrites (r : Recipe) : List Nat := (r.steps.flatMap stWrites).filter isCaskRef

end Sys2Proof.Machine
end

