-- ==== Sys2Proof/Machine/Release.lean ====
section
/-! DEFINITION. The release of a Vintage: VINTAGE_RELEASE and the rows RELEASE_COMMIT and RELEASE_COMPLETE
(R18, R300 to R312, R320 to R322). -/

set_option autoImplicit false

namespace Sys2Proof.Machine

def recipeOf (s : State) (g id : Nat) : Option Recipe := (gloveOf s g).recipes.find? (fun r => r.id == id)

/-! ### Checks -/

/-- Vintages of a Glove whose release is in progress, other than one. -/
def releasing (s : State) (g vid : Nat) : List Vintage :=
  s.vintages.filter (fun v => v.glove == g && v.release.isSome && v.id != vid)

/-- Casks by ID that a Vintage's recipe writes; that its release writes, and that it reads or writes: its recipe's, and the
output of an ENCRYPTED release with the accumulate Casks. -/
def recipeWritten (s : State) (v : Vintage) : List Nat := ((recipeOf s v.glove v.recipe).map recipeWrites).getD []
def releaseWrites (s : State) (v : Vintage) (output : Nat) : List Nat :=
  recipeWritten s v ++ (if v.encrypted then [output] else [])
def releaseTouches (s : State) (v : Vintage) (output : Nat) : List Nat :=
  ((recipeOf s v.glove v.recipe).map recipeCasks).getD [] ++ (if v.encrypted then [output] else []) ++
    (accumulateCasks s v.glove v.id).map (fun c => c.id)

/-- R304: another release in progress reads or writes a Cask that the new recipe writes. -/
def releaseClash (s : State) (v : Vintage) : Bool :=
  (releasing s v.glove v.id).any (fun w =>
    (releaseTouches s w ((w.release.map (fun r => r.output)).getD 0xFFFF)).any (recipeWritten s v).contains)

/-- R312 and R320: a Cask the recipe writes is mapped for WRITE or ATOMIC, or frozen. -/
def writesBarred (s : State) (v : Vintage) : Bool :=
  (recipeWritten s v).any (fun c =>
    windowMaps s v.glove c (fun w => w.rights.testBit rightWrite || w.rights.testBit rightAtomic) || caskFrozen s v.glove c)

/-- Ciphertexts of a Vintage's accumulate Casks in ascending Cask ID: Cask, index, header. -/
def sumCiphertexts (s : State) (g vid : Nat) : List (Cask × Nat × CtHeader) :=
  (sortBy (fun c => c.id) (accumulateCasks s g vid)).flatMap (fun c =>
    let hs := (c.binding.map (fun b => b.headers)).getD []
    (List.zip (List.range hs.length) hs).map (fun x => (c, x.1, x.2)))

/-- The output Cask of R321: a bound state Cask with the key set, level, form and count of the sum. -/
def outputFits (s : State) (v : Vintage) (output : Nat) : Bool :=
  match caskOf s v.glove output with
  | none => false
  | some c =>
    let total := sumCiphertexts s v.glove v.id
    c.role == 1 && ((c.binding.map (fun b => b.keySet == v.keySet && b.headers.length == total.length &&
      total.all (fun x => (x.1.binding.map (fun y => y.level == b.level && y.ntt == b.ntt)).getD false))).getD false)

/-- The bound of an output with encrypted noise: B ⊕ B_fresh (R322). -/
def outputNoise (v : Vintage) (set : ParamSet) (h : CtHeader) : Nat :=
  if v.noise then oplus h.noise (noiseFresh set) else h.noise

/-! ### Noise (R305 to R308, R322) -/

/-- Samples of one ciphertext's plaintext: N, or N/2 for CKKS (R322). -/
def noiseSlots (set : ParamSet) : Nat := if set.construction = 1 then 2 ^ set.log2N / 2 else 2 ^ set.log2N

/-- Noise bits that a release draws, whose pools have the draw numbers from `draw` on. -/
def noiseBits (s : State) (v : Vintage) (draw : Nat) : Nat :=
  if ¬ v.noise then 0
  else if v.encrypted then
    let n := ((setOfKeys s v.glove v.keySet).map noiseSlots).getD 0
    sumOf (fun i => poolBits v.sigma (draw + i) n) (List.range (sumCiphertexts s v.glove v.id).length)
  else
    let casks := sortBy (fun c => c.id) (accumulateCasks s v.glove v.id)
    sumOf (fun x => poolBits v.sigma (draw + x.1) x.2.n) (List.zip (List.range casks.length) casks)

/-- Blocks of encryption randomness that an ENCRYPTED release with noise draws at the lattice rank (R322, R388). -/
def encryptionBlocks (s : State) (v : Vintage) : Nat :=
  if v.noise && v.encrypted then
    ((setOfKeys s v.glove v.keySet).map (fun p => Config.encryptBlocks (2 ^ p.log2N) (sumCiphertexts s v.glove v.id).length)).getD 0
  else 0

/-- The noise-add tiles of a release in their order: the Cask's place in ascending Cask ID, its ID, and the tile of 4,096
coordinates. An ENCRYPTED release adds its noise in stage 4 (R300, R305, R310, R322). -/
def noisePieces (s : State) (v : Vintage) : List (Nat × Nat × Nat) :=
  if v.noise && !v.encrypted then
    let casks := sortBy (fun c => c.id) (accumulateCasks s v.glove v.id)
    (List.zip (List.range casks.length) casks).flatMap (fun x =>
      (List.range (ceilDiv x.2.n 4096)).map (fun t => (x.1, x.2.id, t)))
  else []

/-- Stage 3 on one tile of a Cask (R305). -/
def addNoise (sigma draw tile : Nat) (c : Cask) : Cask :=
  (((List.zip (List.range c.n) (noiseSamples sigma draw c.n).1).drop (4096 * tile)).take 4096).foldl (fun c' x =>
    let m := caskModulus c 0
    setCoord c' x.1 (((coord c' x.1 : Int) + x.2) % (m : Int)).toNat) c

/-! ### VINTAGE_RELEASE -/

/-- Keys for the export windows: the lowest free indices. -/
def exportKeys (s : State) (g : Nat) : Nat → List Nat → Option (List Nat)
  | 0, _ => some []
  | n + 1, casks =>
    match freeIndex s g with
    | none => none
    | some i =>
      let w : Window := { index := i, gen := generationOf s i, owner := g, target := 0, rights := 1, anyConn := true, length := 0 }
      (exportKeys { s with windows := s.windows ++ [w] } g n casks).map (fun l => windowKey i (generationOf s i) :: l)

/-- Checks of a release of the Vintage itself (R18, R108); not made again once its draw has been served. -/
def releaseState (p : Packet) (s : State) : Check := do
  let v ← want (vintageOf s p.ctx p.vintage) .badState 1
  need (v.state == .sealedV || v.state == .unmasking || v.state == .ready) .badState 1
  need (!v.belowCohort) .belowCohort
  need (v.state == .ready) .badState 1
  need (v.e ≤ p.stamp.count) .badState 2
  need (!v.encrypted || v.recipe == 0xFFFF) .badState 4
  let steps := ((recipeOf s p.ctx v.recipe).map (fun r => r.steps)).getD []
  need (v.encrypted || steps.all (stepServes s p.ctx v.id)) .badState 1
  need (v.encrypted || steps.all (stepFits s p.ctx v.id)) .badState 3
  need (v.release.isNone) .busyRetry 2
  need (v.encrypted || !writesBarred s v) .badState 5
  need (!(v.encrypted && ((caskOf s p.ctx (p.u16 0)).map (fun c => c.withheld)).getD false)) .integrityFault
  need (!v.encrypted || outputFits s v (p.u16 0)) .badState 6
  need (!(v.encrypted && v.noise) || ((keySetOf s p.ctx v.keySet).map (fun k => hasKey k 0 0)).getD false) .badState 7
  need (!releaseClash s v) .busyRetry 2
  if v.noise then entropyReady s else .ok ()

/-- The start of stage 1: the release is recorded, its blocks are taken as far as they have been released, and it
waits for the rest, the noise at rank 2 before the encryption randomness at rank 3, or for its commit (R388). -/
def startRelease (p : Packet) (s : State) (v : Vintage) (keys : List Nat) : State × Done :=
  let bits := noiseBits s v (entropyDraw s)
  let r : Release := { stage := 1, output := p.u16 0, phase := p.stamp, noiseBits := bits, draw := entropyDraw s, keys := keys }
  let pools := s.casks.length + (sumCiphertexts s p.ctx v.id).length
  let s1 := setVintage { s with free := s.free + 1 + pools } p.ctx v.id (fun v => { v with release := some r })
  let noise := ceilDiv bits 256
  let blocks := noise + encryptionBlocks s v
  let got := min blocks (queuedBlocks s p.ctx)
  let s2 := takeBlocks s1 p.ctx got
  if got < noise then (s2, .waits (.entropy 2 (noise - got)))
  else if got < blocks then (s2, .waits (.entropy 3 (blocks - got)))
  else (s2, .waits (.release p.ctx v.id))

def cmdVintageRelease : Cmd where
  op := 0x0501
  rank := 2
  names p _ := [.vintage p.ctx p.vintage] ++ (if p.u16 0 = 0xFFFF then [] else [.cask p.ctx (p.u16 0)])
  access p s := need (p.len != 8 || p.u16 0 == 0xFFFF || caskInRange s p.ctx (p.u16 0)) .accessViolation
  form p s :=
    let masked := ((vintageOf s p.ctx p.vintage).map (fun v => !v.encrypted)).getD false
    formError p (p.len = 8) true [(0, !masked || p.u16 0 == 0xFFFF), (2, p.num 2 6 == 0)]
  state p s := if p.drawn then .ok () else releaseState p s
  later p s := ((vintageOf s p.ctx p.vintage).map (encryptionBlocks s)).getD 0
  body p s := do
    let v ← want (vintageOf s p.ctx p.vintage) .badState 1
    if p.drawn then .ok (s, .waits (.release p.ctx v.id))
    else do
      let refs := ((recipeOf s p.ctx v.recipe).map exportRefs).getD []
      let keys ← want (exportKeys s p.ctx refs.length refs) .noResource
      let set := (setOfKeys s p.ctx v.keySet).getD default
      match (if v.encrypted && v.noise then sumCiphertexts s p.ctx v.id else []).find? (fun x =>
          !fitsBudget set x.1.limbs x.2.2.scale (outputNoise v set x.2.2)) with
      | some x => noiseSpent 1 (outputNoise v set x.2.2) (budgetOf set x.1.limbs x.2.2.scale)
      | none => .ok (startRelease p s v keys)

/-- VINTAGE_RELEASE. -/
def execVintageRelease (p : Packet) (s : State) : Host.Outcome State Fault Refusal := runCmd cmdVintageRelease p s

/-! ### RELEASE_COMMIT (stage 2) -/

/-- The command that releases a Vintage and awaits its reply. -/
def releaseWaiting (s : State) (g vid : Nat) : Option Outstanding :=
  s.outstanding.find? (fun o => o.wait == .release g vid)

/-- RELEASE_COMMIT: the noise is drawn, the Vintage enters RELEASED, and the command is past its commit point. Stage 3
follows, whose tiles are rows of TASTE_ARBITRATION; with none, stage 4 (R300, R310). -/
def execReleaseCommit (glove vintage : Nat) (s : State) : Host.Outcome State Fault Refusal :=
  match vintageOf s glove vintage, releaseWaiting s glove vintage with
  | some v, some _ =>
    match v.release with
    | some r =>
      if r.stage = 1 ∧ v.state = .ready ∧ (gloveOf s glove).state = .active then
        let s1 := setVintage s glove vintage (fun v => { v with state := .released, release := some { r with stage := if (noisePieces s v).isEmpty then 4 else 3, journal := [] } })
        let commit (o : Outstanding) : Outstanding := { o with committed := true }
        .next { s1 with outstanding := mapIf (fun o => o.wait == .release glove vintage) commit s1.outstanding }
      else .next s
    | none => .next s
  | _, _ => .next s

/-! ### RELEASE_COMPLETE (stages 4 and 5) -/

/-- Stage 4 of a MASKED release. -/
def releaseMasked (s : State) (v : Vintage) : State :=
  let steps := ((recipeOf s v.glove v.recipe).map (fun q => q.steps)).getD []
  (steps.foldl (runStep v.glove v.id (survivorCount v)) (s, [])).1

/-- One limb of an output of stage 4: the source's residues, and with noise the sum with an encryption of its samples, whose
randomness is free (R321, R322). -/
def outputPoly (v : Vintage) (set : ParamSet) (draw : Nat) (c : Cask) (limb k i : Nat) : List Nat :=
  let size := ctSize set
  let source := polyOf c size limb k
  if v.noise then
    let slots := (noiseSamples v.sigma (draw + i) (noiseSlots set)).1
    (List.zip (List.range size) source).map (fun x =>
      addMod (max 1 (c.moduli.getD limb 1)) x.2 (Config.encryptionResidue slots draw ((limb * 65536 + i) * 262144 + x.1)))
  else source

/-- Stage 4 of an ENCRYPTED release: the sum is copied, with its encrypted noise where there is any (R321,
R322). -/
def releaseEncrypted (s : State) (v : Vintage) (r : Release) : State :=
  let set := (setOfKeys s v.glove v.keySet).getD default
  let size := ctSize set
  let all := sumCiphertexts s v.glove v.id
  let serial := (gloveOf s v.glove).serial
  let put (out : Cask) (x : Nat × Cask × Nat × CtHeader) : Cask :=
    let (i, c, k, h) := x
    let o1 := (List.range out.limbs).foldl (fun o l =>
      putPoly o size l i (outputPoly v set r.draw c l k i)) out
    putHeader o1 i { h with
      state := 1, noise := noiseField (outputNoise v set h), epoch := s.fw.epoch, serial := serial + i }
  let rows := (List.zip (List.range all.length) all)
  setGlove (setCask s v.glove r.output (fun c => rows.foldl put c)) v.glove (fun x => { x with serial := x.serial + all.length })

/-- Stage 5: the export windows. -/
def createExports (s : State) (v : Vintage) (r : Release) : State :=
  let refs := ((recipeOf s v.glove v.recipe).map exportRefs).getD []
  (List.zip r.keys refs).foldl (fun s x =>
    let len := ((caskOf s v.glove x.2).map caskBytes).getD 0
    let w : Window := {
      index := x.1 / 256, gen := x.1 % 256, owner := v.glove, target := 0, rights := 1, anyConn := true, object := x.2
      length := len, eventQ := (eventQueueOf s v.glove).getD 65536, vintage := v.id }
    { s with windows := s.windows ++ [w] }) s

/-- The RELEASED event (R320). -/
def releasedEvent (s : State) (v : Vintage) (r : Release) : State :=
  postEvent s v.glove (toLE 2 0x0510 ++ toLE 2 0 ++ toLE 4 v.id ++ toLE 4 (r.keys.getD 0 0xFFFFFFFF) ++
    toLE 4 (r.keys.getD 1 0xFFFFFFFF) ++ phaseBytes r.phase ++ toLE 4 (survivorCount v) ++ zeros 4)

/-- A tile of the release is unresolved and waits to be re-issued: the release waits in its stage (R310, R450). -/
def releaseHeld (s : State) (g vid : Nat) : Bool :=
  s.int.waiting.any (fun w =>
    match w with
    | .release h _ x _ => h == g && x == vid
    | _ => false)

/-- RELEASE_COMPLETE: recipe or copy, export windows, the event and the reply, once the noise has been added. The tiles of
stage 4 run here, each once; the release has completed from then on (R301, R302; DESIGN CHOICE, notes/assumptions/140.md). -/
def execReleaseComplete (glove vintage : Nat) (s : State) : Host.Outcome State Fault Refusal :=
  match vintageOf s glove vintage, releaseWaiting s glove vintage with
  | some v, some o =>
    match v.release with
    | some r =>
      if r.stage = 4 ∧ ¬ releaseHeld s glove vintage then
        let s1 := if v.encrypted then releaseEncrypted s v r else releaseMasked s v
        let s2 := createExports s1 v r
        let s3 := setVintage s2 glove vintage (fun v => { v with release := none, exports := r.keys, completed := true })
        let s4 := releasedEvent s3 v r
        .next (unlessStalled s (reply s4 o.pkt {
          status := .ok, r0 := survivorCount v, r1 := ceilDiv r.noiseBits (2 ^ 20)
          r2 := r.keys.getD 0 0xFFFFFFFF, r3 := r.keys.getD 1 0xFFFFFFFF }))
      else .next s
    | none => .next s
  | _, _ => .next s

end Sys2Proof.Machine
end

