-- ==== Sys2Proof/Machine/Integrity.lean ====
section
/-! DEFINITION. Integrity: Tasting and its arbitration (R446 to R451), the states of the Vats, scan and probation
(R452 to R465), the unit history as it is read out (R459, R466) and the commands 0x0B01 to 0x0B04. -/

set_option autoImplicit false

namespace Sys2Proof.Machine

/-! ### Vats that leave service (R453, R454) -/

/-- A Vat that must leave service and still waits for it. -/
def mustLeave (v : Vat) : Bool := !v.out && (v.state == .suspect || v.state == .retired || v.state == .testing)

def waitingVats (s : State) : List Nat := (List.range 8).filter (fun v => mustLeave (vatOf s v))

/-- ACTIVE becomes SUSPECT; a Vat in another state stays (R452). -/
def suspectVat (s : State) (glove v : Nat) : State :=
  if (vatOf s v).state = .active then changeVat s v glove .suspect else s

/-- The scan of the lowest suspect out of service starts, unless one is running or the pattern store fails its check
(R454, R462). -/
def startScan (s : State) : State :=
  if (List.range 8).any (fun v => (vatOf s v).state == .testing) then s
  else match (List.range 8).find? (fun v => (vatOf s v).state == .suspect && (vatOf s v).out) with
    | none => s
    | some v =>
      let (d, s1) := drawFree s
      let ok := Config.storeVerifies d
      let s2 := { s1 with int := { s1.int with storeOk := ok } }
      if ok then changeVat (setVat s2 v (fun x => { x with scheduled := true })) v 0xFF .testing else s2

/-- Gloves striped on a Vat, or whose stripes on it are carried (INT_QUERY). -/
def stripedOn (s : State) (vat : Nat) : List Nat :=
  (List.range 16).filter (fun g =>
    let x := gloveOf s g
    x.vatList.contains vat || (x.carried && s.int.carrying == some vat))

/-- The steps of R455, and the restripes that may begin at once. What the Vat's spill stripe cache held is written back. -/
def leaveService (s : State) (vat : Nat) : State :=
  let live := (List.range 16).filter (fun g => liveGlove s g && (gloveOf s g).vatList.contains vat)
  let moved := s.casks.filter (fun c => live.contains c.glove && !c.spilled && c.vats.contains vat)
  let s1 := setVat s vat (fun v => { v with out := true })
  let s2 := { s1 with
    int := { s1.int with carrying := some vat, verifying := s1.int.verifying ++ moved.map (fun c => (c.glove, c.id)) }
    gloves := s1.gloves.map (fun x => { x with vatList := x.vatList.filter (· != vat) })
    spill := setAt s1.spill vat (fun _ => []) }
  let s3 := live.foldl (fun s g => setGlove s g (fun x => { x with restripe := true, carried := true })) s2
  startScan (restripeIdle s3)

/-- VAT_LEAVE_SERVICE: one Vat at a time, the lowest first (R454). -/
def execVatLeaveService (vat : Nat) (s : State) : Host.Outcome State Fault Refusal :=
  .next (if s.int.carrying = none ∧ (waitingVats s).head? = some vat then leaveService s vat else s)

/-- MOVE work of a Glove. -/
def moveOf (glove : Nat) : TastedWork → Bool
  | .move g _ => g == glove
  | _ => false

/-- RESTRIPE_DONE. A MOVE tile that waits to be re-issued holds the restripe, and the MOVE work of the Glove has ended with
it (R450, R457). -/
def execRestripeDone (glove : Nat) (s : State) : Host.Outcome State Fault Refusal :=
  if (gloveOf s glove).restriping ∧ ¬ s.int.waiting.any (moveOf glove) then
    let s1 := settleVats (restripeGlove s glove)
    .next { s1 with int := { s1.int with reissued := s1.int.reissued.filter (fun w => !moveOf glove w) } }
  else .next s

/-- A correction has been applied in some accumulate Cask of the Vintage (R212). -/
def correctionsBegun (v : Vintage) : Bool := v.secrets.any (fun x => x.applied.isSome)

/-- The Cask with a carried stripe as it was copied: coordinates of the stripe that the copy left wrong. -/
def copiedCask (c : Cask) (stripe : Nat) (errors : List (Nat × Nat)) : Cask :=
  { c with data := spoilImage c (errors.filter (fun e => stripeOf c e.1 == stripe)) c.data }

/-- The four fingerprints of the copied stripe differ from the live ones. -/
def stripeDiffers (v : Vintage) (copy : Cask) (stripe : Nat) : Bool :=
  (printDiff (imagePrints v.printDraw copy copy.data) copy.prints).testBit stripe

/-- The row of R455's table for a Cask whose carried stripe, the one with index i, has been copied: once corrections have
begun the stripe is rebuilt from the unmask base whatever was copied; any other Cask takes the copy, and rolls back, or is
withheld, where its copy fails. -/
def copyChecked (s : State) (c : Cask) (i : Nat) (errors : List (Nat × Nat)) (eccGood : Bool) : State :=
  let copy := copiedCask c i errors
  let taken := setCask s c.glove c.id (fun _ => copy)
  match vintageOf s c.glove c.vintage with
  | some v =>
    if c.role = 0 ∧ correctionsBegun v then redoStripes s c.glove c.id [i]
    else if c.role = 0 ∧ (v.state = .opened ∨ v.state = .sealedV) then
      if eccGood ∧ ¬ stripeDiffers v copy i then taken
      else startRollback taken c.glove c.id (2 ^ i) c.vats (v.state == .sealedV)
    else if eccGood then taken
    else withholdCask s c.glove c.id
  | none => if eccGood then taken else withholdCask s c.glove c.id

/-- CARRY_VERIFY_DONE: `errors` are coordinates that the copy left wrong, and `eccGood` the verdict of the slice's ECC. -/
def execCarryVerifyDone (glove cask : Nat) (copy : StripeCopy) (s : State) : Host.Outcome State Fault Refusal :=
  if s.int.verifying.contains (glove, cask) then
    let s1 := { s with int := { s.int with verifying := s.int.verifying.filter (· != (glove, cask)) } }
    match caskOf s1 glove cask with
    | none => .next s1
    | some c =>
      match posOf (fun v => some v == s.int.carrying) c.vats with
      | some i => .next (unlessStalled s (copyChecked s1 c i copy.errors copy.eccGood))
      | none => .next s1
  else .next s

/-- The works that waited for a scan are re-issued: a PRESS work restores its stripes and runs their corrections again, a
release and a restripe go on (R212, R450). -/
def reissueWaiting (s : State) : State :=
  let press (s : State) (w : TastedWork) : State :=
    match w with
    | .press g _ cask => redoStripes s g cask (((caskOf s g cask).map (fun c => c.redo)).getD [])
    | _ => s
  s.int.waiting.foldl press { s with int := { s.int with waiting := [] } }

/-- A suspect is still to be scanned, or its scan runs. -/
def scanAwaited (s : State) : Bool :=
  (List.range 8).any (fun v => (vatOf s v).state == .suspect || ((vatOf s v).state == .testing && (vatOf s v).scheduled))

/-- Works that wait for a scan when none is scheduled any more, because every suspect was retired, are re-issued at once
(R450; DESIGN CHOICE, notes/assumptions/162.md). -/
def settleWaiting (s : State) : State := if scanAwaited s then s else reissueWaiting s

/-- A scan of a Vat has ended, and its verdict. -/
def scanEnded (s : State) (vat : Nat) (pass : Bool) (misr : Nat) : State :=
  let s1 := addRecord s { kind := 4, unit := vat, outcome := b2n !pass, syndrome := misr }
  let s2 := setVat s1 vat (fun v => { v with scheduled := false })
  if pass then changeVat (setVat s2 vat (fun v => { v with shadows := 0 })) vat 0xFF .probation else retireVat s2 vat 0xFF

/-- SCAN_DONE (R452, R460, R462). The works that waited for a scheduled scan are re-issued (R450). -/
def execScanDone (vat : Nat) (pass : Bool) (misr : Nat) (s : State) : Host.Outcome State Fault Refusal :=
  if (vatOf s vat).state = .testing ∧ (vatOf s vat).out then
    let s1 := scanEnded s vat pass misr
    .next (startScan (if (vatOf s vat).scheduled then reissueWaiting s1 else s1))
  else .next s

/-- PROBATION_COMPLETE: after 10^9 matching shadows (R464, R465). -/
def execProbationComplete (vat : Nat) (s : State) : Host.Outcome State Fault Refusal :=
  if (vatOf s vat).state = .probation ∧ Config.probationTiles ≤ (vatOf s vat).shadows then
    let s1 := changeVat (setVat s vat (fun v => { v with shadows := 0, out := false })) vat 0xFF .joining
    let s2 := ((List.range 16).filter (liveGlove s1)).foldl (fun s g => setGlove s g (fun x => { x with restripe := true })) s1
    .next (restripeIdle s2)
  else .next s

/-! ### Arbitration (R447 to R451) -/

/-- Class of R446. -/
def workClass : TastedWork → Nat
  | .press _ _ _ => 1
  | .lattice _ k _ => k
  | .release _ k _ _ => k
  | .move _ _ => 7

/-- The classes that a kind of work has (R446). -/
def workFits : TastedWork → Bool
  | .press _ _ _ => true
  | .lattice _ k _ => 2 ≤ k && k ≤ 4
  | .release _ k _ _ => k == 5 || k == 6
  | .move _ _ => true

/-- A tile of a release belongs to the stage in progress and is not yet complete: the journal's tiles are skipped (R302). -/
def pieceFits (s : State) : TastedWork → Bool
  | .release g k vid piece =>
    match vintageOf s g vid with
    | some v => (v.release.map (fun r => !r.journal.contains piece &&
        ((r.stage == 3 && k == 6 && piece < (noisePieces s v).length) || (r.stage == 4 && k == 5)))).getD false
    | none => false
  | _ => true

/-- Work re-issued after an unresolved tile goes only to Vats that are not suspected (R450). -/
def reissueBarred (s : State) (work : TastedWork) (primary : Nat) : Bool :=
  s.int.reissued.contains work && !s.int.waiting.contains work && (vatOf s primary).state == .suspect

def tasteOf (s : State) (g k : Nat) : TasteClass :=
  ((gloveOf s g).tastes.find? (fun t => t.cls == k)).getD { cls := k, lfsr := Config.tasteSeed g s.fw.epoch k }

def setTaste (s : State) (g : Nat) (t : TasteClass) : State :=
  setGlove s g (fun x => { x with tastes := x.tastes.filter (fun y => y.cls != t.cls) ++ [t] })

def chaseOf (s : State) (g vat k : Nat) : Option Chase :=
  s.int.chases.find? (fun c => c.glove == g && c.vat == vat && c.cls == k)

/-- Every tile of the class that the Vat runs in the Glove is tasted (R212, R446, R451, R454). -/
def tastedAll (s : State) (g vat k : Nat) : Bool :=
  6 ≤ k || (tasteOf s g k).always || ((chaseOf s g vat k).map (fun c => c.left != 0)).getD false || mustLeave (vatOf s vat)

/-- The tile that Tasting selects next: the one of the present run of 2^TASTE tiles, or else that of the next run, for
which the LFSR advances (R447). -/
def nextSelected (run : Nat) (t : TasteClass) : Nat :=
  let here := t.tiles / run * run + t.lfsr.toNat % run
  if t.tiles ≤ here then here else (t.tiles / run + 1) * run + (Config.tasteNext t.lfsr).toNat % run

/-- A tile of a class, by the Glove's count over all Vats, is the next tasted one: the selected one, a tile before it that
a chased or leaving Vat runs, or, where every tile is tasted, the very next (R446, R447, R451, R454). -/
def tasteSelects (s : State) (g vat k tile : Nat) : Bool :=
  let t := tasteOf s g k
  let next := nextSelected (2 ^ (gloveOf s g).cfg.taste) t
  if 6 ≤ k || t.always then tile == t.tiles
  else tile == next || (tastedAll s g vat k && t.tiles ≤ tile && tile ≤ next)

/-- The counters of a tasted tile. The tiles of the Glove before it were untasted; the LFSR is that of the run of the next
tile (R447). -/
def countTaste (s : State) (g vat k tile : Nat) : State :=
  let t := tasteOf s g k
  let run := 2 ^ (gloveOf s g).cfg.taste
  let l := if tile / run = t.tiles / run then t.lfsr else Config.tasteNext t.lfsr
  let s1 := setTaste s g { t with
    tiles := tile + 1, tasted := t.tasted + 1, lfsr := if (tile + 1) / run = tile / run then l else Config.tasteNext l }
  let step (c : Chase) : Chase := { c with left := c.left - 1 }
  { s1 with int := { s1.int with
    tasted := (s1.int.tasted + 1) % 2 ^ 64
    chases := mapIf (fun c => c.glove == g && c.vat == vat && c.cls == k) step s1.int.chases } }

/-- The output of each run stands in the Tasting buffer of its Vat until it is decided (R80, R448). -/
def fillBuffers (s : State) (vats : List Nat) (results : List (List Nat)) : State :=
  (List.zip vats results).foldl (fun s x => setVat s x.1 (fun v => { v with buffer := x.2 })) s

/-- R451. -/
def startChase (s : State) (g vat k : Nat) : State :=
  let rest := s.int.chases.filter (fun c => !(c.glove == g && c.vat == vat && c.cls == k))
  { s with int := { s.int with chases := rest ++ [{ vat := vat, cls := k, glove := g, left := Config.chaseTiles }] } }

/-- CHASE_END. -/
def execChaseEnd (glove vat cls : Nat) (s : State) : Host.Outcome State Fault Refusal :=
  .next { s with int := { s.int with
    chases := s.int.chases.filter (fun c => !(c.glove == glove && c.vat == vat && c.cls == cls && c.left == 0)) } }

/-- Vats eligible for a further run, in ascending number from the one after the primary, wrapping. -/
def eligibleVats (s : State) (g primary : Nat) : List Nat :=
  let ok (v : Nat) : Bool := (gloveOf s g).vatList.contains v && !mustLeave (vatOf s v)
  ((List.range 7).map (fun i => (primary + 1 + i) % 8)).filter ok

/-- The Vats of runs 1 to 5, as far as there are Vats for them: the second is the (1 + c mod k)-th eligible one, and the
others follow it in turn. -/
def tasteRuns (primary tasted : Nat) (eligible : List Nat) : List Nat :=
  let i := tasted % max 1 eligible.length
  primary :: (eligible.drop i ++ eligible.take i).take 4

/-- What arbitration finds: the runs made, their Vats that become SUSPECT, and the agreed result, if there is one. -/
structure Verdict449 where
  runs : Nat
  suspects : List Nat
  agreed : Option (List Nat)

/-- R449 on the results of the runs that can be made, compared word by word. -/
def arbitrate (vats : List Nat) (results : List (List Nat)) : Verdict449 :=
  let r (i : Nat) : List Nat := results.getD i []
  let n := vats.length
  if n < 2 then ⟨1, [], some (r 0)⟩
  else if r 0 = r 1 then ⟨2, [], some (r 0)⟩
  else if n < 3 then ⟨2, vats.take 2, none⟩
  else if r 2 = r 0 ∨ r 2 = r 1 then ⟨3, [], some (r 2)⟩
  else if n < 5 then ⟨n, vats.take n, none⟩
  else ⟨5, vats.take 3, if r 3 = r 4 then some (r 3) else none⟩

/-- Bit i of the votes: run i gave the agreed result (R459). -/
def voteBits (runs : Nat) (results : List (List Nat)) (value : List Nat) : Nat :=
  sumOf (fun i => if results.getD i [] = value then 2 ^ i else 0) (List.range runs)

/-- The runs 1 to 3, by Vat and result, whose result was not the agreed one. -/
def wrongRuns (vats : List Nat) (results : List (List Nat)) (runs : Nat) (value : List Nat) : List (Nat × List Nat) :=
  (List.zip (vats.take (min runs 3)) (results ++ List.replicate 3 [])).filter (fun x => x.2 != value)

/-- The syndrome of a MISMATCH record: index of the first word that differs, and how many differ (R459). -/
def wordSyndrome (found value : List Nat) : Nat :=
  let differ := (List.range (max found.length value.length)).filter (fun i => found[i]? != value[i]?)
  differ.headD 0 % 2 ^ 32 + 2 ^ 32 * (differ.length % 2 ^ 32)

/-- The charges and chases of an agreed tile. -/
def chargeRuns (s : State) (g k tile : Nat) (vats : List Nat) (results : List (List Nat)) (runs : Nat) (value : List Nat) :
    State :=
  (wrongRuns vats results runs value).foldl (fun s x =>
    let s1 := chargeVat s x.1 k (voteBits runs results value) g (vats.take runs) (wordSyndrome x.2 value) tile
    let s2 := { s1 with int := { s1.int with arbitrated := satAdd 65535 s1.int.arbitrated 1 } }
    startChase s2 g x.1 k) s

/-- The shadow of a Vat on probation (R464). -/
def runShadow (g k tile : Nat) (value : List Nat) (s : State) (x : Nat × List Nat) : State :=
  if x.2 = value then setVat s x.1 (fun v => { v with shadows := v.shadows + 1 })
  else changeVat (chargeVat s x.1 k 0 g [x.1] (wordSyndrome x.2 value) tile) x.1 g .retired

/-- Every Cask that a release writes, to be withheld (R450). -/
def releaseLoss (s : State) (v : Vintage) : List Nat :=
  dedup (releaseWrites s v ((v.release.map (fun r => r.output)).getD 0xFFFF) ++
    (if v.noise && !v.encrypted then (accumulateCasks s v.glove v.id).map (fun c => c.id) else []))

/-- The stripe that a Vat holds of a Cask. -/
def stripeOn (s : State) (g cask vat : Nat) : List Nat :=
  ((caskOf s g cask).bind (fun c => posOf (· == vat) c.vats)).toList

/-- From now on every tile of the class is tasted in the Glove (R212). -/
def tasteAlways (s : State) (g k : Nat) : State := setTaste s g { tasteOf s g k with always := true }

/-- An arbitrated mismatch of a PRESS tile: the stripe of each Vat charged is restored from the unmask base and its
corrections run again, and the class is tasted at 1/1 from then on (R212). -/
def pressMismatch (s : State) (work : TastedWork) (wrong : List Nat) : State :=
  match work with
  | .press g _ cask =>
    if wrong.isEmpty then s
    else tasteAlways (redoStripes s g cask (wrong.flatMap (stripeOn s g cask))) g 1
  | _ => s

/-- A decided tile of a release is complete, and the release tile journal records it. A NOISE tile is applied only now that
two Vats agree on it; the last ends stage 3, and the journal is cleared for stage 4 (R302, R310). -/
def completePiece (s : State) : TastedWork → State
  | .release g k vid piece =>
    match vintageOf s g vid with
    | none => s
    | some v =>
      match v.release with
      | none => s
      | some r =>
        let s1 := match (noisePieces s v)[piece]? with
          | some x => if k = 6 then setCask s g x.2.1 (addNoise v.sigma (r.draw + x.1) x.2.2) else s
          | none => s
        let done := r.journal ++ [piece]
        let next : Release := if r.stage = 3 ∧ done.length = (noisePieces s v).length then { r with stage := 4, journal := [] }
          else { r with journal := done }
        setVintage s1 g vid (fun v => { v with release := some next })
  | _ => s

/-- The outcome of an unresolved tile (R450): its first, or the one of work that had been re-issued already. A PRESS
tile's stripe waits to be restored and run again. -/
def unresolvedOutcome (s : State) (again : Bool) (primary : Nat) : TastedWork → State
  | .press g vid cask =>
    if again then setVintage s g vid (fun v =>
      if v.state = .opened ∨ v.state = .sealedV ∨ v.state = .unmasking then { v with shortShares := true } else v)
    else tasteAlways (setCask s g cask (fun c => { c with redo := dedup (c.redo ++ stripeOn s g cask primary) })) g 1
  | .lattice g _ cask => { s with int := { s.int with faulted := s.int.faulted.filter (· != (g, cask)) ++ [(g, cask)] } }
  | .release g _ vid _ =>
    match vintageOf s g vid, releaseWaiting s g vid with
    | some v, some o =>
      if again then
        let s1 := (releaseLoss s v).foldl (fun s c => withholdCask s g c) s
        reply (setVintage s1 g vid (fun v => { v with release := none })) o.pkt { status := .integrityFault }
      else s
    | _, _ => s
  | .move g cask =>
    match again, caskOf s g cask with
    | true, some c =>
      if c.role = 0 ∧ ((vintageOf s g c.vintage).map (fun v => v.state)) = some .opened then
        startRollback s g cask (2 ^ c.vats.length - 1) c.vats false
      else withholdCask s g cask
    | _, _ => s

/-- Work that is re-issued after its first unresolved tile (R450). -/
def isReissued : TastedWork → Bool
  | .lattice _ _ _ => false
  | _ => true

/-- The record and the outcome of an unresolved tile. -/
def unresolvedTile (s : State) (work : TastedWork) (primary tile : Nat) (vats : List Nat) : State :=
  let (d, s1) := drawFree s
  let s2 := addRecord s1 { kind := 2, unit := primary, cls := workClass work, glove := workGlove work, vats := vats, syndrome := Config.unresolvedSyndrome d, tile := tile }
  let again := s2.int.reissued.contains work && !s2.int.waiting.contains work
  let s3 := { s2 with int := { s2.int with
    unresolved := satAdd 65535 s2.int.unresolved 1
    reissued := s2.int.reissued.filter (· != work) ++ (if isReissued work && !again then [work] else [])
    waiting := s2.int.waiting.filter (· != work) ++ (if isReissued work && !again then [work] else []) } }
  settleWaiting (unresolvedOutcome s3 again primary work)

/-- A row for a tile that Tasting selects: work of its class under way, run on a Vat of the Glove's list, while the module
is ON. -/
def tasteApplies (s : State) (work : TastedWork) (primary tile : Nat) : Bool :=
  s.pwr.state == .on && workFits work && (gloveOf s (workGlove work)).vatList.contains primary && pieceFits s work &&
  !reissueBarred s work primary && tasteSelects s (workGlove work) primary (workClass work) tile

/-- The tile is decided: its charges, what it completes, and the shadows that ran it. -/
def agreedTile (s : State) (work : TastedWork) (tile : Nat) (vats : List Nat) (results : List (List Nat)) (runs : Nat)
    (value : List Nat) : State :=
  let g := workGlove work
  let k := workClass work
  let s1 := completePiece (pressMismatch (chargeRuns s g k tile vats results runs value) work
    ((wrongRuns vats results runs value).map Prod.fst)) work
  let shadows := (List.range 8).filter (fun v => (vatOf s1 v).state == .probation)
  (List.zip shadows (results.drop 5)).foldl (runShadow g k tile value) s1

/-- TASTE_ARBITRATION: `tile` is the Glove's count of its tiles of the class before it; `results` are the words of runs 1
to 5 as far as they are made, and then those of the shadows, in ascending Vat number. -/
def execTasteArbitration (work : TastedWork) (primary : Nat) (runs : TileRuns) (s : State) :
    Host.Outcome State Fault Refusal :=
  let g := workGlove work
  let tile := runs.tile
  let results := runs.results
  if tasteApplies s work primary tile then
    let vats := tasteRuns primary (tasteOf s g (workClass work)).tasted (eligibleVats s g primary)
    let a := arbitrate vats results
    let s1 := fillBuffers (countTaste s g primary (workClass work) tile) (vats.take a.runs) results
    let s2 := a.suspects.foldl (fun s v => suspectVat s g v) s1
    .next (unlessStalled s (match a.agreed with
      | none => unresolvedTile s2 work primary tile (vats.take a.runs)
      | some value => agreedTile s2 work tile vats results a.runs value))
  else .next s

/-! ### INT_VAT_CTRL -/

/-- The pattern store is loaded and checked (R462). -/
def loadStore (s : State) : Bool × State :=
  let (d, s1) := drawFree s
  let ok := Config.storeVerifies d
  (ok, { s1 with int := { s1.int with storeOk := ok } })

/-- Vats that would go on in service (R453). -/
def servingVats (s : State) : List Nat :=
  (List.range 8).filter (fun v => !(vatOf s v).out && ((vatOf s v).state == .active || (vatOf s v).state == .joining))

def cmdIntVatCtrl : Cmd where
  op := 0x0B01
  issuer := .vintner
  form p _ := formError p (p.len = 8) false [(0, p.u8 0 ≤ 7), (1, p.u8 1 ≤ 2), (2, p.num 2 6 == 0)]
  state p s := do
    let v := vatOf s (p.u8 0)
    need (match p.u8 1 with
      | 0 => v.state == .active
      | 1 => v.state == .retired
      | _ => v.state != .retired) .badState
    need (p.u8 1 == 1 || !(servingVats s).contains (p.u8 0) || 4 ≤ (servingVats s).length) .badState
  body p s :=
    let (ok, s1) := loadStore s
    if ok then
      match p.u8 1 with
      | 0 => .ok (changeVat s1 (p.u8 0) 0xFF .suspect, okWith)
      | 1 => .ok (changeVat (setVat s1 (p.u8 0) (fun v => { v with permanent := false, scheduled := false })) (p.u8 0) 0xFF .testing, okWith)
      | _ => .ok (settleWaiting (startScan (changeVat s1 (p.u8 0) 0xFF .retired)), okWith)
    else .ok (s1, .answer { status := .imageAuth })

/-- INT_VAT_CTRL. -/
def execIntVatCtrl (p : Packet) (s : State) : Host.Outcome State Fault Refusal := runCmd cmdIntVatCtrl p s

/-! ### INT_BIST -/

def cmdIntBist : Cmd where
  op := 0x0B02
  issuer := .vintner
  form p _ := formError p (p.len = 8) false [(0, p.u8 0 ≤ 7), (1, p.u8 1 ≤ 1), (2, p.num 2 6 == 0)]
  state p s := need ((vatOf s (p.u8 0)).state == .testing || (vatOf s (p.u8 0)).state == .retired) .badState
  body p s :=
    let (ok, s1) := loadStore s
    if ok then
      let (d, s2) := drawFree s1
      let misr := Config.misr (p.u8 0) (p.u8 1) d % 2 ^ 64
      let pass := Config.bistPasses (p.u8 0) (p.u8 1) d
      .ok (addRecord s2 { kind := 5, unit := p.u8 0, outcome := b2n !pass, syndrome := misr },
        okWith misr (misr / 2 ^ 32) (b2n !pass))
    else .ok (s1, .answer { status := .imageAuth })

/-- INT_BIST. -/
def execIntBist (p : Packet) (s : State) : Host.Outcome State Fault Refusal := runCmd cmdIntBist p s

/-! ### INT_HISTORY_READ (R459, R466) -/

/-- A record of R459. -/
def recordBytes (r : Record) : List Byte :=
  let runs := (r.vats ++ List.replicate 5 0xFF).take 5
  let body := toLE 2 0x4849 ++ toLE 1 r.kind ++ toLE 1 r.unit ++ toLE 1 r.cls ++ toLE 1 r.outcome ++ toLE 1 r.glove ++ zeros 1 ++
    toLE 4 r.seq ++ toLE 4 r.epoch ++ toLE 8 (r.time % 2 ^ 48 + 2 ^ 63 * b2n r.timeValid) ++ runs.flatMap (toLE 1) ++ zeros 3 ++
    toLE 8 r.syndrome ++ toLE 8 r.tile ++ zeros 8
  body ++ toLE 4 (Crypto.crc32c body) ++ zeros 4

/-- CPER severity of R466 in the coding of UEFI: 0 recoverable, 1 fatal, 2 corrected, 3 informational (PRESUMED,
notes/assumptions/38.md). -/
def cperSeverity (r : Record) : Nat :=
  if r.kind = 1 ∨ r.kind = 3 ∨ r.kind = 9 ∨ r.kind = 7 then 2
  else if r.kind = 2 ∨ r.kind = 10 ∨ ((r.kind = 4 ∨ r.kind = 5) ∧ r.outcome = 1) ∨ (r.kind = 6 ∧ r.outcome = 3) then 0
  else if r.kind = 8 then 1
  else 3

/-- The Dimehan GUID of R466. -/
def dimehanGuid : List Byte :=
  toLE 4 0x5C0A7E31 ++ toLE 2 0x96D2 ++ toLE 2 0x4B8E ++ toBE 2 0xA1F4 ++ toBE 6 0x3D60E2B9C417

/-- Year, month and day of a count of days since 1970-01-01 (R67), in the Gregorian calendar. -/
def civilDate (days : Nat) : Nat × Nat × Nat :=
  let z := days + 719468
  let dayOfEra := z % 146097
  let year := (dayOfEra - dayOfEra / 1460 + dayOfEra / 36524 - dayOfEra / 146096) / 365
  let dayOfYear := dayOfEra - (365 * year + year / 4 - year / 100)
  let mp := (5 * dayOfYear + 2) / 153
  let month := if mp < 10 then mp + 3 else mp - 9
  (year + z / 146097 * 400 + (if month ≤ 2 then 1 else 0), month, dayOfYear - (153 * mp + 2) / 5 + 1)

/-- A number below 100 in two decimal digits. -/
def bcdByte (n : Nat) : List Byte := toLE 1 (n / 10 % 10 * 16 + n % 10)

/-- The timestamp of R466 in the coding of UEFI: the record's time, marked precise, when that time is VALID; otherwise
marked not precise, with free bytes (PRESUMED, notes/assumptions/38.md). -/
def cperTime (r : Record) : List Byte :=
  let gap (off n : Nat) : List Byte := (List.range n).map (fun i => Config.cperByte r.seq (off + i))
  if r.timeValid then
    let sec := r.time / 1000
    let date := civilDate (sec / 86400)
    bcdByte (sec % 60) ++ bcdByte (sec / 60 % 60) ++ bcdByte (sec / 3600 % 24) ++ toLE 1 1 ++
      bcdByte date.2.2 ++ bcdByte date.2.1 ++ bcdByte (date.1 % 100) ++ bcdByte (date.1 / 100)
  else gap 24 3 ++ zeros 1 ++ gap 28 4

/-- A CPER record: the fields that R466 fixes, at the offsets of the UEFI specification, and free bytes elsewhere
(PRESUMED, notes/assumptions/38.md). -/
def cperBytes (r : Record) : List Byte :=
  let gap (off n : Nat) : List Byte := (List.range n).map (fun i => Config.cperByte r.seq (off + i))
  ascii "CPER" ++ gap 4 2 ++ toLE 4 0xFFFFFFFF ++ toLE 2 1 ++ toLE 4 (cperSeverity r) ++ gap 16 4 ++ toLE 4 264 ++ cperTime r ++
    toLE 16 Config.serialNumber ++ gap 48 80 ++
    toLE 4 200 ++ toLE 4 64 ++ gap 136 8 ++ dimehanGuid ++ gap 160 16 ++ toLE 4 (cperSeverity r) ++ gap 180 20 ++ recordBytes r

/-- INT_HIST_SEQ: sequence of the newest record, 0 before there is one. -/
def newestSeq (s : State) : Nat := if s.int.history.isEmpty then 0 else (s.int.seq + 2 ^ 32 - 1) % 2 ^ 32

/-- The records that a read names: the kept ones from a sequence number on. -/
def recordsNamed (s : State) (first count : Nat) : List Record :=
  (s.int.history.filter (fun r => first ≤ r.seq)).take count

/-- Those of them that are read out: a copy passes its CRC. -/
def recordsFrom (s : State) (first count : Nat) : List Record := (recordsNamed s first count).filter (fun r => !r.lost)

/-- How many are skipped because both copies fail. -/
def recordsSkipped (s : State) (first count : Nat) : Nat := ((recordsNamed s first count).filter (fun r => r.lost)).length

/-- The flash devices may lose both copies of a record, which is found by its CRC (R459, R489; DESIGN CHOICE,
notes/assumptions/146.md). -/
def ageHistory (draw : Nat) (i : Integrity) : Integrity :=
  { i with history := mapIf (fun r => Config.copiesFail draw r.seq) (fun r => { r with lost := true }) i.history }

def cmdIntHistoryRead : Cmd where
  op := 0x0B03
  sideband := true
  issuer := .vintner
  names p _ := if p.route = .sideband then [] else [.window (p.u32 12 / 256)]
  access p s :=
    let n := (recordsFrom s (p.u32 0) (p.u32 4)).length
    windowCheck s p.ctx (p.u32 12) rightWrite (p.u64 16) (n * (if p.u8 8 = 1 then 264 else 64))
      (p.len == 24 && p.route != .sideband)
  form p _ :=
    let side := p.route == .sideband
    formError p (p.len = 24) false
      [(4, if side then p.u32 4 == 1 else 1 ≤ p.u32 4 && p.u32 4 ≤ 65536), (8, if side then p.u8 8 == 0 else p.u8 8 ≤ 1),
       (9, p.num 9 3 == 0), (12, !side || p.u32 12 == 0), (16, !side || (p.u64 16 ≤ 48 && p.u64 16 % 16 == 0))]
  state p s := do
    need (p.u32 0 ≤ newestSeq s) .badState
    need (p.route != .sideband || s.int.history.any (fun r => r.seq == p.u32 0 && !r.lost)) .badState
  body p s := do
    let rows := recordsFrom s (p.u32 0) (p.u32 4)
    if p.route = .sideband then .ok (s, okBytes (slice ((rows.map recordBytes).headD []) (p.u64 16) 16))
    else
      let s1 ← writeWindow s p.ctx (p.u32 12) (p.u64 16) (rows.map (if p.u8 8 = 1 then cperBytes else recordBytes)).flatten
      .ok (s1, okWith rows.length (((rows.head?).map (fun r => r.seq)).getD (p.u32 0)) (recordsSkipped s (p.u32 0) (p.u32 4)))

/-- INT_HISTORY_READ. -/
def execIntHistoryRead (p : Packet) (s : State) : Host.Outcome State Fault Refusal := runCmd cmdIntHistoryRead p s

/-! ### INT_QUERY -/

/-- INT_VAT_n (R470). -/
def regIntVat (s : State) (v : Nat) : Nat :=
  let x := vatOf s v
  vatStateCode x.state + 8 * b2n x.permanent + 2 ^ 8 * min 255 (recentMismatches s v) + 2 ^ 16 * min 65535 (x.shadows / 2 ^ 20)

def cmdIntQuery : Cmd where
  op := 0x0B04
  sideband := true
  issuer := .vintner
  form p _ := formError p (p.len = 8) false [(0, p.u8 0 ≤ 7), (1, p.num 1 7 == 0)]
  body p s :=
    let v := p.u8 0
    let chases := (s.int.chases.filter (fun c => c.vat == v && c.left != 0)).length
    let gloves := sumOf (fun g => 2 ^ g) (stripedOn s v)
    match (s.int.history.reverse.find? (fun r => r.unit == v)) with
    | some r => .ok (s, okWith (regIntVat s v) chases gloves r.seq)
    | none =>
      let (d, s1) := drawFree s
      .ok (s1, okWith (regIntVat s v) chases gloves (Config.absentSequence d))

/-- INT_QUERY. -/
def execIntQuery (p : Packet) (s : State) : Host.Outcome State Fault Refusal := runCmd cmdIntQuery p s

end Sys2Proof.Machine
end

