-- ==== Sys2Proof/Machine/Boot.lean ====
section
/-! DEFINITION. The full reset (R24, R107, R327, R353, R494 to R496): what is lost, the choice of a firmware slot
(R438, R440), readiness (R352, R463), and everything that starts one. -/

set_option autoImplicit false

namespace Sys2Proof.Machine

/-! ### What a full reset takes away -/

/-- The state of the logic side is at its reset values; what lies on VBAT, in flash, in fuses and on the auxiliary
domain stays, and so does the memory of the host. -/
def loseLogic (s : State) : State := { State.reset with
  pending := s.pending
  cal := { s.cal with hiLatch := 0 }
  pwr := {
    state := s.pwr.state, auxPresent := s.pwr.auxPresent, inputGood := s.pwr.inputGood, pwrEn := s.pwr.pwrEn
    pwrGood := s.pwr.pwrGood, perst := s.pwr.perst, tripCause := s.pwr.tripCause, slotId := s.pwr.slotId
    thermtrip := s.pwr.thermtrip, cap := s.pwr.cap, capNext := s.pwr.capNext }
  host := { mem := s.host.mem, rings := s.host.rings }
  side := { s.side with held := [] }
  net := { State.reset.net with out := s.net.out }
  keys := { roots := s.keys.roots, tenantRoot := s.keys.tenantRoot, zeroized := s.keys.zeroized, tamper := s.keys.tamper }
  fw := { s.fw with recovery := false }
  int := { vats := s.int.vats, history := s.int.history, seq := s.int.seq }
  free := s.free }

/-! ### The boot (R397, R424, R426, R436, R438, R440, R490) -/

/-- Slots in the order in which the ROM tries them, each with whether it boots as a trial. -/
def bootOrder (f : Firmware) : List (Nat × Bool) :=
  let inState (st : FwState) : List Nat := [0, 1].filter (fun i => (fwSlot f i).state == st)
  (inState .pending).map (fun i => (i, true)) ++ (inState .active ++ inState .verified).map (fun i => (i, false))

/-- The first slot that passes its check boots; one that fails is INVALID. With none the engine is in RECOVERY. -/
def tryBoot (s : State) : List (Nat × Bool) → State
  | [] => setFw s (fun f => { f with trial := false, recovery := true })
  | (i, trial) :: rest =>
    match imageCheck s (fwSlot s.fw i) with
    | none => setFw s (fun f => { f with running := i, trial := trial, recovery := false })
    | some _ => tryBoot (setFw s (fun f => setFwSlot f i (fun x => { x with state := .invalid }))) rest

/-- A slot as the ROM finds it: an interrupted one, or one tried before, is INVALID; a PENDING one is marked tried. -/
def slotAtBoot (x : FwSlot) : FwSlot :=
  match x.state with
  | .writing => { x with state := .invalid }
  | .pending => if x.tried then { x with state := .invalid } else { x with tried := true }
  | _ => x

/-- A last certificate whose to state differs from the fuses is removed (R424). -/
def trimChain (f : Firmware) : List Cert :=
  match f.chain.getLast? with
  | some c => if field c.body 5 1 = lifeCode f.lc then f.chain else f.chain.dropLast
  | none => f.chain

/-- The boot epoch is written, roots of other states are zeroed, a pending debug state takes effect, and the ROM selects
a slot. -/
def beginBoot (s : State) : State :=
  let s1 := { s with
    cal := { s.cal with elapsed := 0 }
    keys := { s.keys with
      roots := s.keys.roots.filter (fun r => r.1 == s.fw.lc)
      tenantRoot := if s.fw.lc = .deployed then s.keys.tenantRoot else none }
    fw := { s.fw with
      epoch := (s.fw.epoch + 1) % 2 ^ 32, debug := s.fw.debugPending, chain := trimChain s.fw
      slotA := slotAtBoot s.fw.slotA, slotB := slotAtBoot s.fw.slotB } }
  tryBoot s1 (bootOrder s1.fw)

/-- A full reset. While PERST_N is held, the boot waits for its deassertion (R494, R495). -/
def fullReset (s : State) : State := if s.pwr.perst then loseLogic s else beginBoot (loseLogic s)

/-! ### Rows that start a full reset -/

def powered (s : State) : Bool := s.pwr.state == .on

/-- The host reaches the registers of the PF (R352, R440). -/
def regsReady (s : State) : Bool := hostReady s && !s.fw.recovery

/-- In RECOVERY the PF answers once PERST_N is released: the identity block, and zero for the rest of BAR0 (R440). -/
def recoveryAnswers (s : State) : Bool := powered s && !s.pwr.perst && s.fw.recovery

/-- GBL_CTRL_RESET (R499). -/
def execGblCtrlReset (value : Word32) (s : State) : Host.Outcome State Fault Refusal :=
  .next (if regsReady s ∧ bitsAt value.toNat 0 1 = 1 ∧ bitsAt value.toNat 16 16 = Config.resetKey then fullReset s else s)

/-- MCTP_RESET_MESSAGE (R491, R492). -/
def execMctpResetMessage (serial : Nat) (s : State) : Host.Outcome State Fault Refusal :=
  .next (if powered s ∧ serial % 2 ^ 64 = Config.serialNumber % 2 ^ 64 then fullReset s else s)

/-- CONVENTIONAL_RESET (R353). -/
def execConventionalReset (kind : LinkReset) (s : State) : Host.Outcome State Fault Refusal :=
  if powered s then
    match kind with
    | .perst => .next (fullReset { s with pwr := { s.pwr with perst := true } })
    | .hotReset => .next (fullReset s)
    | .dlDown => .next (fullReset s)
  else .next s

/-- PERST_N is deasserted, and the boot begins. -/
def releasePerst (s : State) : State := beginBoot { s with pwr := { s.pwr with perst := false, perstEarly := false } }

/-- PERST_DEASSERT (R494, R495). -/
def execPerstDeassert (s : State) : Host.Outcome State Fault Refusal :=
  .next (if powered s ∧ s.pwr.perst then
    if s.pwr.pwrGood then releasePerst s else { s with pwr := { s.pwr with perstEarly := true } }
    else s)

def cmdModuleReset : Cmd where
  op := 0x0D01
  sideband := true
  issuer := .vintner
  rank := 6
  form p _ := formError p (p.len = 8) false [(0, p.u64 0 == Config.serialNumber % 2 ^ 64)]
  body _ s := .ok (fullReset s, .silent)

/-- MODULE_RESET. -/
def execModuleReset (p : Packet) (s : State) : Host.Outcome State Fault Refusal := runCmd cmdModuleReset p s

/-! ### Readiness (R352, R463, R465, R495) -/

/-- Memory BIST of one Vat at start-up. -/
def startupBist (s : State) (v : Nat) : State :=
  let (d, s1) := drawFree s
  if (vatOf s1 v).state = .retired ∨ Config.bistPasses v 1 d then s1
  else changeVat (addRecord s1 { kind := 5, unit := v, outcome := 1, syndrome := Config.misr v 1 d % 2 ^ 64 }) v 0xFF .suspect

end Sys2Proof.Machine
end

