-- ==== Sys2Proof/Machine/Attest.lean ====
section
/-! DEFINITION. Attestation and life cycle: reports (R427, R431 to R434), the certificate chain (R428, R429), life-cycle
transitions (R424, R430) and debug (R426, R442): commands 0x0901 to 0x0903, 0x0920 and 0x0921. -/

set_option autoImplicit false

namespace Sys2Proof.Machine

/-! ### Identity (R403, R427) -/

/-- Identity seeds of a life-cycle root. -/
def identitySeeds (root : List Byte) : List Byte := Crypto.kdf108 root (ascii "LQ-ID-V1") [] 48

def identityKeyOf (root : List Byte) : List Byte :=
  slice (identitySeeds root) 32 16 ++ padTo 16 (Config.slhPublic (identitySeeds root))

/-- The identity key of the present state. -/
def identityKey (s : State) : List Byte := identityKeyOf (lifeRoot s)

/-- A signature of SLH-DSA-SHA2-128f: 17,088 bytes. -/
def signShort (s : State) (msg : List Byte) : List Byte := padTo 17088 (Config.slhSign (identitySeeds (lifeRoot s)) msg)

def serialBytes : List Byte := toLE 8 Config.serialNumber

def calendarBytes (s : State) : List Byte := toLE 6 s.cal.ms ++ zeros 2

/-! ### ATTEST_REPORT (R431 to R434) -/

def attestBytes : Nat := 17376

/-- The recipe library measurement (R432). -/
def recipeLibrary (x : Glove) : List Byte :=
  Crypto.sha256 ((sortBy (fun r => r.id) x.recipes).flatMap (fun r => toLE 1 r.id ++ padTo 32 r.digest))

/-- The recipe library measurement of a report: that of its serialization cycle; of a request that reaches dispatch without
a serialization, that of the present state. -/
def libraryOf (s : State) (p : Packet) : List Byte := (p.mark.map (toLE 32)).getD (recipeLibrary (gloveOf s (p.u8 0)))

/-- The body of a report. -/
def reportBody (s : State) (scope : Nat) (library nonce : List Byte) : List Byte :=
  let f := s.fw
  let x := gloveOf s scope
  let glove := scope < 16
  let other := fwSlot f (otherSlot f)
  let staged := 2 ≤ stagedCode f
  toLE 4 0x5052514C ++ toLE 2 1 ++ toLE 1 scope ++
  toLE 1 (b2n f.debug + 2 * b2n f.debugPending + 4 * b2n s.cal.valid + 8 * b2n f.trial + 16 * stagedCode f) ++
  toLE 1 (lifeCode f.lc) ++ toLE 1 f.ordering ++ toLE 1 f.running ++ zeros 1 ++ toLE 4 f.epoch ++ serialBytes ++
  toLE 4 (runningVersion f) ++ toLE 4 f.rollback ++ identityKey s ++ padTo 32 Config.romMeasurement ++
  measurement (fwSlot f f.running) ++ (if staged then measurement other else zeros 32) ++
  (if glove then padTo 32 x.digest else zeros 32) ++ (if glove then library else zeros 32) ++
  calendarBytes s ++
  toLE 2 (if glove then gloveStateCode x.state
    else sumOf (fun g => if (gloveOf s g).state = .free then 0 else 2 ^ g) (List.range 16)) ++
  zeros 2 ++ toLE 4 (stagedVersion f) ++ nonce ++ zeros 16

def cmdAttestReport : Cmd where
  op := 0x0901
  issuer := .any
  names p _ := [.window (p.u32 4 / 256)]
  access p s := do
    need (p.ctx == vintner || p.u8 0 == p.ctx) .accessViolation
    windowCheck s p.ctx (p.u32 4) rightWrite (p.u64 8) attestBytes (p.len == 48)
  form p _ := formError p (p.len = 48) false [(0, p.u8 0 ≤ 16), (1, p.num 1 3 == 0)]
  state p s := do
    rootsPresent s
    let st := (gloveOf s (p.u8 0)).state
    need (p.u8 0 == 16 || st != .free) .badState
    need (p.u8 0 == 16 || !(st == .resetting || st == .releasing)) .busyRetry 1
    need (p.u8 0 == 16 || st != .wedged) .wedged
  body p s := do
    let report := reportBody s (p.u8 0) (libraryOf s p) (p.bytes 16 32)
    let s1 ← writeWindow s p.ctx (p.u32 4) (p.u64 8) (report ++ signShort s report)
    .ok (s1, okBytes (Crypto.sha256 report))

/-- ATTEST_REPORT. -/
def execAttestReport (p : Packet) (s : State) : Host.Outcome State Fault Refusal := runCmd cmdAttestReport p s

/-! ### CERT_READ and ENDORSE_LOAD (R428, R429) -/

/-- The certificate chain: the endorsement first. -/
def chainOf (f : Firmware) : List Cert := f.endorsement.toList ++ f.chain
def chainBytes (f : Firmware) : List Byte := (chainOf f).flatMap (fun c => c.body ++ c.signature)

def windowFields (p : Packet) : List (Nat × Bool) := [(4, p.u32 4 == 0)]

def cmdCertRead : Cmd where
  op := 0x0902
  issuer := .vintner
  names p _ := [.window (p.u32 0 / 256)]
  access p s := windowCheck s p.ctx (p.u32 0) rightWrite (p.u64 8) (chainBytes s.fw).length (p.len == 16)
  form p _ := formError p (p.len = 16) false (windowFields p)
  body p s := do
    let s1 ← writeWindow s p.ctx (p.u32 0) (p.u64 8) (chainBytes s.fw)
    .ok (s1, okWith (chainBytes s.fw).length (chainOf s.fw).length)

/-- CERT_READ. -/
def execCertRead (p : Packet) (s : State) : Host.Outcome State Fault Refusal := runCmd cmdCertRead p s

/-- An endorsement that verifies and names the present identity key and the serial number: the detail of ST_IMAGE_AUTH,
or none. -/
def endorsementError (s : State) (c : Cert) : Option Nat :=
  let b := c.body
  if ¬ Config.slhVerify keyCert b c.signature then some 1
  else if slice b 8 8 ≠ serialBytes then some 4
  else if field b 0 4 = 0x5443514C ∧ field b 4 1 = 0xFF ∧ field b 5 1 = lifeCode s.fw.lc ∧ field b 6 2 = 0 ∧
      allZero (slice b 16 32) ∧ slice b 48 32 = identityKey s ∧ field b 90 6 = 0 then none
  else some 3

def endorseBytes : Nat := 96 + slhLong

/-- RMA entered by R430, which no endorsement has yet followed. -/
def relinkOpen (f : Firmware) : Bool := f.lc == .rma && f.relink

def cmdEndorseLoad : Cmd where
  op := 0x0903
  issuer := .vintner
  names p _ := [.window (p.u32 0 / 256)]
  access p s := windowCheck s p.ctx (p.u32 0) rightRead (p.u64 8) endorseBytes (p.len == 16)
  form p _ := formError p (p.len = 16) false (windowFields p)
  state _ s := do
    rootsPresent s
    need ((s.fw.lc == .mfg && s.fw.endorsement.isNone) || relinkOpen s.fw) .badState
  body p s := do
    let (bytes, s1) ← readWindow s p.ctx (p.u32 0) (p.u64 8) endorseBytes
    let c : Cert := { body := bytes.take 96, signature := bytes.drop 96 }
    match endorsementError s1 c with
    | some d => fail .imageAuth d
    | none =>
      let (works, s2) := storeWorks s1
      if works then
        .ok (setFw s2 (fun f => { f with
          endorsement := some c, chain := if relinkOpen f then [] else f.chain, relink := false }), okWith)
      else .ok (s2, .answer { status := .storeFault })

/-- ENDORSE_LOAD. -/
def execEndorseLoad (p : Packet) (s : State) : Host.Outcome State Fault Refusal := runCmd cmdEndorseLoad p s

/-! ### LC_TRANSITION (R423, R424, R430) -/

def lifeOf : Nat → LifeCycle
  | 0 => .mfg
  | 1 => .prov
  | 2 => .deployed
  | _ => .rma

/-- The transitions of R423. -/
def nextLife : LifeCycle → List LifeCycle
  | .mfg => [.prov, .rma]
  | .prov => [.deployed, .rma]
  | .deployed => [.rma]
  | .rma => []

/-- A stored endorsement that R429 asks for. -/
def endorsed (s : State) : Bool := ((s.fw.endorsement.map (fun c => (endorsementError s c).isNone)).getD false)

/-- The body of a transition certificate, or of a zeroisation record. -/
def transitionBody (s : State) (target : LifeCycle) (root : List Byte) : List Byte :=
  toLE 4 0x5443514C ++ toLE 1 (lifeCode s.fw.lc) ++ toLE 1 (lifeCode target) ++ zeros 2 ++ serialBytes ++
  (if s.keys.zeroized then zeros 32 else identityKey s) ++ identityKeyOf root ++ toLE 4 s.fw.epoch ++ calendarBytes s ++ zeros 4

/-- Steps 1 to 5 of R424, or of R430. -/
def transition (s : State) (target : LifeCycle) : State :=
  let (root, s1) := drawBytes s 32
  let (tenant, s2) := if target = .deployed then drawBytes s1 32 else ([], s1)
  let body := transitionBody s target root
  let cert : Cert := { body := body, signature := if s.keys.zeroized then [] else signShort s body }
  { s2 with
    keys := { s2.keys with
      roots := [(target, root)], tenantRoot := if target = .deployed then some tenant else none, zeroized := false }
    fw := { s2.fw with lc := target, chain := s2.fw.chain ++ [cert], relink := s.keys.zeroized } }

def cmdLcTransition : Cmd where
  op := 0x0920
  issuer := .vintner
  form p _ := formError p (p.len = 16) false
    [(0, p.u8 0 ≤ 3), (1, p.num 1 7 == 0), (8, p.u64 8 == Config.serialNumber % 2 ^ 64)]
  state p s := do
    let target := lifeOf (p.u8 0)
    need (if s.keys.zeroized then target == .rma else (nextLife s.fw.lc).contains target) .badState 1
    need (s.gloves.all (fun g => g.state == .free)) .badState 2
    need (s.keys.zeroized || s.fw.lc != .mfg || endorsed s) .badState 3
    entropyReady s
  draw p _ := some (1, if p.u8 0 = 2 then 2 else 1)
  body p s :=
    let (works, s1) := storeWorks s
    if works then .ok (fullReset (transition s1 (lifeOf (p.u8 0))), .silent)
    else .ok (s1, .answer { status := .storeFault })

/-- LC_TRANSITION. -/
def execLcTransition (p : Packet) (s : State) : Host.Outcome State Fault Refusal := runCmd cmdLcTransition p s

/-! ### DEBUG_SET (R426, R442) -/

def tokenBytes : Nat := 32 + slhLong

/-- Enabling debug in DEPLOYED asks for a token. -/
def needsToken (p : Packet) (s : State) : Bool := p.u8 0 == 1 && s.fw.lc == .deployed

/-- The detail of ST_IMAGE_AUTH for a token, or none. -/
def tokenError (s : State) (t : List Byte) : Option Nat :=
  let b := t.take 32
  if ¬ Config.slhVerify keyService b (t.drop 32) then some 1
  else if field b 0 4 ≠ 0x4744514C ∨ field b 16 1 ≠ 1 ∨ ¬ allZero (slice b 17 15) then some 1
  else if slice b 8 8 ≠ serialBytes ∨ field b 4 4 ≠ s.fw.epoch then some 4
  else none

def cmdDebugSet : Cmd where
  op := 0x0921
  issuer := .vintner
  names p _ := if p.u32 4 = 0 then [] else [.window (p.u32 4 / 256)]
  access p s := windowCheck s p.ctx (p.u32 4) rightRead (p.u64 8) tokenBytes (p.len == 16 && needsToken p s && p.u32 4 != 0)
  form p s := formError p (p.len = 16) false
    [(0, p.u8 0 ≤ 1), (1, p.num 1 3 == 0), (4, needsToken p s || p.u32 4 == 0)]
  state p s := need (!needsToken p s || p.u32 4 != 0) .badState
  body p s := do
    let (bytes, s1) ← if needsToken p s then readWindow s p.ctx (p.u32 4) (p.u64 8) tokenBytes else .ok ([], s)
    match (if needsToken p s then tokenError s bytes else none) with
    | some d => fail .imageAuth d
    | none =>
      let (works, s2) := storeWorks s1
      if works then .ok (setFw s2 (fun f => { f with debugPending := p.u8 0 == 1 }), okWith)
      else .ok (s2, .answer { status := .storeFault })

/-- DEBUG_SET. -/
def execDebugSet (p : Packet) (s : State) : Host.Outcome State Fault Refusal := runCmd cmdDebugSet p s

end Sys2Proof.Machine
end

