-- ==== Sys2Proof/Machine/Entropy.lean ====
section
/-! DEFINITION. The Entropy Unit: the release of blocks and their consumers (R382 to R389), health failures (R384),
start-up (R390) and the commands 0x0A01 to 0x0A04 (R391 to R396). -/

set_option autoImplicit false

namespace Sys2Proof.Machine

/-! ### Sources and rates (R379, R385, R386, R396) -/

def srcRoleCode : SrcRole → Nat
  | .starting => 0
  | .active => 1
  | .standby => 2
  | .quarantined => 3
  | .test => 4

def sourceOf (e : Entropy) (i : Nat) : Source := e.sources.getD i {}

/-- Sources in a role, in ascending number. -/
def inRole (e : Entropy) (r : SrcRole) : List Nat := (List.range 6).filter (fun i => (sourceOf e i).role == r)

def entStateCode : EntState → Nat
  | .startup => 0
  | .ready => 1
  | .degraded => 2
  | .failed => 3

/-- The state that a number of ACTIVE sources gives; FAILED lasts (R385). -/
def stateFor (old : EntState) (active : Nat) : EntState :=
  if old = .failed ∨ active < 2 then .failed else if active < 4 then .degraded else .ready

/-- Two STANDBY sources feed the reserve conditioner (R386). -/
def reserveOwn (e : Entropy) : Bool := 2 ≤ (inRole e .standby).length

def delivering (e : Entropy) : Bool := e.state == .ready || e.state == .degraded

/-- ENT_STATUS. -/
def regEntStatus (e : Entropy) : Nat :=
  let standby := (inRole e .standby).length
  let reserve := if e.state = .startup ∨ 2 ≤ standby then 0 else if standby = 1 then 1 else 2
  entStateCode e.state + 4 * (inRole e .active).length + 2 ^ 5 * standby + 2 ^ 8 * (inRole e .quarantined).length + 2 ^ 11 * reserve

/-- Main rate in Mb/s as numerator and denominator (R385). -/
def mainRate (e : Entropy) : Nat × Nat :=
  if delivering e then
    match (inRole e .active).length with
    | 4 => (3200, 3)
    | 3 => (800, 1)
    | 2 => (1600, 3)
    | _ => (0, 1)
  else (0, 1)

/-- A rate reported in whole Mb/s: the manual does not say how a fraction is rounded, so that is free. -/
def reported (num den : Nat) : Nat := num / den + (if num % den = 0 then 0 else b2n (Config.roundsUp num den))

def reserveRate (e : Entropy) : Nat :=
  if ¬ delivering e then 0
  else if reserveOwn e then reported 1600 3 else reported (mainRate e).1 (16 * (mainRate e).2)

/-- A Glove's rate: its share of the blocks that its frame is built from. -/
def gloveRate (e : Entropy) (share : Nat) : Nat :=
  let (n, d) := mainRate e
  if reserveOwn e then reported (n * share) (256 * d) else reported (15 * n * share) (16 * 256 * d)

/-! ### Events and states -/

/-- ENT_SRC_n.LAST_FAIL and STARTUP as the cause byte of R394. -/
def sourceCause (x : Source) : Nat := x.lastFail + 128 * b2n x.startup

/-- An event of R394. -/
def entropyEvent (s : State) (code : Nat) (failed : Bool) (source cause promoted discarded : Nat) : State :=
  postEvent s vintner (toLE 2 code ++ toLE 2 (statusWord (if failed then .entropyFailed else .ok)) ++ toLE 1 source ++
    toLE 1 cause ++ toLE 1 (entStateCode s.ent.state) ++ toLE 1 promoted ++ toLE 4 discarded ++ zeros 4 ++
    phaseBytes (calendarWord s) ++ zeros 8)

/-- Every pending draw ends with ST_ENTROPY_FAILED (R385). -/
def failDraws (s : State) : State :=
  (s.outstanding.filter (fun o => match o.wait with
    | .entropy _ n => n != 0
    | _ => false)).foldl (fun s o => endWaiting s o { status := .entropyFailed }) s

/-- Set the unit's state; a change posts ENT_STATE_CHANGE, which names the source moved to ACTIVE, and FAILED ends the pending
draws. -/
def setEntState (s : State) (st : EntState) (promoted : Nat := 0xFF) : State :=
  if s.ent.state = st then s
  else
    let s1 := { s with ent := { s.ent with state := st } }
    let s2 := entropyEvent s1 0x0A11 (st == .failed) 0xFF 0 promoted 0
    if st = .failed then failDraws s2 else s2

def setSource (s : State) (i : Nat) (f : Source → Source) : State :=
  { s with ent := { s.ent with sources := setAt s.ent.sources i f } }

/-- A failure of one source: LAST_FAIL, STARTUP and FAILS, and its record (R381, R396, R459). -/
def failSource (s : State) (i test : Nat) (startup : Bool) : State :=
  let s1 := setSource s i (fun x => { x with
    role := .quarantined, lastFail := test, startup := startup, fails := satAdd 255 x.fails 1 })
  addRecord s1 { kind := 9, unit := 0x20 + i, outcome := sourceCause (sourceOf s1.ent i) }

/-- The measurements of the oscillators: frequencies, and the lowest beat count of the 15 pairs, which are free values
(R381, R396; DESIGN CHOICE, notes/assumptions/113.md). -/
def measureSources (s : State) : State :=
  let (d, s1) := drawFree s
  let pairs := (List.range 6).flatMap (fun a => (List.range 6).filterMap (fun b =>
    if a < b then some (Config.beats d a b % 2 ^ 16, a, b) else none))
  let least (best x : Nat × Nat × Nat) : Nat × Nat × Nat := if x.1 < best.1 then x else best
  { s1 with ent := { s1.ent with
      sources := (List.zip (List.range s1.ent.sources.length) s1.ent.sources).map (fun x => { x.2 with freq := Config.oscillator d x.1 % 2 ^ 16 })
      beatMin := pairs.foldl least (pairs.headD (0xFFFF, 0, 0)) } }

/-! ### ENTROPY_BLOCK_RELEASE (R383, R386 to R389, R392) -/

/-- Sources that became STANDBY while fewer than four were ACTIVE move at the block boundary. -/
def promoteSources (s : State) : State :=
  if s.ent.promote.isEmpty then s
  else
    let s1 := s.ent.promote.foldl (fun s i =>
      if (sourceOf s.ent i).role = .standby ∧ (inRole s.ent .active).length < 4 then
        setSource s i (fun x => { x with role := .active }) else s) s
    let s2 := { s1 with ent := { s1.ent with promote := [] } }
    let moved := (s.ent.promote.filter (fun i => (sourceOf s.ent i).role != (sourceOf s2.ent i).role)).headD 0xFF
    setEntState s2 (stateFor s2.ent.state (inRole s2.ent .active).length) moved

/-- Bit reversal of 8 bits (R387). -/
def reverse8 (p : Nat) : Nat := (List.range 8).foldl (fun r i => 2 * r + bitsAt p i 1) 0

/-- The Glove whose interval contains r (R387). -/
def shareOwner (s : State) (r : Nat) : Option Nat :=
  ((List.range 16).foldl (fun (acc : Nat × Option Nat) g =>
    let w := (gloveOf s g).cfg.entropy
    (acc.1 + w, if acc.1 ≤ r ∧ r < acc.1 + w then some g else acc.2)) (0, none)).2

/-- The waiting draw of a context that takes the next block: lowest rank, then serialization order (R388, R389). -/
def nextDraw (s : State) (ctx : Nat) : Option Outstanding :=
  s.outstanding.foldl (fun best o =>
    match o.wait, best.map (fun b => (b.wait, b.pkt.order)) with
    | .entropy _ 0, _ => best
    | .entropy r _, some (.entropy q _, order) =>
      if o.pkt.ctx = ctx ∧ (r < q ∨ (r = q ∧ o.pkt.order < order)) then some o else best
    | .entropy _ _, none => if o.pkt.ctx = ctx then some o else best
    | _, _ => best) none

/-- The Glove whose reset nonce takes the next block of the reserve: the first in serialization order at the key-generation
rank, before every draw of a higher rank (R389, R404). -/
def nonceNext (s : State) : Option Nat :=
  let waits (g : Nat) : Option (Nat × Nat) := ((gloveOf s g).reset.bind (fun r => r.awaits)).map (fun o => (o, g))
  let earlier (best x : Nat × Nat) : Nat × Nat := if x.1 < best.1 then x else best
  match (List.range 16).filterMap waits with
  | [] => none
  | x :: rest =>
    let first := rest.foldl earlier x
    let before (o : Outstanding) : Bool :=
      match o.wait with
      | .entropy rank _ => rank == 1 && decide (o.pkt.order < first.1)
      | _ => false
    if ((nextDraw s vintner).map before).getD false then none else some first.2

/-- A block arrives at a context: the re-mask round under way takes one of the reserve's, else a reset nonce, else a waiting
draw, else the context's queue, else it is lost. A draw that has been served is followed by the command's draw at rank 3, if
it has one (R388). -/
def giveBlock (s : State) (ctx : Nat) : State :=
  if ctx = vintner ∧ remaskWaits s then remaskNext s else
  match (if ctx = vintner then nonceNext s else none) with
  | some g => setGlove s g (fun x => { x with reset := x.reset.map (fun r => { r with awaits := none, nonce := true }) })
  | none =>
  match nextDraw s ctx with
  | some o =>
    let serve (x : Outstanding) : Outstanding :=
      match x.wait with
      | .entropy r n =>
        if n = 1 ∧ x.later ≠ 0 then { x with wait := .entropy 3 x.later, later := 0 }
        else { x with wait := .entropy r (n - 1) }
      | _ => x
    { s with outstanding := mapIf (fun x => x.pkt.order == o.pkt.order) serve s.outstanding }
  | none =>
    if queuedBlocks s ctx < Config.entropyQueue then
      if ctx < 16 then setGlove s ctx (fun g => { g with blocks := g.blocks + 1 })
      else { s with ent := { s.ent with reserve := s.ent.reserve + 1 } }
    else { s with ent := { s.ent with unused := satAdd (2 ^ 32 - 1) s.ent.unused 1 } }

/-- A main block: every 16th goes to the reserve where that has no conditioner, and the others take the positions
of the frame in turn. -/
def mainBlock (s : State) : State :=
  let s1 := { s with ent := { s.ent with blocks := (s.ent.blocks + 1) % 2 ^ 64 } }
  if ¬ reserveOwn s1.ent ∧ s1.ent.sixteenth = 15 then
    giveBlock { s1 with ent := { s1.ent with sixteenth := 0 } } vintner
  else
    let s2 := { s1 with ent := { s1.ent with
      sixteenth := if reserveOwn s1.ent then 0 else s1.ent.sixteenth + 1, position := (s1.ent.position + 1) % 256 } }
    match shareOwner s2 (reverse8 s1.ent.position) with
    | some g => giveBlock s2 g
    | none => { s2 with ent := { s2.ent with unused := satAdd (2 ^ 32 - 1) s2.ent.unused 1 } }

/-- Block interval in nanoseconds of a conditioner with a number of sources (R385). -/
def blockInterval (n : Nat) : Nat := if n = 4 then 240 else if n = 3 then 320 else 480

/-- Every contributing source has produced 1,024 further samples by a time, at the nominal frequency of R380, (800 + 4i) MHz. -/
def matured (now : Nat) (b : PendingBlock) : Bool := b.sources.all (fun i => decide (1024000 ≤ (now - b.stop) * (800 + 4 * i)))

/-- A stream at its next block boundary: the block that ends there joins the unreleased ones, and the matured ones leave
(R382, R383). -/
def boundaryOf (x : EntropyStream) (interval : Nat) (sources : List Nat) : EntropyStream × Nat :=
  let now := x.now + interval
  let all := x.pending ++ (if sources.isEmpty then [] else [{ sources := sources, start := x.now, stop := now }])
  ({ now := now, pending := all.filter (fun b => !matured now b) }, (all.filter (matured now)).length)

/-- The sources of the reserve conditioner: two STANDBY sources, else none (R386). -/
def spareSources (e : Entropy) : List Nat := if reserveOwn e then (inRole e .standby).take 2 else []

/-- A block boundary of the main conditioner: the block of the sources that were ACTIVE ends, sources are promoted, and the
blocks that have matured are released. -/
def mainBoundary (s : State) : State :=
  let active := inRole s.ent .active
  let (x, n) := boundaryOf s.ent.main (blockInterval active.length) active
  (List.range n).foldl (fun s _ => mainBlock s) (measureSources (promoteSources { s with ent := { s.ent with main := x } }))

/-- A block boundary of the reserve conditioner, every 480 ns. -/
def spareBoundary (s : State) : State :=
  let (x, n) := boundaryOf s.ent.spare 480 (spareSources s.ent)
  (List.range n).foldl (fun s _ => giveBlock s vintner) { s with ent := { s.ent with spare := x } }

/-- ENTROPY_BLOCK_RELEASE: a block boundary of the main or of the reserve conditioner. Nothing is released before READY nor
in FAILED. -/
def execEntropyBlockRelease (reserve : Bool) (s : State) : Host.Outcome State Fault Refusal :=
  if ¬ delivering s.ent then .next s
  else .next (if reserve then spareBoundary s else mainBoundary s)

/-! ### HEALTH_TEST_FAIL (R381, R384, R394) -/

def testCode : HealthTest → Nat
  | .alive => 1
  | .notLocked => 2
  | .repetition => 3
  | .adaptive => 4

/-- A source that the tests watch. -/
def tested (x : Source) : Bool := x.role == .active || x.role == .standby || x.role == .test

/-- Quarantine a list of sources; answers each with the source promoted in its place, or 0xFF. -/
def quarantine (test : Nat) : State → List Nat → State × List (Nat × Nat)
  | s, [] => (s, [])
  | s, i :: rest =>
    let wasActive := (sourceOf s.ent i).role == .active
    let s1 := failSource s i test false
    match (if wasActive then (inRole s1.ent .standby).filter (fun j => !rest.contains j) else []) with
    | j :: _ =>
      let (s2, l) := quarantine test (setSource s1 j (fun x => { x with role := .active })) rest
      (s2, (i, j) :: l)
    | [] =>
      let (s2, l) := quarantine test s1 rest
      (s2, (i, 0xFF) :: l)

/-- An unreleased block holds a sample of a source's failing window, which reaches back some nanoseconds (R384). -/
def inWindow (hit : List Nat) (now window : Nat) (b : PendingBlock) : Bool :=
  b.sources.any (fun i => hit.contains i) && decide (now < b.stop + window)

/-- A stream without the unreleased blocks of a failing window, and how many it lost. -/
def discardFrom (hit : List Nat) (window : Nat) (x : EntropyStream) : EntropyStream × Nat :=
  ({ x with pending := x.pending.filter (fun b => !inWindow hit x.now window b) },
   (x.pending.filter (inWindow hit x.now window)).length)

/-- HEALTH_TEST_FAIL: at the block boundary after a failure, whose window began so many nanoseconds before it (`window` on the
clock of the main conditioner, `spareWindow` on that of the reserve's), blocks with a sample of that window are discarded, the sources of R381 are quarantined and STANDBY sources take the place of ACTIVE ones. -/
def execHealthTestFail (test : HealthTest) (source other window spareWindow : Nat) (s : State) : Host.Outcome State Fault Refusal :=
  let named := if test = .notLocked then [min source other, max source other] else [source]
  let hit := (dedup named).filter (fun i => tested (sourceOf s.ent i) && decide (i < 6))
  if hit.isEmpty then .next s
  else
    let (main, fromMain) := discardFrom hit window s.ent.main
    let (spare, fromSpare) := discardFrom hit spareWindow s.ent.spare
    let lost := fromMain + fromSpare
    let s1 := { s with ent := { s.ent with
      main := main, spare := spare
      discard := satAdd (2 ^ 32 - 1) s.ent.discard lost, promote := s.ent.promote.filter (fun i => !hit.contains i) } }
    let (s2, moved) := quarantine (testCode test) s1 hit
    let st := if s2.ent.state = .startup then s2.ent.state else stateFor s2.ent.state (inRole s2.ent .active).length
    let entering := st == .failed && s2.ent.state != .failed
    let s3 := setEntState s2 st (((moved.map (fun x => x.2)).filter (· != 0xFF)).headD 0xFF)
    .next ((List.zip (List.range moved.length) moved).foldl (fun s x =>
      entropyEvent s 0x0A10 entering x.2.1 (sourceCause (sourceOf s.ent x.2.1)) x.2.2 (if x.1 = 0 then lost else 0)) s3)

/-! ### ENTROPY_STARTUP_DONE (R379, R390) -/

/-- Sources whose present start-up test ends: all six at first, then those that are tested once more. -/
def onTrial (e : Entropy) : List Nat :=
  let again := (List.range 6).filter (fun i => (sourceOf e i).trial == 2)
  if again.isEmpty ∧ e.state = .startup then List.range 6 else again

/-- A failure of a source's start-up test: the failed test is free. At the first, the source is tested once more (R390). -/
def failTrial (s : State) (i : Nat) : State :=
  let again := (sourceOf s.ent i).trial = 0
  let (d, s1) := drawFree s
  let s2 := failSource s1 i (Config.failedTest d % 4 + 1) true
  setSource s2 i (fun x => if again then { x with role := .starting, trial := 2 } else { x with trial := 0 })

/-- With four that have passed the first four are ACTIVE and the unit is READY; a source that passes later becomes STANDBY. -/
def seatSources (s : State) : State :=
  let good := (List.range 6).filter (fun i => (sourceOf s.ent i).role == .starting && (sourceOf s.ent i).trial == 1)
  let seats := if s.ent.state = .startup then 4 else 0
  if s.ent.state = .startup ∧ good.length < 4 then s
  else
    let s1 := (good.take seats).foldl (fun s i => setSource s i (fun x => { x with role := .active })) s
    (good.drop seats).foldl (fun s i => setSource s i (fun x => { x with role := .standby })) s1

/-- ENTROPY_STARTUP_DONE: start-up tests end, those of all six sources or those of the sources that were tested once more. A
source that fails twice is quarantined. The unit is READY as soon as four have passed, and FAILED where fewer have after the
second tests. -/
def execEntropyStartupDone (passed : List Bool) (s : State) : Host.Outcome State Fault Refusal :=
  if (onTrial s.ent).isEmpty then .next s
  else
    let good := (onTrial s.ent).filter (fun i => passed.getD i false)
    let bad := (onTrial s.ent).filter (fun i => !passed.getD i false)
    let s1 := bad.foldl failTrial (good.foldl (fun s i => setSource s i (fun x => { x with trial := 1 })) s)
    let s2 := seatSources (measureSources s1)
    let lost := bad.filter (fun i => (sourceOf s.ent i).trial == 2)
    let s3 :=
      if s2.ent.state ≠ .startup then s2
      else if 4 ≤ (inRole s2.ent .active).length then setEntState s2 .ready
      else if s2.ent.sources.all (fun x => x.trial != 2) then setEntState s2 .failed else s2
    .next (lost.foldl (fun t i => entropyEvent t 0x0A10 (s.ent.state == .startup && t.ent.state == .failed) i
      (sourceCause (sourceOf t.ent i)) 0xFF 0) s3)

/-! ### ENT_READ -/

def noShare (s : State) (ctx : Nat) : Bool := ctx < 16 && (gloveOf s ctx).cfg.entropy == 0

def cmdEntRead : Cmd where
  op := 0x0A01
  issuer := .any
  names p _ := [.window (p.u32 0 / 256)]
  access p s := windowCheck s p.ctx (p.u32 0) rightWrite (p.u64 8) (p.u32 4) (p.len == 16)
  form p _ := formError p (p.len = 16) false [(4, 32 ≤ p.u32 4 && p.u32 4 ≤ 65536 && p.u32 4 % 32 == 0)]
  state _ s := entropyReady s
  draw p s := if noShare s p.ctx then none else some (5, blocksFor (p.u32 4))
  body p s := do
    need (!noShare s p.ctx) .noResource 1
    let (bytes, s1) := drawBytes s (p.u32 4)
    let s2 ← writeWindow s1 p.ctx (p.u32 0) (p.u64 8) bytes
    .ok (s2, okWith (p.u32 4))

/-- ENT_READ. -/
def execEntRead (p : Packet) (s : State) : Host.Outcome State Fault Refusal := runCmd cmdEntRead p s

/-! ### ENT_STATUS -/

def roleWord (e : Entropy) : Nat := (List.range 6).foldl (fun n i => n + srcRoleCode (sourceOf e i).role * 16 ^ i) 0

def cmdEntStatus : Cmd where
  op := 0x0A02
  sideband := true
  issuer := .any
  form p _ := formError p (p.len = 0) false []
  body p s :=
    let e := s.ent
    if p.ctx = vintner then .ok (s, okWith (regEntStatus e) (roleWord e) e.discard (reserveRate e))
    else
      let share := (gloveOf s p.ctx).cfg.entropy
      .ok (s, okWith (b2n (delivering e) + 2 * b2n (e.state == .failed)) share (gloveRate e share) 0)

/-- ENT_STATUS. -/
def execEntStatus (p : Packet) (s : State) : Host.Outcome State Fault Refusal := runCmd cmdEntStatus p s

/-! ### ENT_SOURCE_CTRL (R392) -/

/-- The role an action acts on: RETEST, TEST, RETURN. -/
def actionRole : Nat → SrcRole
  | 0 => .quarantined
  | 1 => .standby
  | _ => .test

/-- RETEST and RETURN: whether the source passes is free. -/
def retestSource (s : State) (i : Nat) (back : Bool) : State × Answer :=
  let (d, s1) := drawFree s
  if Config.retestPasses d then
    let s2 := setSource s1 i (fun x => { x with role := .standby })
    let more := decide ((inRole s2.ent .active).length + s2.ent.promote.length < 4)
    ({ s2 with ent := { s2.ent with promote := s2.ent.promote ++ (if more then [i] else []) } }, { status := .ok })
  else
    let s2 := failSource s1 i (Config.failedTest d % 4 + 1) true
    let s3 := if back then entropyEvent s2 0x0A10 false i (sourceCause (sourceOf s2.ent i)) 0xFF 0 else s2
    (s3, { status := .badState, detail := 2 })

def cmdEntSourceCtrl : Cmd where
  op := 0x0A03
  sideband := true
  issuer := .vintner
  form p _ := formError p (p.len = 8) false [(0, p.u8 0 ≤ 5), (1, p.u8 1 ≤ 2), (2, p.num 2 6 == 0)]
  state p s := do
    need ((sourceOf s.ent (p.u8 0)).role == actionRole (p.u8 1)) .badState 1
    need (s.ent.state != .failed) .entropyFailed
  body p s :=
    if p.u8 1 = 1 then
      let s1 := setSource s (p.u8 0) (fun x => { x with role := .test })
      .ok ({ s1 with ent := { s1.ent with promote := s1.ent.promote.filter (· != p.u8 0) } }, okWith)
    else
      let (s1, a) := retestSource s (p.u8 0) (p.u8 1 == 2)
      .ok (s1, .answer a)

/-- ENT_SOURCE_CTRL. -/
def execEntSourceCtrl (p : Packet) (s : State) : Host.Outcome State Fault Refusal := runCmd cmdEntSourceCtrl p s

/-! ### ENT_RAW_READ (R393) -/

/-- A failure seen while a TEST source is read quarantines it as any failure does (R381); which test failed is free. -/
def rawFailure (s : State) (i draw : Nat) : State :=
  if Config.rawFailures draw = 0 then s
  else
    let s1 := failSource s i (Config.failedTest draw % 4 + 1) false
    entropyEvent s1 0x0A10 false i (sourceCause (sourceOf s1.ent i)) 0xFF 0

def cmdEntRawRead : Cmd where
  op := 0x0A04
  issuer := .vintner
  names p _ := [.window (p.u32 4 / 256)]
  access p s := windowCheck s p.ctx (p.u32 4) rightWrite (p.u64 16) (p.u32 8) (p.len == 24)
  form p _ := formError p (p.len = 24) false
    [(0, p.u8 0 ≤ 5), (1, p.num 1 3 == 0), (8, 1 ≤ p.u32 8 && p.u32 8 ≤ 1048576), (12, p.u32 12 == 0)]
  state p s := need ((sourceOf s.ent (p.u8 0)).role == .test) .badState
  body p s := do
    let (d, s1) := drawFree s
    let s2 ← writeWindow s1 p.ctx (p.u32 4) (p.u64 16) ((List.range (p.u32 8)).map (Config.rawByte d))
    .ok (rawFailure s2 (p.u8 0) d, okWith (Config.rawFailures d))

/-- ENT_RAW_READ: samples of a TEST source and the failures seen are free values. -/
def execEntRawRead (p : Packet) (s : State) : Host.Outcome State Fault Refusal := runCmd cmdEntRawRead p s

end Sys2Proof.Machine
end

