-- ==== Sys2Proof/Machine/Fetch.lean ====
section
/-! DEFINITION. From the ring to staging: COMMAND_FETCH with the header checks and the ingress serializers (R27 to R29,
R33, R50, R60 to R62, R503), STAGED_PROMOTION (R30). -/

set_option autoImplicit false

namespace Sys2Proof.Machine

/-! ### What may be fetched -/

def stagedOfQueue (s : State) (q : Nat) : Nat :=
  (s.staged.filter (fun p => p.queue == q && p.route != .sideband)).length

def stagedOfContext (s : State) (ctx : Nat) : Nat := (s.staged.filter (fun p => turnOf s p == ctx)).length

/-- The ring can be read: a connection-bound one while its connection exists, another by DMA of its function. -/
def ringReachable (s : State) (q : Queue) : Bool :=
  match q.conn with
  | some c => (connOf s c).isSome
  | none => hostReady s && (q.owner == vintner || vfExists s (q.owner + 1))

/-- The queue takes part in fetching: it is ACTIVE (or ends a packet that a flush has marked), its Glove is not
fenced, and a reply entry can be reserved (R27, R33, R341). -/
def mayFetch (s : State) (q : Queue) : Bool :=
  q.kind == .command && (q.state == .active || (q.state == .destroying && q.flushTo.isSome)) &&
  (q.owner == vintner || (gloveOf s q.owner).state == .active) && ringReachable s q &&
  ((queueOf s q.bound).map (fun b => decide (b.backlog.length < freeEntries b))).getD false

/-- The limits of R29. -/
def stagingRoom (s : State) (q : Queue) : Bool :=
  stagedOfQueue s q.id < Config.stagePerQueue && stagedOfContext s q.owner < Config.stagePerContext

/-! ### Serialization (R28, R60 to R62) -/

/-- The key generation for a Vintage whose VINTAGE_OPEN carries a stamp: a rotation that has fallen due below the
stamp counts, though the Cellarmaster has not acted on it yet (R64, R419, R420). -/
def generationAt (s : State) (g count : Nat) : Nat :=
  let x := gloveOf s g
  (x.generation + (x.phase.due.filter (fun e => e.kind == .keyRotation && e.phase < count)).length) % 2 ^ 32

/-- What serialization fixes for a packet: F of a QUEUE_FLUSH (R37); guarantee, key generation and reachable members of a
VINTAGE_OPEN (R70, R97, R419); the recipe library of an attestation report (R432). -/
def markOf (s : State) (p : Packet) : Option Nat :=
  if p.opcode = 0x0003 then (queueOf s (p.u16 0)).map (fun q => q.prod)
  else if p.opcode = 0x0104 ∧ p.ctx < 16 then
    some (openMark (gloveOf s p.ctx).live (generationAt s p.ctx p.stamp.count) (trellisMembers s p.ctx))
  else if p.opcode = 0x0901 then some (leNat (recipeLibrary (gloveOf s (p.u8 0))))
  else none

/-- PHASE_TICK reaches the sequencer of its Glove: it comes from a queue of that Glove, on a route it is accepted on. -/
def tickReaches (s : State) (q : Queue) (p : Packet) : Bool :=
  p.opcode == 0x0C01 && p.ctx == q.owner && p.ctx < 16 &&
    !((gloveOf s p.ctx).session.confidential && !q.cuff && q.conn.isNone)

/-- A packet passes its ingress serializer and is staged; a Glove reset takes its first step there (R340, R341). -/
def serialize (s : State) (p : Packet) (tick : Bool) : State :=
  let p1 : Packet := { p with mark := markOf s p }
  let s1 : State := { s with clock := { s.clock with cycle := p.cycle, order := s.clock.order + 1 } }
  if tick then
    let (a, s2) := serializeTick p1 s1
    { s2 with staged := s2.staged ++ [{ p1 with tick := some a }] }
  else
    let s2 := fenceAt p1 s1
    { s2 with staged := s2.staged ++ [p1] }

/-- The next packet of a queue, all of whose slots are published, is taken from its ring. -/
def takePacket (s : State) (q : Queue) (h : List Byte) (cycle : Nat) : State :=
  let s1 := consumeSlots s q.id (headerSlots h)
  if (q.flushTo.map (beginsBefore q.cons)).getD false then
    answerUndispatched (setQueue s1 q.id (fun x => { x with flushTo := none }))
      (unserialized q h q.cons (contextStamp s q.owner cycle)) { status := .flushed }
  else if s.cm.state = .halted then
    answerUndispatched s1 (unserialized q h q.cons (contextStamp s q.owner cycle)) { status := .engineHalted }
  else if stagingRoom s q then
    let params := (q.slots.drop 1).flatten
    let p := packetOf h params (routeOf q) q.id (contextStamp s q.owner cycle) cycle s.clock.order q.cons
    let s2 := setQueue s1 q.bound (fun r => { r with reserved := r.reserved + 1 })
    serialize s2 p (tickReaches s q p)
  else s

/-- A header that fails halts its queue (R33). -/
def failHeader (s : State) (q : Queue) (h : List Byte) (cycle : Nat) : State :=
  let s1 := setQueue s q.id (fun x => { x with state := .halted, failSlot := some x.cons })
  answerUndispatched s1 (unserialized q h q.cons (contextStamp s q.owner cycle)) { status := .badHeader, detail := headerError h, r0 := q.cons }

/-- Index of the first slot of the next packet whose Cuff record was refused. -/
def lostSlot (q : Queue) (h : List Byte) : Option Nat :=
  ((q.slots.take (max 1 (headerSlots h))).findIdx? (fun x => x.isEmpty)).map (fun i => (q.cons + i) % 2 ^ 32)

/-- COMMAND_FETCH: the queue's next packet, in a serialization cycle. -/
def execCommandFetch (queue cycle : Nat) (s : State) : Host.Outcome State Fault Refusal :=
  match queueOf s queue with
  | none => .next s
  | some q =>
    match q.slots with
    | [] => .next s
    | h :: _ =>
      if ¬ (powered s ∧ (s.cm.state = .running ∨ s.cm.state = .halted) ∧ mayFetch s q) then .next s
      else if h.isEmpty then .next (failCommandRing s q q.cons .cuffAuth)
      else if headerError h ≠ 0 then .next (failHeader s q h cycle)
      else if q.slots.length < headerSlots h then .next s
      else match lostSlot q h with
        | some i => .next (failCommandRing s q i .cuffAuth)
        | none => .next (takePacket s q h cycle)

/-- STAGED_PROMOTION: after 10 ms in staging a packet goes to the tail of class 0. A packet that is in class 0 already
keeps its place (DESIGN CHOICE, notes/assumptions/118.md). -/
def execStagedPromotion (order : Nat) (s : State) : Host.Outcome State Fault Refusal :=
  match s.staged.find? (fun p => p.order == order && p.priority != 0) with
  | some p => .next { s with staged := s.staged.filter (fun x => x.order != order) ++ [{ p with priority := 0 }] }
  | none => .next s

end Sys2Proof.Machine
end

