-- ==== Sys2Proof/Machine/Ingress.lean ====
section
/-! DEFINITION. What an arriving packet meets on its way in: the checks of R131, violations (R134), the miss
buffer (R145, R146), credit and the exactly-once test (R128, R166, R167), and the verdicts of R165, R158,
R502 and R97. -/

set_option autoImplicit false

namespace Sys2Proof.Machine

/-! ### Acknowledgments (R127) -/

/-- Send an ACK of one sequence space; a HELD connection sends nothing (R121). -/
def sendAck (s : State) (cid : Nat) (resp : Bool) : State :=
  match (connOf s cid).filter maySpeak with
  | none => s
  | some c =>
    let rx := connRx c resp
    let ext := toLE 1 (b2n resp) ++ zeros 3 ++ toLE 4 (psnAdd rx.v Config.creditWindow) ++
      toLE 32 rx.bitmap.toNat ++ toLE 32 rx.cePaths.toNat
    let s1 := setConn s cid (fun c => setRx c resp (fun r => { r with sinceAck := 0, cePaths := 0, again := false }))
    sendControl s1 cid 0x08 rx.v ext

/-- Send a STATUS packet (R117). -/
def sendStatus (s : State) (cid psn : Nat) (st : Status) (detail : Nat) : State :=
  sendControl s cid 0x09 0 (toLE 2 (statusWord st) ++ toLE 2 detail ++ toLE 4 psn)

/-- Send a NAK, counted in PRT_NAKS of the port the packet came by. -/
def sendNak (s : State) (cid port psn : Nat) (st : Status) (detail : Nat) : State :=
  sendStatus (setPort s port (fun r => { r with naks := satAdd (2 ^ 32 - 1) r.naks 1 })) cid psn st detail

/-- The message of a packet was refused somewhere, or placed under LEES (R225). -/
def markMessage (c : Conn) (resp : Bool) (msg : Nat) (lees refused : Bool) : Conn :=
  setRx c resp (fun r =>
    if r.msgs.any (fun m => m.1 == msg) then
      { r with msgs := mapIf (fun m => m.1 == msg) (fun m => (msg, m.2.1 || lees, m.2.2 || refused)) r.msgs }
    else { r with msgs := r.msgs ++ [(msg, lees, refused)] })

/-- Refuse a packet that has used its PSN: one NAK, kept among the last 32 refusals (R126, R167). -/
def refusePacket (s : State) (cid : Nat) (resp : Bool) (port psn msg : Nat) (st : Status) (detail : Nat) : State :=
  let keep (r : SeqRx) : SeqRx :=
    let l := r.refusals ++ [(psn, st, detail)]
    { r with refusals := l.drop (l.length - Config.refusalsKept) }
  sendNak (setConn s cid (fun c => markMessage (setRx c resp keep) resp msg false true)) cid port psn st detail

/-- A dropped packet, counted on its connection (R119, R120). -/
def dropPacket (s : State) (cid : Nat) : State := setConn s cid (fun c => { c with dropped := c.dropped + 1 })

/-! ### Windows of arriving packets (R131, R133, R134) -/

/-- The right an operation needs (R131 step 6, R158). -/
def rightOf (op : Nat) : Nat :=
  match op with
  | 0x01 => rightWrite
  | 0x02 => rightRead
  | 0x03 => rightWrite
  | 0x04 => rightAccumulate
  | 0x05 => rightAtomic
  | 0x07 => rightSend
  | _ => rightAccumulate

/-- The packet names a window (R116, R186). -/
def hasWindow (op : Nat) (w : WraPacket) : Bool :=
  match op with
  | 0x01 => true
  | 0x02 => true
  | 0x03 => true
  | 0x04 => true
  | 0x05 => true
  | 0x07 => w.key != Config.noticeKey && w.key != Config.replyKey
  | 0x0D => true
  | _ => false

/-- Bytes of the window that a packet reaches. -/
def reachOf (op : Nat) (w : WraPacket) : Nat :=
  match op with
  | 0x02 => field w.ext 4 4
  | 0x05 => 8
  | _ => w.payload.length

/-- Step 8: offset and payload in whole coordinates of the Cask (R118), and atomics on 8-byte words (R132).
A window whose base splits a coordinate admits no such packet (DEDUCED, notes/assumptions/24.md). -/
def alignedFor (s : State) (op : Nat) (w : WraPacket) (win : Window) : Bool :=
  match op with
  | 0x05 => (win.base + w.offset) % 8 == 0
  | _ =>
    if op = 0x04 ∨ op = 0x0D then
      match (if win.target = 0 then caskOf s win.owner win.object else none) with
      | some k => win.base % coordBytes k.ring == 0 && w.offset % coordBytes k.ring == 0 &&
          w.payload.length % coordBytes k.ring == 0
      | none => true
    else true

/-- The packet answers a READ that the connection issued, in the window the READ named: the Glove named that window
locally, and step 5 does not apply (R140, R166). -/
def answersIssued (c : Conn) (op : Nat) (w : WraPacket) : Bool :=
  op == 0x03 && c.issued.any (fun i => i.msg == w.msg && !i.atomic && i.key == w.key)

/-- Steps 3 to 8 of R131, then R370 and R468: the window, or the refusal. -/
def windowFor (s : State) (c : Conn) (op : Nat) (w : WraPacket) : Except (Status × Nat) Window :=
  if ¬ windowInRange s c.owner (w.key / 256) then .error (.accessViolation, 1)
  else match (windowOf s (w.key / 256)).filter (fun x => x.gen == w.key % 256) with
    | none => .error (.accessViolation, 2)
    | some win =>
      if ¬ (win.anyConn ∨ win.conn = c.id ∨ answersIssued c op w) then .error (.accessViolation, 3)
      else if ¬ win.rights.testBit (rightOf op) then .error (.accessViolation, 4)
      else if win.target ≠ 2 ∧ win.length < w.offset + reachOf op w then .error (.accessViolation, 5)
      else if win.target = 2 ∧ win.length < w.offset + w.payload.length then .error (.accessViolation, 5)
      else if ¬ alignedFor s op w win then .error (.accessViolation, 6)
      else if plaintextBarred s win then .error (.accessViolation, 7)
      else if mapsWithheld s win then .error (.badState, 0)
      else .ok win

/-- A window with one more violation: quiet within 10 µs of its last event, the first of those held back kept (R134). -/
def countViolation (quiet : Bool) (now : Nat) (first : Nat × Nat × Nat) (x : Window) : Window :=
  if quiet then { x with violations := x.violations + 1, uncounted := x.uncounted + 1, firstHeld := some first }
  else { x with violations := x.violations + 1, uncounted := 0, firstHeld := none, lastEvent := some now }

/-- A WINDOW_VIOLATION of a window, one that stands or the last revoked at its index: one event per 10 µs, the violations
in between counted in the next with the first of them (R134). -/
def windowViolation (s : State) (c : Conn) (w : WraPacket) (win : Window) : State :=
  let quiet := ((win.lastEvent).map (fun t => decide (s.clock.cycle < t + Config.tenMicroseconds))).getD false
  let first := win.firstHeld.getD (c.id, w.psn, w.offset)
  let upd := mapIf (fun x => x.index == win.index && x.gen == win.gen) (countViolation quiet s.clock.cycle first)
  let s1 := { s with windows := upd s.windows, revokedWins := upd s.revokedWins }
  if quiet then s1
  else
    postTo s1 win.eventQ (wraEvent s1 win.owner 0x0601 (statusWord .accessViolation) w.key first.1
      (min 65535 (win.uncounted + 1)) first.2.1 first.2.2)

/-- The record of a key that no window has had: its violations go to the Glove's event queue, as seldom as those of a
window (R134; DESIGN CHOICE, notes/assumptions/151.md). -/
def ghostWindow (s : State) (c : Conn) (key : Nat) : Window :=
  { index := key / 256, gen := key % 256, owner := c.owner, target := 0, rights := 0, anyConn := false, length := 0
    eventQ := (eventQueueOf s c.owner).getD (2 ^ 16) }

/-- Report a violation to the owner, or to the Vintner for an index outside the Glove's range. A stale key is reported to
the event queue that its window named; a key that was never given out has no window, and the Glove's event queue is told
of it (R133, R134, R136). -/
def reportViolation (s : State) (c : Conn) (w : WraPacket) (detail : Nat) : State :=
  let event (ctx : Nat) := postEvent s ctx
    (wraEvent s ctx 0x0601 (statusWord .accessViolation) w.key c.id 1 w.psn w.offset)
  match detail with
  | 1 => event vintner
  | 2 => match s.revokedWins.find? (fun x => x.index == w.key / 256 && x.gen == w.key % 256) with
    | some win => windowViolation s c w win
    | none => windowViolation { s with revokedWins := s.revokedWins ++ [ghostWindow s c w.key] } c w (ghostWindow s c w.key)
  | _ => match windowOf s (w.key / 256) with
    | some win => windowViolation s c w win
    | none => event c.owner

/-! ### Verdicts -/

/-- Steps 4 to 6 of R165 for ACCUMULATE (R162, R223). An index word with a reserved bit set is no client's, so it is refused as
an index too high (R117 reserves the bits and names no outcome; DESIGN CHOICE, notes/assumptions/152.md). -/
def judgeAccumulate (s : State) (c : Conn) (w : WraPacket) (stamp : PhaseWord) (win : Window) : Verdict :=
  match caskOf s win.owner win.object with
  | none => .refuse .badState 1
  | some k =>
    match vintageOf s win.owner k.vintage with
    | none => .refuse .badState 1
    | some v =>
      let u := field w.ext 0 4 % 2 ^ 22
      let count := field w.ext 4 4
      if v.state ≠ .opened ∨ v.c < stamp.count then .refuse .badState 1
      else if retracted (standingOf v u) then .refuse .badState 2
      else if k.rollback.isSome ∨ c.fences.any (fun f => f.1 == k.id && psnLe w.psn f.2) then .refuse .replayRequested 0
      else if v.clients ≤ field w.ext 0 4 then .refuse .badParam 1
      else if count = 0 ∨ caskCount k < count then .refuse .badParam 2
      else .place

/-- Steps 4 and 5 of R165 for PARTIAL (R158). -/
def judgePartial (s : State) (c : Conn) (w : WraPacket) (stamp : PhaseWord) (win : Window) : Verdict :=
  match caskOf s win.owner win.object with
  | none => .refuse .badState 1
  | some k =>
    match vintageOf s win.owner k.vintage with
    | none => .refuse .badState 1
    | some v =>
      if v.state ≠ .opened ∨ v.c < stamp.count then .refuse .badState 1
      else if k.rollback.isSome ∨ c.fences.any (fun f => f.1 == k.id && psnLe w.psn f.2) then .refuse .replayRequested 0
      else .place

/-- The queue a SEND goes to: its window's, or the connection's receive queue (R131, R186). -/
def sendTarget (c : Conn) (win : Option Window) : Nat :=
  match win with
  | some w => w.object
  | none => c.recvQ

/-- Slots a SEND needs in its queue (R502): a descriptor and the payload, or the packet's own slots. -/
def sendSlots (q : Queue) (n : Nat) : Nat := if q.kind = .command then ceilDiv n 64 else 1 + ceilDiv n 64

/-- A SEND is refused where its queue has no room (R502). -/
def judgeSend (s : State) (c : Conn) (w : WraPacket) (win : Option Window) : Verdict :=
  match queueOf s (sendTarget c win) with
  | some q => if q.state ≠ .destroying ∧ sendSlots q w.payload.length ≤ freeEntries q then .place else .refuse .noResource 1
  | none => .refuse .noResource 1

/-- A READ_REQ for no bytes, or an atomic function that R117 does not define, is refused with ST_BAD_PARAM
(DESIGN CHOICE, notes/assumptions/25.md). -/
def judgeRead (w : WraPacket) : Verdict := if field w.ext 4 4 = 0 then .refuse .badParam 0 else .place

def judgeAtomic (w : WraPacket) : Verdict :=
  if 1 < field w.ext 0 1 ∨ (field w.ext 0 1 = 0 ∧ field w.ext 16 8 ≠ 0) then .refuse .badParam 0 else .place

/-- Fields of the SHARD extension (R117). -/
def shardKind (w : WraPacket) : Nat := field w.ext 4 1
def shardMismatchFlag (w : WraPacket) : Bool := field w.ext 5 1 % 2 == 1
def shardIndexOf (w : WraPacket) : Nat := field w.ext 6 2
def shardTotal (w : WraPacket) : Nat := field w.ext 8 4

/-- A byte of a report or result is held. -/
def reportHolds (r : ShardReport) (i : Nat) : Bool := r.have_.any (fun h => h.1 ≤ i && i < h.1 + h.2)

/-- A byte already held for a shard index differs from the one arriving, however the reports are cut: a second report (R97). -/
def reportClash (v : Vintage) (w : WraPacket) : Bool :=
  v.reports.any (fun r => r.shard == shardIndexOf w &&
    (List.zip (List.range w.payload.length) w.payload).any (fun x =>
      reportHolds r (w.offset + x.1) && Sparse.get r.bytes (w.offset + x.1) != x.2.toNat))

/-- A SHARD packet is accepted for a sharded Vintage that the Glove holds, a REPORT at the lead and a RESULT
elsewhere (R97). -/
def judgeShard (s : State) (c : Conn) (w : WraPacket) : Verdict :=
  match vintageOf s c.owner (field w.ext 0 4) with
  | none => .refuse .badState 0
  | some v =>
    if v.shardCount ≤ 1 ∨ v.shardCount ≤ shardIndexOf w ∨ shardTotal w ≠ shardBytes v.clients ∨ terminalState v.state ∨
        shardTotal w < w.offset + w.payload.length then
      .refuse .badState 0
    else if shardKind w = 1 then
      if ¬ isLead s v ∨ shardIndexOf w = v.shardIndex ∨ reportClash v w then .refuse .badState 0 else .place
    else if shardKind w = 2 then
      if isLead s v ∨ shardIndexOf w ≠ v.shardIndex then .refuse .badState 0 else .place
    else .refuse .badState 0

/-- The fate of a packet that passed R131. -/
def judge (s : State) (c : Conn) (op : Nat) (w : WraPacket) (stamp : PhaseWord) (win : Option Window) : Verdict :=
  match op, win with
  | 0x04, some k => judgeAccumulate s c w stamp k
  | 0x0D, some k => judgePartial s c w stamp k
  | 0x07, k => judgeSend s c w k
  | 0x02, _ => judgeRead w
  | 0x05, _ => judgeAtomic w
  | 0x0F, _ => judgeShard s c w
  | _, _ => .place

end Sys2Proof.Machine
end

