-- ==== Sys2Proof/Machine/Placement.lean ====
section
/-! DEFINITION. Placement and visibility: the effect of a packet once its add, write or refusal is complete, the
visibility point and what becomes observable when it advances (R125, R126, R158, R166, R171, R182, R225, R502,
R97), and the row PACKET_PLACED. -/

set_option autoImplicit false

namespace Sys2Proof.Machine

/-! ### Effects at placement -/

/-- The window still stands as it was when the packet was checked. -/
def sameWindow (s : State) (w : Window) : Bool :=
  ((windowOf s w.index).map (fun x => x.gen == w.gen)).getD false

/-- A packet placed through a window counts in WINDOW_QUERY; a LEES client's packets wait for its Racking, a
withdrawn client's never count (R227). -/
def countPlaced (s : State) (w : Window) (client : Option (Nat × Standing)) : State :=
  if ¬ sameWindow s w then s
  else match client with
    | some (u, .lees) => setWindow s w.index (fun x => { x with hidden := Sparse.set x.hidden u (Sparse.get x.hidden u + 1) })
    | some (_, .racked) => countAccess s w
    | some _ => s
    | none => countAccess s w

/-- A connection has placed into a Cask (R102, R181, R239). -/
def notePlacer (s : State) (cid g cask : Nat) : State :=
  let s1 := setConn s cid (fun c =>
    if c.placedInto.contains cask then c else { c with placedInto := c.placedInto ++ [cask] })
  setCask s1 g cask (fun k => { k with
    placers := dedup (k.placers ++ [cid])
    placersCut := if k.inProgress.isSome then dedup (k.placersCut ++ [cid]) else k.placersCut })

/-- First coordinate that a packet reaches. -/
def firstCoord (k : Cask) (win : Window) (w : WraPacket) : Nat := (win.base + w.offset) / coordBytes k.ring

/-- The standing under which a client's packet is placed. No client is LEES once the Vintage has sealed (R223, R224,
R231). -/
def placedStanding (v : Vintage) (u : Nat) (spec : Bool) : Standing :=
  match standingOf v u with
  | .none => if ¬ spec then .racked else if v.state = .opened then .lees else .retracting
  | st => st

/-- Steps 7 and 8 of R165: the add with its fingerprints and digest, the standing, the tally, and the conflict
event (R165, R171, R172, R177, R223, R227, R233). Answers whether it was placed under LEES. -/
def placeAccumulate (s : State) (cid : Nat) (w : WraPacket) (win : Window) : State × Bool :=
  match caskOf s win.owner win.object with
  | none => (s, false)
  | some k =>
    match vintageOf s win.owner k.vintage with
    | none => (s, false)
    | some v =>
      let u := field w.ext 0 4
      let st := placedStanding v u w.spec
      let (t, clash) := tallyPlace (tallyOf k.tallies u) (field w.ext 4 4)
      let add (k : Cask) : Cask :=
        let k1 := placeValues v.printDraw false (some u) k (firstCoord k win w) (payloadValues k w.payload)
        flagGranules (firstCoord k win w) (payloadValues k w.payload).length { k1 with tallies := setTally k1.tallies t }
      let s0 := spillTouch s k (firstCoord k win w) (payloadValues k w.payload).length
      let s1 := setCask s0 win.owner k.id add
      let s2 := setVintage s1 win.owner v.id (fun v =>
        let v1 := if standingOf v u = .none then setStanding v u st else v
        if clash ∧ st = .lees then { v1 with heldConflicts := v1.heldConflicts ++ [(u, k.id)] } else v1)
      let s3 := if clash ∧ st = .racked then conflictEvent s2 win.owner v.id k.id u else s2
      (notePlacer (countPlaced s3 win (some (u, st))) cid win.owner k.id, decide (st = .lees))

/-- The partial tally of a source member after one more placed packet (R158). -/
def partialPlace (l : List PartialTally) (member survivors count origin : Nat) : List PartialTally :=
  match l.find? (fun t => t.member == member) with
  | none => l ++ [⟨member, 1, count, survivors, count == 0, origin⟩]
  | some t =>
    let clash := count ≠ t.expected ∨ survivors ≠ t.survivors ∨ t.expected < t.placed + 1
    mapIf (fun x => x.member == member) (fun x => { x with placed := x.placed + 1, conflict := x.conflict || clash }) l

/-- A PARTIAL packet is added, fingerprinted and counted for its source member (R158, R177). -/
def placePartial (s : State) (cid : Nat) (w : WraPacket) (win : Window) : State :=
  match caskOf s win.owner win.object with
  | none => s
  | some k =>
    match vintageOf s win.owner k.vintage with
    | none => s
    | some v =>
      let member := (w.trellis.map (fun t => t.source)).getD 0
      let origin := (w.trellis.map (fun t => t.origin)).getD 0
      let tally (l : List PartialTally) := partialPlace l member (field w.ext 0 4) (field w.ext 4 4) origin
      let add (k : Cask) : Cask :=
        let k1 := placeValues v.printDraw false none k (firstCoord k win w) (payloadValues k w.payload)
        flagGranules (firstCoord k win w) (payloadValues k w.payload).length
          { k1 with partials := tally k1.partials }
      let s0 := spillTouch s k (firstCoord k win w) (payloadValues k w.payload).length
      notePlacer (countPlaced (setCask s0 win.owner k.id add) win none) cid win.owner k.id

/-- The message of a READ or ATOMIC is complete (R126). -/
def finishIssued (s : State) (c : Conn) (i : Issued) (status detail : Nat) : State :=
  let s1 := setConn s c.id (fun c => { c with
    issued := c.issued.filter (fun x => x.msg != i.msg)
    failures := c.failures + (if statusClass status = 0 then 0 else 1) })
  completeRequest s1 c.owner i.wr.1 i.wr.2.1 i.wr.2.2 status detail (if i.atomic then 5 else 2)
    (if statusClass status = 0 then i.total else 0) c.id

/-- A response reaches the window of its request (R123, R166). -/
def placeResponse (s : State) (c : Conn) (f : Inflight) : State :=
  match c.issued.find? (fun i => i.msg == f.pkt.msg) with
  | none => s
  | some i =>
    let win := if f.op = 0x03 then f.win
      else (windowOf s (i.key / 256)).filter (fun w => w.gen == i.key % 256)
    let bytes := if f.op = 0x03 then f.pkt.payload else f.pkt.ext.take 8
    let off := if f.op = 0x03 then f.pkt.offset else i.offset
    match win with
    | none => finishIssued s c i (statusWord .accessViolation) 2
    | some w =>
      if plaintextBarred s w then finishIssued s c i (statusWord .accessViolation) 7
      else match windowStore s w off bytes with
      | .error f => finishIssued (dmaReport s c.owner f) c i (statusWord (dmaStatus f.cause)) 0
      | .ok s1 =>
        let s2 := countPlaced s1 w none
        let left := i.left - bytes.length
        if left = 0 then finishIssued s2 c i 0 0
        else setConn s2 c.id (fun c => { c with
          issued := mapIf (fun x => x.msg == i.msg) (fun x => { x with left := left }) c.issued })

/-- The bytes of a SHARD packet that are not held yet join a report or result. -/
def storeShard (w : WraPacket) (r : ShardReport) : ShardReport :=
  let fresh := (List.zip (List.range w.payload.length) w.payload).filter (fun x => !reportHolds r (w.offset + x.1))
  let have_ := r.have_ ++ (if fresh.length = w.payload.length then [(w.offset, w.payload.length)]
    else fresh.map (fun x => (w.offset + x.1, 1)))
  { r with
    bytes := fresh.foldl (fun m x => Sparse.set m (w.offset + x.1) x.2.toNat) r.bytes
    have_ := have_
    complete := r.total ≤ sumOf Prod.snd have_ }

/-- Bytes of a SHARD packet are stored; a whole REPORT lets the lead try the exchange, a whole RESULT fixes
the survivor set or the mismatch, and one that says MISMATCH sets it also where an earlier RESULT had fixed the set (R96,
R97). -/
def placeShard (s : State) (c : Conn) (w : WraPacket) : State :=
  match vintageOf s c.owner (field w.ext 0 4) with
  | none => s
  | some v =>
    let blank : ShardReport := {
      shard := shardIndexOf w, conn := c.id, bytes := [], have_ := [], total := shardTotal w, complete := false, msg := w.msg }
    if shardKind w = 1 then
      let old := v.reports.find? (fun r => r.shard == shardIndexOf w)
      if (old.map (fun r => r.complete && r.conn != c.id)).getD false then s
      else
        let r := storeShard w (old.getD blank)
        let s1 := setVintage s c.owner v.id (fun v => { v with
          reports := v.reports.filter (fun x => x.shard != r.shard) ++ [r] })
        if r.complete ∧ v.shardMismatch then sendShard s1 c.id v 2 r.shard true (shardPayload v.shardDigest v.clients [])
        else if r.complete then tryExchange s1 c.owner v.id else s1
    else
      let r := storeShard w ((v.result.filter (fun r => r.msg == w.msg)).getD blank)
      let s1 := setVintage s c.owner v.id (fun v => { v with result := some r })
      if ¬ r.complete ∨ v.shardMismatch ∨ ¬ (v.state = .sealedV ∨ v.state = .unmasking) then s1
      else if shardMismatchFlag w then setVintage s1 c.owner v.id (fun v => { v with shardMismatch := true })
      else if v.survivorsFixed then s1
      else fixSurvivors s1 c.owner v.id (reportClients r v.clients)

/-- A request whose host memory cannot be read is refused late (R362, R368). -/
def placeRefused (s : State) (c : Conn) (f : Inflight) (r : ReadFail) : State :=
  refusePacket (dmaReport s c.owner r) c.id false f.pkt.port f.psn f.pkt.msg (dmaStatus r.cause) 0

/-- A packet accepted before the Glove became confidential names a plaintext window: no access is made (R370). -/
def placeBarred (s : State) (c : Conn) (f : Inflight) : State :=
  refusePacket s c.id false f.pkt.port f.psn f.pkt.msg .accessViolation 7

/-- The effect of one packet at its placement, and whether it was placed under LEES. -/
def placeEffect (s : State) (c : Conn) (f : Inflight) : State × Bool :=
  match f.op, f.win with
  | 0x01, some w =>
    if plaintextBarred s w then (placeBarred s c f, false)
    else match windowStore s w f.pkt.offset f.pkt.payload with
    | .ok s1 => (countPlaced s1 w none, false)
    | .error cause => (placeRefused s c f cause, false)
  | 0x04, some w => placeAccumulate s c.id f.pkt w
  | 0x0D, some w => (placePartial s c.id f.pkt w, false)
  | 0x03, _ => (placeResponse s c f, false)
  | 0x06, _ => (placeResponse s c f, false)
  | 0x0F, _ => (placeShard s c f.pkt, false)
  | _, _ => (s, false)

/-! ### What becomes observable (R125) -/

/-- The descriptor of a SEND (R502). -/
def sendDescriptor (c : Conn) (f : Inflight) : List Byte :=
  let n := f.pkt.payload.length
  toLE 2 n ++ toLE 2 (1 + ceilDiv n 64) ++ toLE 2 c.id ++ toLE 2 c.incarnation ++ toLE 4 f.psn ++ toLE 4 f.pkt.msg ++
    toLE 4 f.pkt.key ++ toLE 4 (if f.pkt.trigger then f.pkt.trigTag else 0) ++ toLE 1 (b2n f.pkt.trigger) ++ zeros 7 ++
    phaseBytes f.stamp ++ toLE 8 f.pkt.offset ++ zeros 16

/-- Payload in 64-byte slots, the last padded with zeros. -/
def payloadSlots (bytes : List Byte) : List (List Byte) := (pieces 64 bytes).map (padTo 64)

/-- A SEND is delivered into the slots it reserved: a receive queue gets a descriptor and the payload, and a
receive-side completion is posted; a connection-bound command queue gets the packet's slots (R27, R141, R502). -/
def deliverSend (s : State) (c : Conn) (f : Inflight) : State :=
  match queueOf s (sendTarget c f.win) with
  | none => s
  | some q =>
    let n := sendSlots q f.pkt.payload.length
    let s1 := setQueue s q.id (fun q => { q with reserved := q.reserved - n })
    if q.owner < 16 ∧ (gloveOf s q.owner).flrEnded then s1
    else if q.kind = .command then
      (payloadSlots f.pkt.payload).foldl (fun s e =>
        match queueOf s q.id with
        | some q => setQueue (storeEntry s q e) q.id (fun q => { q with slots := q.slots ++ [e], prod := (q.prod + 1) % 2 ^ 32 })
        | none => s) s1
    else
      let s2 := (sendDescriptor c f :: payloadSlots f.pkt.payload).foldl (fun s e =>
        match queueOf s q.id with
        | some q => pushEntry s q e
        | none => s) s1
      postCompletion s2 c.owner 0 0 0 0x07 f.pkt.payload.length c.id

/-- Answer a visible READ_REQ: its bytes go to the response window it named, or a NAK (R117, R362, R368). -/
def answerRead (s : State) (c : Conn) (f : Inflight) (w : Window) : State :=
  if plaintextBarred s w then placeBarred s c f
  else match windowBytes s w f.pkt.offset (field f.pkt.ext 4 4) with
  | .error cause => placeRefused s c f cause
  | .ok (bytes, s1) =>
    let parts := pieces 4096 bytes
    (List.zip (List.range parts.length) parts).foldl (fun s x =>
      submit s c.id {
        psn := 0, op := 0x03, timerUs := c.minTimer
        pkt := { port := 0, conn := 0, incarnation := 0, first := x.1 == 0, last := x.1 + 1 == parts.length,
                 msg := f.pkt.msg, key := field f.pkt.ext 0 4, offset := field f.pkt.ext 8 8 + 4096 * x.1, payload := x.2 } })
      (countPlaced s1 w none)

/-- The word an ATOMIC leaves (R117). -/
def atomicResult (ext : List Byte) (old : Nat) : Nat :=
  if field ext 0 1 = 0 then (old + field ext 8 8) % 2 ^ 64
  else if old = field ext 8 8 then field ext 16 8 else old

/-- Perform a visible ATOMIC and return the previous value (R117). -/
def answerAtomic (s : State) (c : Conn) (f : Inflight) (w : Window) : State :=
  if plaintextBarred s w then placeBarred s c f
  else match windowBytes s w f.pkt.offset 8 with
  | .error cause => placeRefused s c f cause
  | .ok (bytes, s1) =>
    match windowStore s1 w f.pkt.offset (toLE 8 (atomicResult f.pkt.ext (leNat bytes))) with
    | .error cause => placeRefused s1 c f cause
    | .ok s2 => submit (countPlaced s2 w none) c.id {
        psn := 0, op := 0x06, timerUs := c.minTimer
        pkt := { port := 0, conn := 0, incarnation := 0, first := true, last := true, msg := f.pkt.msg, ext := bytes } }

/-- The PARTIAL packets of a connection that went to the reducer's Cask of a notice: all of them where they name one window,
else those whose local Cask has its ID (DESIGN CHOICE, notes/assumptions/26.md). -/
def noticeCovers (c : Conn) (cask : Nat) (x : SentPartial) : Bool :=
  (dedup (c.sentPartials.map (fun y => y.pkt.key))).length ≤ 1 || x.cask == cask

/-- A PARTIAL packet is sent again from the contributing Cask, the copy that R160 retains; nothing of a Cask that is gone. -/
def resendPartial (cid minTimer g : Nat) (s : State) (x : SentPartial) : State :=
  match caskOf s g x.cask with
  | none => s
  | some k =>
    let (msg, s1) := takeMsg s cid
    submit s1 cid {
      psn := 0, op := 0x0D, timerUs := minTimer, cask := x.cask, pos := x.pos
      pkt := { x.pkt with first := true, last := true, msg := msg, payload := Memory.readN k.data x.pos x.pkt.payload.length } }

/-- A RACK_SAFE notice releases the partials it covers, a REPLAY notice has them sent again, each once (R160, R183). -/
def obeyNotice (s : State) (c : Conn) (payload : List Byte) : State :=
  let kind := field payload 0 1
  let flags := field payload 1 1
  let cask := field payload 2 2
  let vcut := field payload 12 4
  let e := field payload 16 4
  let bitmap := field payload 64 512
  if ¬ c.trellis then s
  else if kind = 1 then
    setConn s c.id (fun c => { c with sentPartials := c.sentPartials.filter (fun x => !(noticeCovers c cask x && psnLe x.psn vcut)) })
  else if kind = 2 then
    let lost (x : SentPartial) : Bool :=
      noticeCovers c cask x &&
        (x.refused == statusWord .replayRequested ||
         (x.refused == 0 && psnLe x.psn e &&
           (flags % 2 == 1 || (!psnLe x.psn vcut && !bitmap.testBit (circle 32 x.psn vcut - 1)))))
    let again := c.sentPartials.filter lost
    let s1 := setConn s c.id (fun c => { c with sentPartials := c.sentPartials.filter (fun x => !lost x) })
    again.foldl (resendPartial c.id c.minTimer c.owner) s1
  else s

/-- The Vintage and client of an ACCUMULATE packet that is LEES now: its message shows nowhere but on its connection
(R226). -/
def leesClient (s : State) (f : Inflight) : Option (Vintage × Nat) :=
  if f.op ≠ 0x04 then none
  else (f.win.bind (fun w => (caskOf s w.owner w.object).bind (fun k => vintageOf s w.owner k.vintage))).bind (fun v =>
    if standingOf v (field f.pkt.ext 0 4) = .lees then some (v, field f.pkt.ext 0 4) else none)

/-- The message of a visible LAST packet is over: ST_PLACED_SPEC goes out where some packet was placed under
LEES and none was refused; its window's counting queue counts it and its tag fires, for a Lees message once its client is
Racked (R142, R143, R225, R226). -/
def endMessage (s : State) (c : Conn) (f : Inflight) : State :=
  let resp := isResponse f.op
  let m := ((connRx c resp).msgs.find? (fun m => m.1 == f.pkt.msg)).getD (f.pkt.msg, false, false)
  let s1 := setConn s c.id (fun c => setRx c resp (fun r => { r with msgs := r.msgs.filter (fun x => x.1 != f.pkt.msg) }))
  if m.2.2 then s1
  else
    let s2 := if m.2.1 then sendStatus s1 c.id f.psn .placedSpec 0 else s1
    let held : Nat × Option Nat × Option Nat := (field f.pkt.ext 0 4, f.win.bind (fun w => if w.countOn then some w.countQ else none),
      if f.pkt.trigger then some f.pkt.trigTag else none)
    match (if m.2.1 then leesClient s2 f else none) with
    | some (v, _) => setVintage s2 v.glove v.id (fun v => { v with heldMessages := v.heldMessages ++ [held] })
    | none => showHeld s2 c.owner held

/-- What one packet makes observable as V reaches it. -/
def showPacket (s : State) (cid : Nat) (f : Inflight) : State :=
  match connOf s cid with
  | none => s
  | some c =>
    let s1 := if f.verdict ≠ .place then s
      else match f.op, f.win with
        | 0x07, none =>
          let s1 := deliverSend s c f
          if f.pkt.key = Config.noticeKey then obeyNotice s1 c f.pkt.payload else s1
        | 0x07, some w => countPlaced (deliverSend s c f) w none
        | 0x02, some w => answerRead s c f w
        | 0x05, some w => answerAtomic s c f w
        | _, _ => s
    if f.pkt.last then
      match connOf s1 cid with
      | some c1 => endMessage s1 c1 f
      | none => s1
    else s1

/-- A SEND whose delivery posts a completion waits while the Glove's completion queue is full (R77, R141). -/
def deliveryStalled (s : State) (c : Conn) (f : Inflight) : Bool :=
  f.op == 0x07 && f.verdict == .place && completionsStalled s c.owner &&
    (((queueOf s (sendTarget c f.win)).map (fun q => q.kind != .command)).getD false)

/-- Advance V while the next PSN is used and complete, with fuel for the bitmap's length (R166). -/
def advance : Nat → State → Nat → Bool → State
  | 0, s, _, _ => s
  | n + 1, s, cid, resp =>
    match connOf s cid with
    | none => s
    | some c =>
      let rx := connRx c resp
      let next := psnAdd rx.v 1
      match rx.flight.find? (fun f => f.psn == next) with
      | some f =>
        if f.complete ∧ rx.bitmap.getLsbD 0 ∧ ¬ deliveryStalled s c f then
          let step (r : SeqRx) : SeqRx := { r with
            v := next, bitmap := r.bitmap >>> 1, flight := r.flight.filter (fun x => x.psn != next), sinceAck := r.sinceAck + 1 }
          advance n (showPacket (setConn s cid (fun c => setRx c resp step)) cid f) cid resp
        else s
      | none => s

/-- Fences whose E the visibility point has reached go (R182). -/
def dropFences (c : Conn) : Conn := { c with fences := c.fences.filter (fun f => !psnLe f.2 c.req.v) }

/-- An ACK goes out where a packet asked for one, or 16 packets have become visible since the last (R127). -/
def ackWhenDue (s : State) (cid : Nat) (resp asked : Bool) : State :=
  if asked || ((connOf s cid).map (fun c => decide (16 ≤ (connRx c resp).sinceAck))).getD false then sendAck s cid resp else s

/-- Deliveries that waited for room in the completion queue go on (R77). -/
def resumeDeliveries (s : State) (g : Nat) : State :=
  (s.conns.filter (fun c => c.owner == g && c.req.flight.any (fun f => f.complete))).foldl (fun s c =>
    ackWhenDue (setConn (advance Config.creditWindow s c.id false) c.id dropFences) c.id false false) s

/-- The slots of a packet's Glove run its work: the Glove is ACTIVE, and where the packet goes into a Cask no restripe is
under way (R330, R457). -/
def placeable (s : State) (g : Nat) (f : Inflight) : Bool :=
  (gloveOf s g).state == .active && !((gloveOf s g).restriping && ((f.win.map (fun w => w.target == 0)).getD false))

/-- PACKET_PLACED: the add, write, atomic or refusal of a packet in progress is complete. An ACK goes out where the packet
asked for one, or 16 packets have become visible since the last (R127). -/
def execPacketPlaced (conn space psn : Nat) (s : State) : Host.Outcome State Fault Refusal :=
  let resp := space == 1
  match connOf s conn with
  | none => .next s
  | some c =>
    match (connRx c resp).flight.find? (fun f => f.psn == psn && !f.complete && placeable s c.owner f) with
    | none => .next s
    | some f =>
      let (s1, lees) := if f.verdict = .place then placeEffect s c f else (s, false)
      let done (r : SeqRx) : SeqRx :=
        { r with flight := mapIf (fun x => x.psn == psn) (fun x => { x with complete := true, lees := lees }) r.flight }
      let s2 := setConn s1 conn (fun c =>
        let c1 := setRx c resp done
        if lees then markMessage c1 resp f.pkt.msg true false else c1)
      let s3 := setConn (advance Config.creditWindow s2 conn resp) conn dropFences
      .next (unlessStalled s (settleEnds (settleRevokes (ackWhenDue s3 conn resp f.pkt.ackReq))))

end Sys2Proof.Machine
end

