-- ==== Sys2Proof/Machine/Power.lean ====
section
/-! DEFINITION. Power, cooling and tamper: the power states (R471 to R476, R493 to R496), throttling and telemetry (R477
to R481, R500, R501), the tamper response (R399, R400), the loss of VBAT (R68) and the commands 0x0D02 and 0x0D03. -/

set_option autoImplicit false

namespace Sys2Proof.Machine

def setPwr (s : State) (f : Power → Power) : State := { s with pwr := f s.pwr }

/-! ### Power states (R493) -/

/-- The converters stop (R476): the logic side is gone, and the module is in another state. -/
def stopConverters (s : State) (st : PowerState) : State :=
  loseLogic (setPwr s (fun p => { p with state := st, pwrGood := false }))

/-- AUX_RISE: the calendar runs again (R68); with 48 V present the module goes on to STANDBY. -/
def execAuxRise (s : State) : Host.Outcome State Fault Refusal :=
  if s.pwr.state = .off then
    let s1 := setPwr s (fun p => { p with state := if p.inputGood then .standby else .aux, auxPresent := true })
    .next { s1 with cal := { s1.cal with stopped := false } }
  else .next s

/-- AUX_LOSS: calendar and tamper monitor go on from VBAT (R472), the cap returns to 1,900 W (R501), and what the
auxiliary domain held is gone. -/
def execAuxLoss (s : State) : Host.Outcome State Fault Refusal :=
  if s.pwr.auxPresent then
    let s1 := setPwr (stopConverters s .off) (fun p => { p with
      auxPresent := false, cap := Config.defaultCap, capNext := none, tripCause := 0, thermtrip := false })
    .next { s1 with side := { s1.side with address := none } }
  else .next s

/-- INPUT_POWER_RISE. -/
def execInputPowerRise (s : State) : Host.Outcome State Fault Refusal :=
  .next (setPwr s (fun p => { p with inputGood := true, state := if p.state = .aux then .standby else p.state }))

/-- INPUT_POWER_LOSS (R476). -/
def execInputPowerLoss (s : State) : Host.Outcome State Fault Refusal :=
  let s1 := setPwr s (fun p => { p with inputGood := false })
  match s.pwr.state with
  | .on => .next (stopConverters s1 .aux)
  | .standby => .next (setPwr s1 (fun p => { p with state := .aux }))
  | _ => .next s1

/-- PWR_EN_RISE: in STANDBY the converters start, and PERST_N is held (R494, R495). -/
def execPwrEnRise (s : State) : Host.Outcome State Fault Refusal :=
  let s1 := setPwr s (fun p => { p with pwrEn := true })
  if s.pwr.state = .standby then
    .next (loseLogic (setPwr s1 (fun p => { p with state := .on, pwrGood := false, perst := true })))
  else .next s1

/-- PWR_GOOD: the rails are in regulation, for 100 ms: a deassertion of PERST_N that came earlier is taken now (R494, R495;
DESIGN CHOICE, notes/assumptions/166.md). -/
def execPwrGood (s : State) : Host.Outcome State Fault Refusal :=
  let s1 := setPwr s (fun p => { p with pwrGood := true })
  .next (if ¬ powered s then s else if s.pwr.perst ∧ s.pwr.perstEarly then releasePerst s1 else s1)

/-- PWR_EN_FALL (R476). -/
def execPwrEnFall (s : State) : Host.Outcome State Fault Refusal :=
  let s1 := setPwr s (fun p => { p with pwrEn := false })
  .next (if powered s then stopConverters s1 .standby else s1)

def tripCode : TripCause → Nat
  | .junction => 1
  | .inlet => 2
  | .flow => 3
  | .overVoltage => 4

/-- TRIP (R481). -/
def execTrip (cause : TripCause) (s : State) : Host.Outcome State Fault Refusal :=
  .next (if powered s then
    setPwr (stopConverters s .tripped) (fun p => { p with tripCause := tripCode cause, thermtrip := true }) else s)

/-- TRIP_RECOVER: PWR_EN has been low for 1 s. -/
def execTripRecover (s : State) : Host.Outcome State Fault Refusal :=
  .next (if s.pwr.state = .tripped ∧ ¬ s.pwr.pwrEn then
    setPwr s (fun p => { p with state := if p.inputGood then .standby else .aux, thermtrip := false }) else s)

/-! ### Throttling and the calendar second (R478, R479, R500, R501) -/

/-- Level and cause bit of a condition (R478, TEL_THROTTLE.CAUSE). -/
def throttleLevel : ThrottleCond → Nat × Nat
  | .power again => (if again then 2 else 1, 2)
  | .peak => (2, 3)
  | .vat95 => (1, 4)
  | .vat100 => (2, 4)
  | .inlet => (1, 5)
  | .flow => (1, 6)

/-- Bits of TEL_THROTTLE[7:2] stand at their register positions. -/
def addCause (causes bit : Nat) : Nat := causes ||| 2 ^ bit

/-- THROTTLE_RAISE. -/
def execThrottleRaise (cond : ThrottleCond) (s : State) : Host.Outcome State Fault Refusal :=
  let (level, bit) := throttleLevel cond
  .next (if powered s then
    setPwr s (fun p => { p with
      level := max p.level level, causes := addCause p.causes bit, throttled := true
      thrCount := satAdd (2 ^ 32 - 1) p.thrCount (if p.level < level then 1 else 0) }) else s)

/-- The level after a second: 0 once every exit condition has held throughout it. That of the power uses the cap in force from
this boundary on (R501). -/
def lowerThrottle (r : SecondReadings) (p : Power) : Power :=
  let free := decide (r.watts + 100 ≤ p.capNext.getD p.cap) && r.junctionExit && r.inletExit && r.flowExit
  if free then { p with level := 0, causes := 0 } else p

/-- A new cap takes effect. -/
def applyCap (p : Power) : Power :=
  match p.capNext with
  | some c => { p with cap := c, capNext := none, causes := if c < p.cap then addCause p.causes 7 else p.causes }
  | none => p

/-- The readings of the second. The power of its last millisecond is free, and no higher than the highest. -/
def readSecond (r : SecondReadings) (draw : Nat) (p : Power) : Power := { p with
  vin := r.millivolts, iin := r.amps10m, pinMs := Config.lastMs draw % (r.peakMs % 2 ^ 12 + 1), pinSec := r.watts, pinPeak := max p.pinPeak r.peakMs
  inlet := r.inlet, outlet := r.outlet, vatTj := r.vatTj, hubTj := r.hubTj, flow := r.flow, auxMv := r.auxMv, vbatMv := r.vbatMv }

/-- CALENDAR_SECOND. -/
def execCalendarSecond (readings : SecondReadings) (s : State) : Host.Outcome State Fault Refusal :=
  if s.pwr.auxPresent then
    let (d, s1) := drawFree s
    let reported := s1.pwr.throttled
    let s2 := setPwr s1 (fun p =>
      let p1 := applyCap (lowerThrottle readings p)
      { readSecond readings d p1 with reported := reported, throttled := p1.level != 0 })
    .next { s2 with cal := { s2.cal with vbatLow := readings.vbatMv < 2700 }, int := ageHistory d s2.int }
  else .next s

/-! ### Tamper and VBAT (R68, R399, R400) -/

/-- The Root Store loses its contents. -/
def zeroRoots (s : State) (bit : Nat) : State :=
  { s with keys := { s.keys with roots := [], tenantRoot := none, zeroized := true, tamper := s.keys.tamper ||| (1#6 <<< bit) } }

/-- Bit of KEY_TAMPER. -/
def tamperBit : TamperSource → Nat
  | .mesh => 0
  | .caseSwitch => 1
  | .voltage => 2
  | .temperature => 3
  | .light => 4

/-- Mesh and case switch are wired on LQ960-F alone (R399). -/
def wired (s : State) (t : TamperSource) : Bool := 2 ≤ tamperBit t || s.fw.ordering == 1

/-- TAMPER_TRIP: the Root Store is zeroed; in ON every slot, data key and session key too, and a full reset follows. -/
def execTamperTrip (source : TamperSource) (s : State) : Host.Outcome State Fault Refusal :=
  if wired s source ∧ ¬ s.cal.stopped then
    let s1 := zeroRoots { s with cal := { s.cal with tamperSeen := true } } (tamperBit source)
    .next (if powered s then fullReset s1 else s1)
  else .next s

/-- VBAT_LOSS: the calendar stops and the Root Store is lost. -/
def execVbatLoss (s : State) : Host.Outcome State Fault Refusal :=
  if s.pwr.auxPresent then .next s
  else
    let s1 := zeroRoots s 5
    .next { s1 with cal := { s1.cal with stopped := true, ms := 0, valid := false, lost := true } }

/-! ### Registers and commands -/

def powerCode : PowerState → Nat
  | .off => 0
  | .aux => 1
  | .standby => 2
  | .on => 3
  | .tripped => 4

/-- GBL_PWR. -/
def regPwr (p : Power) : Nat := powerCode p.state + 8 * (p.slotId % 8) + 2 ^ 8 * p.tripCause

/-- TEL_TEMP. -/
def regTemp (p : Power) : Nat := p.inlet % 256 + 2 ^ 8 * (p.outlet % 256) + 2 ^ 16 * (p.vatTj % 256) + 2 ^ 24 * (p.hubTj % 256)

/-- TEL_THROTTLE. -/
def regThrottle (p : Power) : Nat := p.level + p.causes % 256 + 2 ^ 8 * b2n p.reported

def cmdModuleStatus : Cmd where
  op := 0x0D02
  sideband := true
  issuer := .vintner
  aux := true
  form p _ := formError p (p.len = 0) false []
  body _ s :=
    let p := s.pwr
    .ok (s, okWith (regPwr p) (p.pinSec % 2 ^ 12 + 2 ^ 16 * (p.cap % 2 ^ 12)) (regTemp p)
      (p.flow % 2 ^ 16 + 2 ^ 16 * (regThrottle p % 2 ^ 9)))

/-- MODULE_STATUS. -/
def execModuleStatus (p : Packet) (s : State) : Host.Outcome State Fault Refusal := runCmd cmdModuleStatus p s

def cmdPowerCapSet : Cmd where
  op := 0x0D03
  sideband := true
  issuer := .vintner
  aux := true
  form p _ := formError p (p.len = 8) false [(0, 1000 ≤ p.u16 0 && p.u16 0 ≤ 1900), (2, p.num 2 6 == 0)]
  body p s := .ok (setPwr s (fun x => { x with capNext := some (p.u16 0) }), okWith s.pwr.cap)

/-- POWER_CAP_SET. -/
def execPowerCapSet (p : Packet) (s : State) : Host.Outcome State Fault Refusal := runCmd cmdPowerCapSet p s

end Sys2Proof.Machine
end

