-- ==== Sys2Proof/Machine/Wra.lean ====
section
/-! DEFINITION. The WRA rows: packets arriving at a port (R115 to R131, R145 to R149, R165 to R167), connection
states (R119 to R121), acknowledgments and retransmission (R127 to R130), and the timers of a connection. -/

set_option autoImplicit false

namespace Sys2Proof.Machine

/-! ### Sequencing -/

/-- Units of the miss buffer that a parked packet takes: its header and payload in 256-byte units (R145). -/
def missUnits (w : WraPacket) : Nat := ceilDiv (32 + w.ext.length + w.payload.length) Config.missUnit

def missUsed (s : State) (g : Nat) : Nat :=
  sumOf (fun c => if c.owner = g then sumOf (fun p => missUnits p.pkt) c.parked else 0) s.conns

/-- A packet for a spilled context is parked with its stamp, or dropped (R145, R146, R336). The Glove's part of
the miss buffer counts units of 64 KiB. -/
def parkPacket (s : State) (c : Conn) (op : Nat) (w : WraPacket) (stamp : PhaseWord) (win : Option Window) : State :=
  let s1 := startFetch s c.id
  let fetching := ((connOf s1 c.id).map (fun x => x.fetching)).getD false
  if Config.parkedPerConn ≤ c.parked.length ∨ (gloveOf s c.owner).cfg.miss * 256 < missUsed s c.owner + missUnits w ∨ ¬ fetching then
    { s with net := { s.net with missDrop := satAdd (2 ^ 32 - 1) s.net.missDrop 1 } }
  else setConn s1 c.id (fun c => { c with parked := c.parked ++ [{ op := op, pkt := w, stamp := stamp, win := win }] })

/-! ### The Glove's ingress share (R88, R130, R170, R333) -/

/-- Bytes of a packet in the ingress buffer: items 1 to 6 of R115. -/
def packetBytes (w : WraPacket) : Nat :=
  32 + (if w.trellis.isSome then 8 else 0) + w.ext.length + w.payload.length + (if w.sealedP then 24 else 4)

/-- Bytes of a Glove's share of a port's ingress buffer that its arrivals occupy: packets accepted and still to be placed. -/
def ingressUsed (s : State) (g port : Nat) : Nat :=
  sumOf (fun c => if c.owner = g then
    sumOf (fun f => if !f.complete && f.pkt.port == port then packetBytes f.pkt else 0) (c.req.flight ++ c.resp.flight) else 0) s.conns

/-- An operation of the response class (R75, R117). -/
def responseClass (op : Nat) : Bool := isResponse op || op == 0x08 || op == 0x09 || op == 0x0B

/-- The share is full for a packet. The Trellis ports have no Glove shares (R333). A response has buffers of its own class
and is not held to it (R75; DEDUCED, notes/assumptions/126.md). -/
def ingressFull (s : State) (g op : Nat) (w : WraPacket) : Bool :=
  w.port < 8 && !responseClass op &&
    Config.ingressUnit * ((gloveOf s g).cfg.shares.getD w.port {}).ingress < ingressUsed s g w.port + packetBytes w

/-- An arrival is treated as congestion-marked: by its codepoint, or by the occupancy of its Glove's share (R130). -/
def marked (s : State) (g : Nat) (w : WraPacket) : Bool :=
  w.ce || decide (1024 * (portOf s w.port).markKib < ingressUsed s g w.port)

/-- The CE path of a marked arrival is kept for the next ACK of its space (R127, R130). -/
def noteCe (s : State) (c : Conn) (op : Nat) (w : WraPacket) : State :=
  if marked s c.owner w then
    setConn s c.id (fun c => setRx c (isResponse op) (fun r => { r with cePaths := r.cePaths ||| (1#256 <<< (w.path % 256)) }))
  else s

/-- A drop that PRT_RX_DROP.CREDIT counts (R128, R170). -/
def dropCredited (s : State) (port : Nat) : State := setPort s port (fun r => { r with dropCredit := satAdd 65535 r.dropCredit 1 })

/-- A PSN that its sender sent again although it is used: the sender has seen no ACK of it, so one goes out within 10 µs, and
at once where the packet asks for it (R127, R151). -/
def ackAgain (s : State) (cid : Nat) (resp : Bool) (w : WraPacket) : State :=
  let s1 := setConn s cid (fun c => setRx c resp (fun r => { r with duplicates := r.duplicates + 1, again := true }))
  if w.ackReq then sendAck s1 cid resp else s1

/-- A duplicate is counted; the NAK of a refused PSN among the last 32 goes out again (R167), and an ACK. -/
def duplicatePacket (s : State) (c : Conn) (op : Nat) (w : WraPacket) : State :=
  let resp := isResponse op
  ackAgain (match (connRx c resp).refusals.find? (fun r => r.1 == w.psn) with
    | some r => sendNak s c.id w.port w.psn r.2.1 r.2.2
    | none => s) c.id resp w

/-- Room a placed SEND reserves in its queue (R502). -/
def reserveSend (s : State) (c : Conn) (w : WraPacket) (win : Option Window) : State :=
  setQueue s (sendTarget c win) (fun q => { q with reserved := q.reserved + sendSlots q w.payload.length })

/-- Take a new PSN: its bit is set, its fate decided, and a refusal answered at once (R126, R165, R166). -/
def takePsn (s : State) (c : Conn) (op : Nat) (w : WraPacket) (stamp : PhaseWord) (win : Option Window) (v : Verdict) :
    State :=
  let resp := isResponse op
  let f : Inflight := { psn := w.psn, op := op, pkt := w, stamp := stamp, verdict := v, win := win }
  let take (r : SeqRx) : SeqRx := { r with
    bitmap := r.bitmap ||| (1#4096 <<< (circle 32 w.psn r.v - 1))
    flight := r.flight ++ [f]
    highest := some (match r.highest with | some h => if psnLe h w.psn then w.psn else h | none => w.psn) }
  let s1 := setConn s c.id (fun c => setRx c resp take)
  match v with
  | .refuse st detail => refusePacket s1 c.id resp w.port w.psn w.msg st detail
  | .place => if op = 0x07 then reserveSend s1 c w win else s1

/-- A response is accepted only where it matches a request, once each: a READ_RESP by its window and range too (R166). -/
def matchesIssued (c : Conn) (op : Nat) (w : WraPacket) : Bool :=
  c.issued.any (fun i => i.msg == w.msg && i.atomic == (op == 0x06) &&
    (i.atomic || (i.key == w.key && i.offset ≤ w.offset && w.offset + w.payload.length ≤ i.offset + i.total)))

/-- A PSN that the space has not used and that lies within its credit (R128, R166). -/
def freshPsn (rx : SeqRx) (psn : Nat) : Bool :=
  !psnLe psn rx.v && circle 32 psn rx.v ≤ Config.creditWindow && !rx.bitmap.getLsbD (circle 32 psn rx.v - 1)

/-- A PSN above the credit limit of its space (R128). -/
def aboveCredit (rx : SeqRx) (psn : Nat) : Bool := !psnLe psn rx.v && decide (Config.creditWindow < circle 32 psn rx.v)

/-- The first failure of steps 2 to 8 of R131 decides the outcome: a NAK and the report of a violation. The packet
occupies its PSN where that is new (R126); where it is used, an ACK follows as for any other duplicate (R127, R151). -/
def barPacket (s : State) (c : Conn) (op : Nat) (w : WraPacket) (stamp : PhaseWord) (bar : Status × Nat) : State :=
  let s1 := if bar.1 = .accessViolation then reportViolation s c w bar.2 else s
  if freshPsn (connRx c (isResponse op)) w.psn then takePsn s1 c op w stamp none (.refuse bar.1 bar.2)
  else
    let s2 := sendNak s1 c.id w.port w.psn bar.1 bar.2
    if aboveCredit (connRx c (isResponse op)) w.psn then s2 else ackAgain s2 c.id (isResponse op) w

/-- The verdict on a packet whose PSN is new; a second report for one shard index sets SHARD_MISMATCH at the lead
(R97). -/
def judgePacket (s : State) (c : Conn) (op : Nat) (w : WraPacket) (stamp : PhaseWord) (win : Option Window) : State :=
  let v := judge s c op w stamp win
  let s1 := takePsn s c op w stamp win v
  if op = 0x0F ∧ v ≠ .place then
    match vintageOf s c.owner (field w.ext 0 4) with
    | some x => if shardKind w = 1 ∧ isLead s x ∧ reportClash x w then leadMismatch s1 c.owner x.id else s1
    | none => s1
  else s1

/-- Credit, the exactly-once test, and the verdict (R128, R165 steps 2 to 6, R166). -/
def sequencePacket (s : State) (cid : Nat) (op : Nat) (w : WraPacket) (stamp : PhaseWord) (win : Option Window) : State :=
  match connOf s cid with
  | none => s
  | some c =>
    let rx := connRx c (isResponse op)
    if aboveCredit rx w.psn then dropCredited s w.port
    else if ¬ freshPsn rx w.psn then duplicatePacket s c op w
    else if isResponse op ∧ ¬ matchesIssued c op w then dropPacket s cid
    else judgePacket s c op w stamp win

/-- A request or response with data on a connection that takes it: window checks, then residency, then the rest.
A refused packet does not wait for the context. -/
def dataPacket (s : State) (c : Conn) (op : Nat) (w : WraPacket) : State :=
  let stamp := stampAt s c.owner w.cycle
  if c.state = .closing ∧ ¬ isResponse op then barPacket s c op w stamp (.badState, 0)
  else
    match (if hasWindow op w then (windowFor s c op w).map some else .ok none) with
    | .error bar => barPacket s c op w stamp bar
    | .ok win =>
      let s1 := touchConn s c.id
      if c.resident then sequencePacket s1 c.id op w stamp win else parkPacket s1 c op w stamp win

/-! ### Connection states (R119 to R121) -/

/-- Send an unacknowledged packet by the next path of the spray, which its record then names (R124). -/
def resendPacket (cid : Nat) (resp : Bool) (s : State) (x : TxPacket) : State :=
  let s1 := setConn s cid (fun c => setTx c resp (fun t => { t with
    unacked := mapIf (fun y => y.psn == x.psn) (fun y => { y with pkt := { y.pkt with path := pickPath c } }) t.unacked }))
  putOnWire s1 cid x.op { x.pkt with psn := x.psn }

/-- Send every unacknowledged packet of one space again as if for the first time (R121). -/
def restartSpace (s : State) (cid : Nat) (resp : Bool) : State :=
  match connOf s cid with
  | none => s
  | some c =>
    let fresh (x : TxPacket) : TxPacket := { x with attempts := 1, timerUs := c.minTimer }
    let s1 := setConn s cid (fun c => setTx c resp (fun t => { t with unacked := t.unacked.map fresh }))
    (connTx c resp).unacked.foldl (resendPacket cid resp) s1

/-- A valid packet returns a HELD connection to ESTABLISHED (R121). -/
def resumeConn (s : State) (cid : Nat) : State :=
  let s1 := setConn s cid (fun c => { c with state := .established })
  pump (restartSpace (restartSpace s1 cid false) cid true) cid

/-- The handshake is complete: ESTABLISHED, CONN_UP, and the work that was held goes out (R119). -/
def establishConn (s : State) (c : Conn) : State :=
  let s1 := setConn s c.id (fun c => { c with state := .established })
  pump (connEvent s1 c 0x0602 0) c.id

/-- The peer's incarnation and boot epoch: the first, or a higher one (R120). -/
def learnPeer (c : Conn) (ext : List Byte) : Conn :=
  let inc := field ext 6 2
  let epoch := field ext 0 4
  if (c.peerInc = 0 ∧ c.peerEpoch = 0) ∨ c.peerInc < inc ∨ c.peerEpoch < epoch then
    { c with peerInc := inc, peerEpoch := epoch }
  else c

/-- CONNECT from the peer: its extension names the peer connection; it is answered by CONNECT_ACK and occupies
its PSN (R120, R123). -/
def connectPacket (s : State) (c : Conn) (w : WraPacket) : State :=
  if field w.ext 4 2 ≠ c.peerConn then dropPacket s c.id
  else
    let s1 := setConn s c.id (fun c => learnPeer c w.ext)
    let s2 := if c.state = .connecting then establishConn s1 c else s1
    let s3 := sendControl s2 c.id 0x0B 0 (connectExt s2 c)
    sequencePacket s3 c.id 0x0A w (stampAt s c.owner w.cycle) none

/-- The CONNECT of a connection is not sent again (R119). -/
def stopConnect (c : Conn) : Conn :=
  { c with txReq := { c.txReq with unacked := c.txReq.unacked.filter (fun x => x.op != 0x0A) } }

/-- CONNECT_ACK: the CONNECT it answers is not sent again. CONN_UP follows where the peer was not yet known, also
on a connection that was HELD before its handshake had ended (R119, R121). -/
def connectAckPacket (s : State) (c : Conn) (w : WraPacket) : State :=
  if field w.ext 4 2 ≠ c.peerConn then dropPacket s c.id
  else
    let s1 := setConn s c.id (fun c => learnPeer (stopConnect c) w.ext)
    retryFetches (if c.state = .connecting then establishConn s1 c
      else if c.state = .established ∧ c.peerInc = 0 ∧ c.peerEpoch = 0 then connEvent s1 c 0x0602 0
      else s1) c.owner

/-- CLOSE from the peer: the connection enters CLOSING (R119). -/
def closePacket (s : State) (c : Conn) (w : WraPacket) : State :=
  let s1 := sequencePacket s c.id 0x0C w (stampAt s c.owner w.cycle) none
  if c.state = .closing then s1 else closeConn s1 c.id

/-! ### ACK and STATUS (R126, R127, R129, R130, R149, R156) -/

/-- Bar a path for 100 µs (R124). -/
def holdPath (c : Conn) (path : Nat) : Conn :=
  if c.pathHolds.contains path then c else { c with pathHolds := c.pathHolds ++ [path] }

/-- Send an unacknowledged packet again, its timer doubled up to the cap; the path it was lost on is barred, and it asks
for an ACK, so that the loss of one is made good (R124, R129, R151). -/
def retransmit (s : State) (cid : Nat) (resp : Bool) (psn : Nat) : State :=
  match connOf s cid with
  | none => s
  | some c =>
    match (connTx c resp).unacked.find? (fun x => x.psn == psn) with
    | none => s
    | some x =>
      let c1 := holdPath c x.pkt.path
      let x' : TxPacket := { x with
        attempts := x.attempts + 1, timerUs := min Config.timerCapUs (2 * x.timerUs), pkt := { x.pkt with path := pickPath c1, ackReq := true } }
      let s1 := setConn s cid (fun _ => setTx c1 resp (fun t => { t with
        unacked := mapIf (fun y => y.psn == psn) (fun _ => x') t.unacked }))
      putOnWire s1 cid x.op { x'.pkt with psn := psn }

/-- One packet of a message is acknowledged; the last completes the request (R126). -/
def ackMessage (s : State) (cid msg : Nat) : State :=
  match connOf s cid with
  | none => s
  | some c =>
    match c.messages.find? (fun m => m.msg == msg) with
    | none => s
    | some m =>
      if 1 < m.left then
        setConn s cid (fun c => { c with messages := mapIf (fun x => x.msg == msg) (fun x => { x with left := x.left - 1 }) c.messages })
      else
        let (st, detail) := m.result.getD (0, 0)
        let s1 := setConn s cid (fun c => { c with
          messages := c.messages.filter (fun x => x.msg != msg)
          failures := c.failures + (if statusClass st = 0 then 0 else 1) })
        completeRequest s1 c.owner m.queue m.wrId m.signal st detail m.op (if statusClass st = 0 then m.bytes else 0) cid

/-- Received PSNs the SACK field shows above one (R129). -/
def sackAbove (v : Nat) (sack : Nat) (psn : Nat) : Nat :=
  ((List.range 256).filter (fun i => sack.testBit i && !psnLe (psnAdd v (1 + i)) psn)).length

/-- A CE mark echoed: its paths are barred and the rate halves, at most once per 10 µs (R124, R130). -/
def applyCe (s : State) (cid ce : Nat) : State :=
  let now := s.clock.cycle
  setConn s cid (fun c =>
    if ce = 0 then c
    else
      let c1 := (bitList 256 ce).foldl holdPath c
      let quiet := ((c.rateCut).map (fun t => decide (now < t + Config.tenMicroseconds))).getD false
      if quiet then c1 else { c1 with rateMbps := c1.rateMbps / 2, rateCut := some now })

/-- ACK: V, credit and SACK apply only as they advance (R149); packets at or below V are acknowledged, missing
ones below 64 received are sent again (R129). -/
def ackPacket (s : State) (c : Conn) (w : WraPacket) : State :=
  let resp := field w.ext 0 1 == 1
  let tx := connTx c resp
  if 1 < field w.ext 0 1 ∨ ¬ psnLe tx.acked w.psn then s
  else
    let credit := field w.ext 4 4
    let sack := field w.ext 8 32
    let gone := tx.unacked.filter (fun x => psnLe x.psn w.psn)
    let mark (x : TxPacket) : TxPacket :=
      { x with sacked := x.sacked || (!psnLe x.psn w.psn && sack.testBit (circle 32 x.psn w.psn - 1)) }
    let upd (t : SeqTx) : SeqTx := { t with
      acked := w.psn, credit := if psnLe t.credit credit then credit else t.credit
      unacked := (t.unacked.filter (fun x => !psnLe x.psn w.psn)).map mark }
    let s1 := applyCe (setConn s c.id (fun c => setTx c resp upd)) c.id (field w.ext 40 32)
    let s2 := if resp then s1 else gone.foldl (fun s x => ackMessage s c.id x.pkt.msg) s1
    let missing := ((connOf s2 c.id).map (fun c => ((connTx c resp).unacked.filter (fun x =>
      !x.sacked && 64 ≤ sackAbove w.psn sack x.psn && x.attempts < Config.attemptLimit)).map (fun x => x.psn))).getD []
    retryFetches (pump (missing.foldl (fun s psn => retransmit s c.id resp psn) s2) c.id) c.owner

/-- The first NAK among a message's packets decides its status, over any success code (R126). -/
def decideMessage (m : Message) (st detail : Nat) : Message :=
  match m.result with
  | none => { m with result := some (st, detail) }
  | some (old, _) => if statusClass old = 0 then { m with result := some (st, detail) } else m

/-- STATUS: the status of the message whose packet it concerns. R117 gives no sequence space for that PSN; it is taken as one
of the request space (DESIGN CHOICE, notes/assumptions/149.md). A READ or ATOMIC that is refused ends; a
PARTIAL's NAK is kept for R183; a shard's REPORT that is refused leaves its exchange waiting. -/
def statusPacket (s : State) (c : Conn) (w : WraPacket) : State :=
  let st := field w.ext 0 2
  let detail := field w.ext 2 2
  let psn := field w.ext 4 4
  let s1 := setConn s c.id (fun c => { c with
    sentPartials := mapIf (fun x => x.psn == psn) (fun x => { x with refused := if statusClass st = 0 then x.refused else st }) c.sentPartials })
  match c.txReq.unacked.find? (fun x => x.psn == psn) with
  | none => s1
  | some x =>
    let s2 := setConn s1 c.id (fun c => { c with
      messages := mapIf (fun m => m.msg == x.pkt.msg) (fun m => decideMessage m st detail) c.messages })
    match c.issued.find? (fun i => i.msg == x.pkt.msg) with
    | some i => if (x.op = 0x02 ∨ x.op = 0x05) ∧ statusClass st ≠ 0 then finishIssued s2 c i st detail else s2
    | none => s2

/-! ### Arrival -/

/-- Operations that only a Trellis connection carries (R117). -/
def trellisOnly (op : Nat) : Bool := op == 0x0D || op == 0x0F

/-- Operations that a connection's own state answers. -/
def isControl (op : Nat) : Bool := 0x08 ≤ op && op ≤ 0x0C

/-- An operation of a connection whose context is resident. -/
def controlPacket (s : State) (c : Conn) (op : Nat) (w : WraPacket) : State :=
  match op with
  | 0x08 => ackPacket s c w
  | 0x09 => statusPacket s c w
  | 0x0A => if c.state = .closing then dataPacket s c op w else connectPacket s c w
  | 0x0B => if c.state = .closing then dropPacket s c.id else connectAckPacket s c w
  | 0x0C => closePacket s c w
  | _ => dataPacket s c op w

/-- Step 2 of R131, the Glove's share of the ingress buffer (R170), then residency (R145) and the operation's own handling. A
packet parked earlier is no further arrival: it is not held to the share again. A CONNECT carries whatever incarnation on a
connection that is CONNECTING or ESTABLISHED (R120). -/
def admitPacket (s : State) (c : Conn) (op : Nat) (w : WraPacket) : State :=
  let known := w.incarnation == c.incarnation || (op == 0x0A && (c.state == .connecting || c.state == .established))
  if ¬ known ∨ c.state = .error ∨ (c.state = .connecting ∧ op ≠ 0x0A ∧ op ≠ 0x0B) ∨ (trellisOnly op ∧ ¬ c.trellis) then dropPacket s c.id
  else if ingressFull s c.owner op w then dropCredited s w.port
  else
    let s0 := noteCe (setConn s c.id (fun c => { c with sealRx := if c.sealedC then max c.sealRx w.counter else c.sealRx })) c op w
    let s1 := if c.state = .held then resumeConn (if op = 0x0B then setConn s0 c.id stopConnect else s0) c.id else s0
    match connOf s1 c.id with
    | none => s1
    | some c1 =>
      if isControl op ∧ ¬ c1.resident then parkPacket (touchConn s1 c1.id) c1 op w (stampAt s1 c1.owner w.cycle) none
      else controlPacket (touchConn s1 c1.id) c1 op w

/-- A Trellis packet for another member goes on in the Hub, one hop further; at the member that originated the
reduction it moves to subclass 1, which never crosses that member again (R76, R153). R153 speaks of ring ports; a packet for
another member that comes by a data port goes on by T0 (DESIGN CHOICE, notes/assumptions/150.md). -/
def forwardPacket (s : State) (op : Nat) (w : WraPacket) (t : TrellisHeader) : State :=
  let atOrigin := t.origin == s.net.trellis.member && op == 0x0D
  let drop (s : State) : State := { s with net := { s.net with trellis := { s.net.trellis with hopDrops := s.net.trellis.hopDrops + 1 } } }
  if s.net.trellis.bypass = 0 then s
  else if 64 ≤ t.hops + 1 ∨ (atOrigin ∧ t.subclass) then drop s
  else
    let t' : TrellisHeader := { t with hops := t.hops + 1, subclass := t.subclass || atOrigin }
    let s1 := { s with net := { s.net with trellis := { s.net.trellis with forwarded := s.net.trellis.forwarded + 1 } } }
    emitRaw s1 op { w with trellis := some t', port := if w.port = 8 then 9 else 8 }

/-- Step 1 fails: dropped, and counted in PRT_RX_DROP (R131, R149). -/
def dropIntegrity (s : State) (port : Nat) : State := setPort s port (fun r => { r with dropIntegrity := satAdd 65535 r.dropIntegrity 1 })

/-- The Trellis header of a packet in transit to another member (R153). -/
def transitHeader (s : State) (w : WraPacket) : Option TrellisHeader := w.trellis.filter (fun t => t.dest != s.net.trellis.member)

/-- Steps 1 and 2 of R131. A packet in transit whose ICRC is wrong goes no further; the tag of a sealed one is checked by the
member it is for, which holds the key. -/
def processPacket (s : State) (op : Nat) (w : WraPacket) : State :=
  match transitHeader s w with
  | some t => if w.intact ∨ w.sealedP then forwardPacket s op w t else dropIntegrity s w.port
  | none =>
    match connOf s w.conn with
    | none => if w.intact then { s with net := { s.net with stray := s.net.stray + 1 } } else dropIntegrity s w.port
    | some c =>
      match openArrival s c op w with
      | none => dropIntegrity s w.port
      | some w1 => if w1.version % 16 ≠ 1 then dropPacket s c.id else admitPacket s c op w1

/-! ### Membership and heartbeats (R155) -/

def setTrellis (s : State) (f : Trellis → Trellis) : State := { s with net := { s.net with trellis := f s.net.trellis } }

/-! ### Membership (R155, R98) -/

/-- TRELLIS_MEMBERSHIP, to the Vintner and to the event queue of every Trellis connection (R155, R161). -/
def membershipEvents (s : State) : State :=
  let event (ctx : Nat) := wraEvent s ctx 0x0604 0 s.net.trellis.ringEpoch s.net.trellis.members.length 1 0 0
  let queues := dedup ((s.conns.filter (fun c => c.trellis)).map (fun c => (c.eventQ, c.owner)))
  queues.foldl (fun s q => postTo s q.1 (event q.2)) (postEvent s vintner (event vintner))

/-- The membership becomes a new set: the local ring epoch rises by one. -/
def setMembers (s : State) (l : List Nat) : State :=
  membershipEvents (setTrellis s (fun t => { t with members := l, ringEpoch := (t.ringEpoch + 1) % 2 ^ 32 }))

/-- The JOIN in progress ends with a status. -/
def endJoin (s : State) (a : Answer) : State :=
  s.outstanding.foldl (fun s o => if o.wait = .join then reply s o.pkt a else s) s

/-- A HEARTBEAT packet, which leaves on T1 (R116, R117, R152). -/
def heartbeatPacket (s : State) (ringEpoch origin hops : Nat) : WraPacket where
  port := 9
  conn := 0
  incarnation := 0
  first := true
  last := true
  ext := toLE 4 ringEpoch ++ toLE 2 origin ++ toLE 1 hops ++ zeros 1
  ip := { dstPort := s.net.udp }

/-- One heartbeat past injection: the module's own is removed and completes a JOIN once both links are trained;
another's joins the membership and goes on downstream. -/
def heartbeatIn (s : State) (w : WraPacket) : State :=
  if ¬ w.intact then setPort s w.port (fun r => { r with dropIntegrity := satAdd 65535 r.dropIntegrity 1 })
  else
    let t := s.net.trellis
    let origin := field w.ext 4 2
    let hops := field w.ext 6 1
    let s1 := if t.members.contains origin then s else setMembers s (sortBy id (t.members ++ [origin]))
    if origin = t.member then
      if t.bypass = 1 ∧ (portOf s 8).linkUp ∧ (portOf s 9).linkUp then
        let s2 := setTrellis s1 (fun t => { t with bypass := 2 })
        endJoin s2 { status := .ok, r0 := s2.net.trellis.ringEpoch }
      else s1
    else if 64 ≤ hops + 1 then setTrellis s1 (fun t => { t with hopDrops := t.hopDrops + 1 })
    else emitRaw s1 0x0E (heartbeatPacket s1 (field w.ext 0 4) origin (hops + 1))

/-! ### Reception -/

/-- The datagram is one the engine takes as WRA: UDP to its WRA port, no IP fragment, of a family the port accepts (R112,
PRT_CTRL, PRT_UDP). Anything else is dropped. -/
def isWra (s : State) (w : WraPacket) : Bool :=
  w.ip.protocol == 17 && !w.ip.fragment && w.ip.dstPort == s.net.udp &&
    (8 ≤ w.port || (if w.ip.ipv4 then (portOf s w.port).ipv4 else (portOf s w.port).ipv6))

/-- A port receives: a data port while it is enabled, a Trellis port while the module is in the ring or joining
it (PRT_STATUS, R154). -/
def portOpen (s : State) (p : Nat) : Bool :=
  s.pwr.state == .on && (if p < 8 then (portOf s p).enable else p < 10 && s.net.trellis.bypass != 0)

/-- A packet past receive-side injection: a heartbeat that injection had held back is one still. -/
def received (s : State) (q : Framed) : State :=
  if q.op = 0x0E then heartbeatIn s q.pkt else processPacket s q.op q.pkt

/-- A WRA packet arrives at a port; receive-side injection acts before step 1 of R131 (R150). A packet in transit is on no
connection of this module, so only its port's injection acts on it. -/
def arrive (op : Nat) (w : WraPacket) (s : State) : State :=
  if ¬ (portOpen s w.port ∧ isWra s w) then s
  else
    let s0 := { s with clock := { s.clock with cycle := w.cycle } }
    let (ps, s1) := if (transitHeader s w).isSome then injectPort s0 true w.port { op := op, pkt := w }
      else injectAll s0 true w.conn w.port { op := op, pkt := w }
    ps.foldl received s1

/-- ACCUMULATE. -/
def execAccumulate (w : WraPacket) (s : State) : Host.Outcome State Fault Refusal := .next (arrive 0x04 w s)
/-- WRITE. -/
def execWrite (w : WraPacket) (s : State) : Host.Outcome State Fault Refusal := .next (arrive 0x01 w s)
/-- READ_REQ. -/
def execReadReq (w : WraPacket) (s : State) : Host.Outcome State Fault Refusal := .next (arrive 0x02 w s)
/-- READ_RESP. -/
def execReadResp (w : WraPacket) (s : State) : Host.Outcome State Fault Refusal := .next (arrive 0x03 w s)
/-- ATOMIC. -/
def execAtomic (w : WraPacket) (s : State) : Host.Outcome State Fault Refusal := .next (arrive 0x05 w s)
/-- ATOMIC_RESP. -/
def execAtomicResp (w : WraPacket) (s : State) : Host.Outcome State Fault Refusal := .next (arrive 0x06 w s)
/-- SEND. -/
def execSend (w : WraPacket) (s : State) : Host.Outcome State Fault Refusal := .next (arrive 0x07 w s)
/-- ACK. -/
def execAck (w : WraPacket) (s : State) : Host.Outcome State Fault Refusal := .next (arrive 0x08 w s)
/-- STATUS. -/
def execStatus (w : WraPacket) (s : State) : Host.Outcome State Fault Refusal := .next (arrive 0x09 w s)
/-- CONNECT. -/
def execConnect (w : WraPacket) (s : State) : Host.Outcome State Fault Refusal := .next (arrive 0x0A w s)
/-- CONNECT_ACK. -/
def execConnectAck (w : WraPacket) (s : State) : Host.Outcome State Fault Refusal := .next (arrive 0x0B w s)
/-- CLOSE. -/
def execClose (w : WraPacket) (s : State) : Host.Outcome State Fault Refusal := .next (arrive 0x0C w s)
/-- PARTIAL. -/
def execPartialPkt (w : WraPacket) (s : State) : Host.Outcome State Fault Refusal := .next (arrive 0x0D w s)
/-- SHARD. -/
def execShard (w : WraPacket) (s : State) : Host.Outcome State Fault Refusal := .next (arrive 0x0F w s)

/-! ### Timers of a connection -/

/-- A gap stands below the highest received PSN: some PSN above V + 1 is received and V + 1 is not (R127). -/
def gapOf (rx : SeqRx) : Option Nat :=
  if rx.bitmap = 0 then none
  else
    let low := (List.range 4096).find? (fun i => !rx.bitmap.getLsbD i)
    match low with
    | some i => if (rx.bitmap >>> i) = 0 then none else some (psnAdd rx.v (1 + i))
    | none => none

/-- ACK_GAP_TIMER: one ACK for a gap that has lasted 2 µs. -/
def execAckGapTimer (conn space : Nat) (s : State) : Host.Outcome State Fault Refusal :=
  let resp := space == 1
  match connOf s conn with
  | none => .next s
  | some c =>
    match gapOf (connRx c resp) with
    | none => .next s
    | some g =>
      if (connRx c resp).gapTold = some g then .next s
      else .next (sendAck (setConn s conn (fun c => setRx c resp (fun r => { r with gapTold := some g }))) conn resp)

/-- ACK_IDLE_TIMER: an ACK after 10 µs with packets not yet acknowledged. -/
def execAckIdleTimer (conn space : Nat) (s : State) : Host.Outcome State Fault Refusal :=
  let resp := space == 1
  match connOf s conn with
  | none => .next s
  | some c =>
    .next (if (connRx c resp).sinceAck ≠ 0 ∨ (connRx c resp).bitmap ≠ 0 ∨ (connRx c resp).again then sendAck s conn resp else s)

/-- The states in which a connection retransmits (R119). -/
def mayRetransmit (c : Conn) : Bool := c.state == .connecting || c.state == .established || c.state == .closing

/-- RETRANSMIT_TIMEOUT: a packet not acknowledged is sent again while it has attempts left, also one that a SACK has shown
received. -/
def execRetransmitTimeout (conn space psn : Nat) (s : State) : Host.Outcome State Fault Refusal :=
  let resp := space == 1
  match connOf s conn with
  | none => .next s
  | some c =>
    .next (if mayRetransmit c ∧ (connTx c resp).unacked.any (fun x =>
        x.psn == psn && x.attempts < Config.attemptLimit) then retransmit s conn resp psn else s)

/-- Under LIVE the loss of the connection that carries a shard's exchange sets SHARD_MISMATCH (R98): at a shard
its connection to the lead, at the lead a reporting shard's connection before its RESULT is delivered. -/
def shardLost (s : State) (c : Conn) : State :=
  if ¬ c.trellis then s
  else (s.vintages.filter (fun v => v.glove == c.owner && v.live && 1 < v.shardCount && !v.survivorsFixed &&
      !v.shardMismatch && (v.state == .opened || v.state == .sealedV || v.state == .unmasking))).foldl (fun s v =>
    if isLead s v then
      if v.reports.any (fun r => r.conn == c.id && r.shard != v.shardIndex) then leadMismatch s v.glove v.id else s
    else if c.member = v.lead then setVintage s v.glove v.id (fun v => { v with shardMismatch := true })
    else s) s

/-- A RESULT the lead has sent and that was not delivered when its connection entered ERROR (R98). -/
def resultLost (s : State) (c : Conn) : State :=
  let ids := (c.txReq.unacked ++ c.waiting).filterMap (fun x =>
    if x.op = 0x0F ∧ field x.pkt.ext 4 1 = 2 then some (field x.pkt.ext 0 4) else none)
  (dedup ids).foldl (fun s vid =>
    match vintageOf s c.owner vid with
    | some v => if v.live ∧ ¬ v.shardMismatch then leadMismatch s c.owner vid else s
    | none => s) s

/-- A packet has used its 16 transmissions (R129). -/
def spent (x : TxPacket) : Bool := decide (Config.attemptLimit ≤ x.attempts)

/-- A CLOSING connection whose packets reach their limit: each of them fails with its request, or becomes UNDELIVERED;
what has attempts left is still sent (R119, R506). -/
def giveUpSpent (s : State) (c : Conn) : State :=
  let gone := (c.txReq.unacked ++ c.txResp.unacked).filter spent
  let ids := gone.map (fun x => x.pkt.msg)
  let s1 := failSome s c .peerLost (fun m => ids.contains m)
  let s2 := gone.foldl (fun s t => undelivered s c t) s1
  let keep (t : SeqTx) : SeqTx := { t with unacked := t.unacked.filter (fun x => !spent x) }
  setConn s2 c.id (fun c => { c with txReq := keep c.txReq, txResp := keep c.txResp })

/-- A connection is given up (R119, R121, R148): ERROR under LIVE, where its requests fail and its replies
become UNDELIVERED; HELD under EXACT. A CLOSING connection stays CLOSING. -/
def giveUp (s : State) (c : Conn) : State :=
  let s1 := connEvent s c 0x0603 0
  let fail (s : State) : State :=
    match connOf s c.id with
    | some c1 =>
      let s2 := undeliverAll (failRequests s c1 .peerLost) c1
      setConn s2 c.id (fun c => { c with parked := [], fetching := false })
    | none => s
  retryFetches (if c.state = .closing then giveUpSpent s1 c
    else if isExact s c.owner then setConn s1 c.id (fun c => { c with state := .held })
    else
      let s2 := resultLost (setConn s1 c.id (fun c => { c with state := .error })) c
      shardLost (fail s2) c) c.owner

/-- Some packet has used its 16 transmissions (R129). -/
def limitReached (c : Conn) : Bool := (c.txReq.unacked ++ c.txResp.unacked).any spent

/-- ATTEMPT_LIMIT. -/
def execAttemptLimit (conn : Nat) (s : State) : Host.Outcome State Fault Refusal :=
  match connOf s conn with
  | some c => .next (if mayRetransmit c ∧ limitReached c then giveUp s c else s)
  | none => .next s

/-- SEAL_COUNTER_EXHAUSTED: a seal counter at 2^48 ends the connection as the attempt limit does (R148). -/
def execSealCounterExhausted (conn : Nat) (s : State) : Host.Outcome State Fault Refusal :=
  match connOf s conn with
  | some c =>
    .next (if c.sealedC ∧ (c.state = .connecting ∨ c.state = .established) ∧ (2 ^ 48 ≤ c.sealTx ∨ 2 ^ 48 ≤ c.sealRx) then giveUp s c
      else s)
  | none => .next s

/-- PATH_HOLD_EXPIRE: the path takes packets again, and what waited for one is sent. -/
def execPathHoldExpire (conn path : Nat) (s : State) : Host.Outcome State Fault Refusal :=
  .next (pump (setConn s conn (fun c => { c with pathHolds := c.pathHolds.filter (· != path) })) conn)

/-- RATE_INCREASE_TICK: 1 Gb/s more, up to the line rate of the connection's ports (R130; the start and the
top are a DESIGN CHOICE, notes/assumptions/27.md). -/
def execRateIncreaseTick (conn : Nat) (s : State) : Host.Outcome State Fault Refusal :=
  .next (setConn s conn (fun c => { c with rateMbps := min (800000 * max 1 (popcount 8 c.ports)) (c.rateMbps + 1000) }))

/-- A parked packet once its context is resident: data with the stamp and window it had, another by its operation (R145,
R146). -/
def unparkPacket (cid : Nat) (s : State) (p : Parked) : State :=
  if isControl p.op then
    match connOf s cid with
    | some c => controlPacket s c p.op p.pkt
    | none => s
  else sequencePacket s cid p.op p.pkt p.stamp p.win

/-- A context could not be read: its parked packets are dropped, and the next packet fetches again (R362). -/
def failFetch (s : State) (c : Conn) : State :=
  let s1 := setConn s c.id (fun c => { c with parked := [], fetching := false })
  { s1 with net := { s1.net with missDrop := satAdd (2 ^ 32 - 1) s1.net.missDrop c.parked.length } }

/-- The record of a spilled context, read where the Context Store lies in host memory (R362, R366 to R369). -/
def readContext (s : State) (c : Conn) : Except ReadFail State :=
  match c.store with
  | none => .ok s
  | some j => if dmaReaches s c.owner then (cuffOpen s c.owner j).map (fun x => x.2) else .error { cause := .hostFault }

/-- CONTEXT_FETCH_DONE: the context is resident; parked packets are processed, then the work that waited is sent (R145,
R146). -/
def execContextFetchDone (conn : Nat) (s : State) : Host.Outcome State Fault Refusal :=
  match connOf s conn with
  | none => .next s
  | some c =>
    if ¬ c.fetching then .next s
    else match readContext s c with
    | .error f => .next (failFetch (dmaReport s c.owner f) c)
    | .ok s0 =>
      let s1 := setConn s0 conn (fun c => { c with resident := true, fetching := false, store := none, parked := [] })
      let s2 := c.parked.foldl (unparkPacket conn) (touchConn s1 conn)
      .next (settleEnds (settleRevokes (retryFetches (pump s2 conn) c.owner)))

end Sys2Proof.Machine
end

