-- ==== Sys2Proof/Machine/Regs.lean ====
section
/-! DEFINITION. What the host does at BAR0 and in its own configuration: doorbells (R355, R358 to R360), reads that latch
or clear (R11, R52, R69, R396, R422, R470, R500), writes (R11, R67, R111, R150), MSI-X (R337, R338), and the failure of a
DMA read (R362, R368); and the requests a port answers by itself (R112). -/

set_option autoImplicit false

namespace Sys2Proof.Machine

/-! ### Reads -/

/-- A read of a register gives a value and leaves a state. -/
def readReg (s : State) (value : Nat) (after : State) : State :=
  if regsReady s then { after with host := { after.host with lastRead := BitVec.ofNat 32 value } }
  else if recoveryAnswers s then { s with host := { s.host with lastRead := 0 } }
  else s

/-- The function may read the registers of a Glove: the PF, or the Glove's own VF (R356). -/
def mayReadGlove (s : State) (fn g : Nat) : Bool := g < 16 && (fn == 0 || (fn == g + 1 && vfExists s fn))

/-- PHS_COUNT_HI. -/
def regPhsHi (p : Phase) : Nat := bitsAt p.word.count 32 16 + 2 ^ 16 * p.word.src

/-- PHS_COUNT_LO_READ: each function has its own latch (DESIGN CHOICE, notes/assumptions/39.md). -/
def execPhsCountLoRead (fn glove : Nat) (s : State) : Host.Outcome State Fault Refusal :=
  if mayReadGlove s fn glove then
    let p := (gloveOf s glove).phase
    .next (readReg s p.word.count (setGlove s glove (fun x => { x with phase :=
      if fn = 0 then { x.phase with hiLatch := regPhsHi p } else { x.phase with hiLatchVf := regPhsHi p } })))
  else .next s

/-- CAL_MS_LO_READ. -/
def execCalMsLoRead (s : State) : Host.Outcome State Fault Refusal :=
  .next (readReg s s.cal.ms { s with cal := { s.cal with hiLatch := bitsAt s.cal.ms 32 16 } })

/-- ENT_BLOCKS_LO_READ. -/
def execEntBlocksLoRead (s : State) : Host.Outcome State Fault Refusal :=
  .next (readReg s s.ent.blocks { s with ent := { s.ent with hiLatch := bitsAt s.ent.blocks 32 32 } })

/-- INT_TASTED_LO_READ. -/
def execIntTastedLoRead (s : State) : Host.Outcome State Fault Refusal :=
  .next (readReg s s.int.tasted { s with int := { s.int with hiLatch := bitsAt s.int.tasted 32 32 } })

/-- GBL_CM_STATUS_READ. -/
def execGblCmStatusRead (s : State) : Host.Outcome State Fault Refusal :=
  .next (readReg s (regCmStatus s.cm) { s with cm := { s.cm with eccCorr := 0 } })

/-- PHS_REFUSED_READ: a read through the VF clears nothing (R356). -/
def execPhsRefusedRead (fn glove : Nat) (s : State) : Host.Outcome State Fault Refusal :=
  if mayReadGlove s fn glove then
    let clear (x : Glove) : Glove := if fn = 0 then { x with phase := { x.phase with refused := 0 } } else x
    .next (readReg s (gloveOf s glove).phase.refused (setGlove s glove clear))
  else .next s

/-- PRT_RX_DROP_READ. -/
def execPrtRxDropRead (port : Nat) (s : State) : Host.Outcome State Fault Refusal :=
  if port < 10 then
    let r := portOf s port
    .next (readReg s (min 65535 r.dropIntegrity + 2 ^ 16 * min 65535 r.dropCredit)
      (setPort s port (fun r => { r with dropIntegrity := 0, dropCredit := 0 })))
  else .next s

/-- PRT_NAKS_READ. -/
def execPrtNaksRead (port : Nat) (s : State) : Host.Outcome State Fault Refusal :=
  if port < 10 then .next (readReg s (portOf s port).naks (setPort s port (fun r => { r with naks := 0 }))) else .next s

/-- PRT_MISS_DROP_READ. -/
def execPrtMissDropRead (s : State) : Host.Outcome State Fault Refusal :=
  .next (readReg s s.net.missDrop { s with net := { s.net with missDrop := 0 } })

/-- FIJ_COUNT_READ. -/
def execFijCountRead (port : Nat) (s : State) : Host.Outcome State Fault Refusal :=
  if port < 10 then
    .next (readReg s (portOf s port).inject.count (setPort s port (fun r => { r with inject := { r.inject with count := 0 } })))
  else .next s

/-- ENT_DISCARD_READ. -/
def execEntDiscardRead (s : State) : Host.Outcome State Fault Refusal :=
  .next (readReg s s.ent.discard { s with ent := { s.ent with discard := 0 } })

/-- ENT_UNUSED_READ. -/
def execEntUnusedRead (s : State) : Host.Outcome State Fault Refusal :=
  .next (readReg s s.ent.unused { s with ent := { s.ent with unused := 0 } })

/-- KEY_REMASK_LATE_READ. -/
def execKeyRemaskLateRead (s : State) : Host.Outcome State Fault Refusal :=
  .next (readReg s s.keys.remaskLate { s with keys := { s.keys with remaskLate := 0 } })

/-- INT_MISMATCH_READ. -/
def execIntMismatchRead (s : State) : Host.Outcome State Fault Refusal :=
  .next (readReg s (min 65535 s.int.arbitrated + 2 ^ 16 * min 65535 s.int.unresolved)
    { s with int := { s.int with arbitrated := 0, unresolved := 0 } })

/-- TEL_PIN_PEAK_READ. -/
def execTelPinPeakRead (s : State) : Host.Outcome State Fault Refusal :=
  .next (readReg s (s.pwr.pinPeak % 2 ^ 12) (setPwr s (fun p => { p with pinPeak := 0 })))

/-- TEL_THR_COUNT_READ. -/
def execTelThrCountRead (s : State) : Host.Outcome State Fault Refusal :=
  .next (readReg s s.pwr.thrCount (setPwr s (fun p => { p with thrCount := 0 })))

/-! ### Writes -/

/-- CAL_STATUS_WRITE: LOST and TAMPER_SEEN are W1C. -/
def execCalStatusWrite (value : Word32) (s : State) : Host.Outcome State Fault Refusal :=
  .next (if regsReady s then
    { s with cal := { s.cal with
        lost := s.cal.lost && !value.toNat.testBit 1, tamperSeen := s.cal.tamperSeen && !value.toNat.testBit 3 } }
    else s)

/-- KEY_TAMPER_WRITE. -/
def execKeyTamperWrite (value : Word32) (s : State) : Host.Outcome State Fault Refusal :=
  .next (if regsReady s then { s with keys := { s.keys with tamper := s.keys.tamper &&& ~~~(value.setWidth 6) } } else s)

/-- CAL_TRIM_WRITE: a value outside −1,000 to +1,000 is not taken (DESIGN CHOICE, notes/assumptions/40.md). -/
def execCalTrimWrite (value : Word32) (s : State) : Host.Outcome State Fault Refusal :=
  let t : BitVec 11 := value.setWidth 11
  .next (if regsReady s ∧ -1000 ≤ t.toInt ∧ t.toInt ≤ 1000 then { s with cal := { s.cal with trim := t } } else s)

/-- PRT_CTRL_WRITE: the fields are RWL. A data port that is disabled has no link. -/
def execPrtCtrlWrite (port : Nat) (value : Word32) (s : State) : Host.Outcome State Fault Refusal :=
  if regsReady s ∧ ¬ s.host.cfgSealed ∧ port < 10 then
    let v := value.toNat
    .next (setPort s port (fun r =>
      let up := v.testBit 0 || 8 ≤ port
      { r with
        enable := v.testBit 0, ipv4 := v.testBit 1, ipv6 := v.testBit 2, linkUp := r.linkUp && up, fecLock := r.fecLock && up }))
  else .next s

def setPortInject (s : State) (port : Nat) (f : Inject → Inject) : State := setPort s port (fun r => { r with inject := f r.inject })

/-- FIJ_CTRL_WRITE. -/
def execFijCtrlWrite (port : Nat) (value : Word32) (s : State) : Host.Outcome State Fault Refusal :=
  .next (if regsReady s ∧ port < 10 then setPortInject s port (fun i => { i with dir := value.toNat % 4 }) else s)

/-- A write to one of the injection registers of a port. DEPTH keeps its value where 0 is written. -/
def writeInject (off v : Nat) (i : Inject) : Inject :=
  match off with
  | 0x04 => { i with drop := v % 2 ^ 16 }
  | 0x08 => { i with corrupt := v % 2 ^ 16 }
  | 0x0C => { i with reorder := v % 2 ^ 16, depth := if bitsAt v 16 8 = 0 then i.depth else bitsAt v 16 8 }
  | 0x10 => if v = 0 then i else { i with seed := v, lfsr := v }
  | _ => i

/-- REGISTER_WRITE: PRT_ECN, PRT_UDP (RWL) and the FIJ registers have RW fields; every other write is ignored. -/
def execRegisterWrite (offset : Nat) (value : Word32) (s : State) : Host.Outcome State Fault Refusal :=
  let v := value.toNat
  if ¬ regsReady s then .next s
  else if offset = 0x00071000 then
    .next (if s.host.cfgSealed then s else { s with net := { s.net with udp := v % 2 ^ 16 } })
  else if 0x00070000 ≤ offset ∧ offset < 0x00070A00 ∧ offset % 0x100 = 0x08 then
    .next (setPort s ((offset - 0x00070000) / 0x100) (fun r => { r with markKib := v % 2 ^ 16 }))
  else if 0x00090000 ≤ offset ∧ offset < 0x00090280 then
    .next (setPortInject s ((offset - 0x00090000) / 0x40) (writeInject (offset % 0x40) v))
  else .next s

/-- CONFIGURATION_SEAL: RWL fields are read-only until the next full reset (R11). -/
def execConfigurationSeal (s : State) : Host.Outcome State Fault Refusal :=
  .next (if regsReady s then { s with host := { s.host with cfgSealed := true } } else s)

/-! ### Doorbells -/

/-- The queue that a function's doorbell page reaches: the Vintner's queues 0 to 255 through the PF, those of an ACTIVE
Glove through its VF (R341, R351, R355, R356, R376). -/
def doorbellQueue (s : State) (fn queue : Nat) : Option Queue :=
  if regsReady s then
    let ctx := if fn = 0 then vintner else fn - 1
    let open_ := if fn = 0 then queue < 256 else vfExists s fn && (gloveOf s ctx).state == .active && queueInRange s ctx queue
    if open_ then (queueOf s queue).filter (fun q => q.owner == ctx) else none
  else none

def hostFilled (k : QKind) : Bool := k == .command || k == .send

/-- A new producer index is in order: not backwards, and at most the depth ahead of the consumer (R359). -/
def prodFits (q : Queue) (index : Nat) : Bool :=
  circle 32 q.prod q.cons ≤ circle 32 index q.cons && circle 32 index q.cons ≤ 2 ^ q.log2Depth

/-- A new consumer index is in order: not backwards, and not ahead of the producer. -/
def consFits (q : Queue) (index : Nat) : Bool := circle 32 index q.cons ≤ circle 32 q.prod q.cons

/-- The slots that a doorbell publishes; bytes that the host has not written are free (R360). -/
def publishedSlots (draw n : Nat) (slots : List (List Byte)) : List (List Byte) :=
  (List.range n).map (fun i =>
    let x := (slots.getD i []).take 64
    x ++ (List.range (64 - x.length)).map (fun j => Config.hostSlotByte draw (64 * i + j + x.length)))

def setBadIndex (s : State) (q : Nat) : State := setQueue s q (fun x => { x with badIndex := true })

/-! The records of a host-filled ring in a Cuff (R365 to R368). -/

/-- Offset in the Cuff of slot i of a ring. -/
def slotOffset (q : Queue) (i : Nat) : Nat := q.base + 64 * (i % 2 ^ q.log2Depth)

/-- Records opened once each; a refused one is reported, and has no plaintext. -/
def openRecords (s : State) (g : Nat) (js : List Nat) : List (Nat × List Byte) × State :=
  js.foldl (fun acc j =>
    match cuffOpen acc.2 g j with
    | .ok (plain, s') => (acc.1 ++ [(j, plain)], s')
    | .error f => (acc.1, dmaReport acc.2 g f)) ([], s)

/-- The entries of a Cuff ring up to a new producer index: those read before stay, the others are read with the records that
hold them. An entry of a refused record is empty (DESIGN CHOICE, notes/assumptions/11.md). -/
def cuffSlots (s : State) (q : Queue) (n : Nat) : List (List Byte) × State :=
  let old := q.slots ++ List.replicate n []
  let placed := (List.range old.length).map (fun i => slotOffset q (q.cons + i))
  let missing := ((List.zip placed old).filter (fun x => x.2.isEmpty)).map (fun x => x.1 / 4096)
  let (plains, s1) := openRecords s q.owner (missing.foldl (fun l j => if l.contains j then l else l ++ [j]) [])
  ((List.zip placed old).map (fun x =>
    if x.2.isEmpty then
      match plains.find? (fun r => r.1 == x.1 / 4096) with
      | some r => slice r.2 (x.1 % 4096) 64
      | none => []
    else x.2), s1)

/-- GBL_DB_PROD: the bytes that the host made visible before it, and the new producer index. The entries of a ring in a Cuff
are read from its records. -/
def execGblDbProd (fn queue : Nat) (index : Word32) (slots : List (List Byte)) (visible : List HostWrite) (s : State) :
    Host.Outcome State Fault Refusal :=
  let s1 := visible.foldl (fun s w => hostWrite s w.fn w.addr w.bytes) s
  match doorbellQueue s1 fn queue with
  | none => .next s1
  | some q =>
    if hostFilled q.kind ∧ prodFits q index.toNat then
      let n := circle 32 index.toNat q.prod
      let (held, s2) :=
        if q.cuff ∧ q.owner < 16 then cuffSlots s1 q n
        else (q.slots ++ publishedSlots (drawFree s1).1 n slots, (drawFree s1).2)
      .next (setQueue s2 q.id (fun x => { x with slots := held, prod := index.toNat, stopped := false }))
    else .next (setBadIndex s1 q.id)

/-- GBL_DB_CONS: entries read by the host go, and those that waited for room are posted; deliveries that waited for a
completion entry go on (R77, R359). -/
def execGblDbCons (fn queue : Nat) (index : Word32) (s : State) : Host.Outcome State Fault Refusal :=
  match doorbellQueue s fn queue with
  | none => .next s
  | some q =>
    if ¬ hostFilled q.kind ∧ consFits q index.toNat then
      let s1 := setQueue s q.id (fun x => { x with
        entries := x.entries.drop (circle 32 index.toNat x.cons), cons := index.toNat })
      let s2 := drainBacklog q.backlog.length s1 q.id
      .next (if q.kind = .completion then settleEnds (settleRevokes (resumeDeliveries s2 q.owner)) else s2)
    else .next (setBadIndex s q.id)

/-! ### MSI-X -/

/-- The function may send messages: the PF, or the VF of a Glove that is not WEDGED (R376). -/
def maySignal (s : State) (fn : Nat) : Bool :=
  hostReady s && (fn == 0 || (vfExists s fn && (gloveOf s (fn - 1)).state != .wedged))

def setVector (s : State) (fn i : Nat) (f : Vector → Vector) : State :=
  { s with host := { s.host with vectors := mapIf (fun v => v.fn == fn && v.index == i) f s.host.vectors } }

/-- One message; its pending count is 0 afterwards. -/
def sendMsi (v : Vector) : Vector := { v with count := 0, pendingBit := false, sent := v.sent + 1 }

/-- MSIX_MESSAGE: threshold or delay is met. A masked vector sets its pending bit and sends nothing. -/
def execMsixMessage (fn vector : Nat) (s : State) : Host.Outcome State Fault Refusal :=
  .next (if maySignal s fn then
    setVector s fn vector (fun v => if v.count = 0 then v else if v.masked then { v with pendingBit := true } else sendMsi v) else s)

/-- MSIX_UNMASK. -/
def execMsixUnmask (fn vector : Nat) (s : State) : Host.Outcome State Fault Refusal :=
  .next (if maySignal s fn then
    setVector s fn vector (fun v =>
      let u : Vector := { v with masked := false, pendingBit := false }
      if v.count = 0 then u else sendMsi u) else s)

/-! ### DMA_READ_FAIL (R362, R368) -/

/-- The report of a read that failed; a record is refused only in a Cuff. -/
def dmaFailure (s : State) (owner : Nat) (cause : DmaCause) : State :=
  let x := (gloveOf s owner).session
  if owner < 16 ∧ x.state = .established then dmaReport s owner { cause := cause, records := x.records } else s

/-- The request at the head of a queue reads its source now: it is neither TRIGGERED nor a counter wait that is short. -/
def readsNow (s : State) (e : List Byte) : Bool :=
  !wrTriggered e && (!wrCounterWait e || counterReached s e) && !e.isEmpty

/-- A window's host memory could not be read: for an accepted READ_REQ or ATOMIC, which is NAKed, or for the request that
would take the PSN next, which completes with the status; where that one has not fired yet, it does so as it fires. -/
def failWindowRead (s : State) (c : Conn) (psn : Nat) (cause : DmaCause) : State :=
  let st := dmaStatus cause
  let serving (f : Inflight) : Bool := f.psn == psn && f.verdict == .place && (f.op == 0x02 || f.op == 0x05)
  match c.req.flight.find? serving with
  | some f =>
    let spoil (r : SeqRx) : SeqRx := { r with
      flight := mapIf serving (fun f => { f with verdict := .refuse st 0 }) r.flight }
    refusePacket (setConn s c.id (fun c => { c with req := spoil c.req })) c.id false f.pkt.port psn f.pkt.msg st 0
  | none =>
    if c.txReq.next = psn then
      match (s.queues.filter (fun q => (queueConn s q.id).map (fun k => k.id) == some c.id)).findSome? (fun q => readyHead s q.id) with
      | some (q, e) =>
        if wrOp e = 2 then s
        else if readsNow s e then failRequest (consumeSlots s q.id 1) c q.id e st 0
        else setConn s c.id (fun c => { c with readFail := some (psn, cause) })
      | none => setConn s c.id (fun c => { c with readFail := some (psn, cause) })
    else s

/-- DMA_READ_FAIL. -/
def execDmaReadFail (target : DmaTarget) (cause : DmaCause) (s : State) : Host.Outcome State Fault Refusal :=
  let st := dmaStatus cause
  match target with
  | .commandRing queue =>
    match queueOf s queue with
    | some q => .next (failCommandRing (dmaFailure s q.owner cause) q q.cons st)
    | none => .next s
  | .sendRing queue =>
    match queueOf s queue with
    | some q => .next (failSendRing (dmaFailure s q.owner cause) q st)
    | none => .next s
  | .window conn psn =>
    match connOf s conn with
    | some c => .next (failWindowRead (dmaFailure s c.owner cause) c psn cause)
    | none => .next s
  | .context conn =>
    match connOf s conn with
    | some c =>
      if c.fetching then
        .next (failFetch (dmaFailure s c.owner cause) c)
      else .next s
    | none => .next s

/-! ### What a port answers by itself (R112), and the sideband's address (R491) -/

/-- The Glove that has an address on a port. -/
def addressOwner (s : State) (port : Nat) (addr : PortShare → Nat) (address : Nat) : Option Glove :=
  s.gloves.find? (fun x => x.state != .free && x.cfg.ports.testBit port && addr (x.cfg.shares.getD port {}) == address && address != 0)

/-- A data port that is up and accepts a version of IP. -/
def portUp (s : State) (port : Nat) (v6 : Bool) : Bool :=
  let r := portOf s port
  powered s && port < 8 && r.enable && r.linkUp && (if v6 then r.ipv6 else r.ipv4)

def emit (s : State) (w : Wire) : State := { s with net := { s.net with out := s.net.out ++ [w] } }

/-- ARP_REQUEST. -/
def execArpRequest (port address sender : Nat) (s : State) : Host.Outcome State Fault Refusal :=
  match addressOwner s port (fun x => x.ipv4) address with
  | some g => .next (if portUp s port false then emit s (.arpReply port address (g.cfg.shares.getD port {}).mac sender) else s)
  | none => .next s

/-- NEIGHBOUR_SOLICITATION. -/
def execNeighbourSolicitation (port address sender : Nat) (s : State) : Host.Outcome State Fault Refusal :=
  match addressOwner s port (fun x => x.ipv6) address with
  | some g => .next (if portUp s port true then emit s (.neighbourAdvert port address (g.cfg.shares.getD port {}).mac sender) else s)
  | none => .next s

/-- ECHO_REQUEST. -/
def execEchoRequest (port : Nat) (v6 : Bool) (address sender : Nat) (payload : List Byte) (s : State) :
    Host.Outcome State Fault Refusal :=
  match addressOwner s port (fun x => if v6 then x.ipv6 else x.ipv4) address with
  | some _ => .next (if portUp s port v6 then emit s (.echoReply port v6 address sender payload) else s)
  | none => .next s

/-- The static address of the endpoint (R491). -/
def staticAddress : Nat := 0x4C

/-- DYNAMIC_ADDRESS_ASSIGNMENT: the endpoint lies on the auxiliary domain; ENTDAA gives it the address, or SETDASA from the
static address it names, while it has none. -/
def execDynamicAddressAssignment (address : Nat) (setdasa : Option Nat) (s : State) : Host.Outcome State Fault Refusal :=
  let known := setdasa.isSome && (s.side.address.isSome || setdasa != some staticAddress)
  .next (if s.pwr.state = .off ∨ known then s else { s with side := { s.side with address := some address } })

end Sys2Proof.Machine
end

