-- ==== Sys2Proof/Machine/Sessions.lean ====
section
/-! DEFINITION. Sessions and the Cuff's keys: commands 0x0010 to 0x0013 (R363, R370 to R373). -/

set_option autoImplicit false

namespace Sys2Proof.Machine

def setSession (s : State) (g : Nat) (f : Session → Session) : State :=
  setGlove s g (fun x => { x with session := f x.session })

/-! ### SESSION_KEYGEN (R371) -/

def cmdSessionKeygen : Cmd where
  op := 0x0010
  names p _ := [.glove p.ctx, .window (p.u32 0 / 256)]
  access p s := windowCheck s p.ctx (p.u32 0) rightWrite (p.u64 8) 1568 (p.len == 16)
  form p _ := formError p (p.len = 16) false [(4, p.u32 4 == 0)]
  state p s := do
    need ((gloveOf s p.ctx).session.state != .established) .badState
    entropyReady s
  draw _ _ := some (1, 2)
  body p s := do
    let (seed, s1) := drawBytes s 64
    let ek := padTo 1568 (Config.mlkemEk seed)
    let s2 ← writeWindow s1 p.ctx (p.u32 0) (p.u64 8) ek
    .ok (setSession s2 p.ctx (fun x => { x with state := .keyed, ek := ek, dk := seed }), okBytes (Crypto.sha256 ek))

/-- SESSION_KEYGEN. -/
def execSessionKeygen (p : Packet) (s : State) : Host.Outcome State Fault Refusal := runCmd cmdSessionKeygen p s

/-! ### SESSION_OPEN (R371, R372) -/

def openCt (p : Packet) : List Byte := p.bytes 32 1568

/-- The 128 bytes of R371: k_h2e, k_e2h, k_conf_host, k_conf_eng. -/
def sessionKeys (s : State) (g : Nat) (p : Packet) : List Byte :=
  let x := (gloveOf s g).session
  Crypto.kdf108 (Config.mlkemDecaps x.dk (openCt p)) (ascii "LQ-CUFF-V1")
    (toLE 1 g ++ toLE 4 s.fw.epoch ++ toLE 2 (x.count + 1) ++ Crypto.sha256 (x.ek ++ openCt p)) 128

/-- A confirmation of R371. -/
def confirmation (key : List Byte) (label : String) (h : List Byte) : List Byte :=
  (Crypto.hmac key (ascii label ++ h)).take 16

/-- The key pair is zeroed and the session is NONE (R372). -/
def zeroPair (x : Session) : Session := { x with state := .none, ek := [], dk := [] }

/-- A refused SESSION_OPEN of a KEYED session has used its key pair, whatever refused it (R372; DEDUCED,
notes/assumptions/143.md). -/
def pairSpent (p : Packet) (s : State) : State :=
  if p.ctx < 16 ∧ turnOf s p = p.ctx ∧ (gloveOf s p.ctx).session.state = .keyed then setSession s p.ctx zeroPair else s

def cmdSessionOpen : Cmd where
  op := 0x0011
  names p _ := [.glove p.ctx]
  form p s :=
    let records := 2 ^ (p.u8 16 - 12)
    formError p (p.len = 1616) false
      [(0, p.u64 0 % 2 ^ 21 == 0), (8, p.u64 8 % 2 ^ 16 == 0), (16, 21 ≤ p.u8 16 && p.u8 16 ≤ 30), (17, p.u8 17 ≤ 1),
       (18, p.u16 18 == 0), (20, (p.u32 20 == 0 || (gloveOf s p.ctx).cfg.ctxHost) && p.u32 20 ≤ records),
       (24, p.u32 20 + p.u32 24 ≤ records), (28, p.u32 28 == 0)]
  state p s := need ((gloveOf s p.ctx).session.state == .keyed) .badState
  spent := pairSpent
  body p s := do
    need (lpddrFits s p.ctx (tableMib (p.u8 16))) .noResource
    let x := (gloveOf s p.ctx).session
    let keys := sessionKeys s p.ctx p
    let h := Crypto.sha256 (x.ek ++ openCt p ++ p.bytes 0 32)
    if p.bytes 1600 16 ≠ confirmation (slice keys 64 32) "HOST" h then
      .ok (setSession s p.ctx zeroPair, .answer { status := .cuffAuth })
    else
      let opened (x : Session) : Session := {
        state := .established, confidential := p.u8 17 == 1, count := (x.count + 1) % 2 ^ 16, ek := x.ek, dk := []
        dataBase := p.u64 0, tagBase := p.u64 8, log2S := p.u8 16, ctxRecords := p.u32 20, ctxFirst := p.u32 24
        keys := keys.take 64 }
      .ok (setSession s p.ctx opened, okBytes (confirmation (slice keys 96 32) "ENGINE" h))

/-- SESSION_OPEN. -/
def execSessionOpen (p : Packet) (s : State) : Host.Outcome State Fault Refusal := runCmd cmdSessionOpen p s

/-! ### SESSION_CLOSE (R373) -/

/-- A queue, window or context of the Glove lies in the Cuff. -/
def cuffInUse (s : State) (g : Nat) : Bool :=
  s.queues.any (fun q => q.owner == g && q.cuff) || s.windows.any (fun w => w.owner == g && w.cuff) ||
    ((gloveOf s g).cfg.ctxHost && s.conns.any (fun c => c.owner == g && !c.resident))

/-- What is left of a session that has ended: its number (R371). -/
def endedSession (x : Session) : Session := { count := x.count }

def cmdSessionClose : Cmd where
  op := 0x0012
  names p _ := [.glove p.ctx]
  form p _ := formError p (p.len = 8) false [(0, p.u64 0 == 0)]
  state p s := do
    let x := (gloveOf s p.ctx).session
    need (x.state == .established) .badState 1
    need (!cuffInUse s p.ctx) .badState 2
    need (!x.confidential) .badState 3
  body p s := .ok (setSession s p.ctx endedSession, okWith)

/-- SESSION_CLOSE. -/
def execSessionClose (p : Packet) (s : State) : Host.Outcome State Fault Refusal := runCmd cmdSessionClose p s

/-! ### SESSION_QUERY -/

def cmdSessionQuery : Cmd where
  op := 0x0013
  names p _ := [.glove p.ctx]
  form p _ := formError p (p.len = 8) false [(0, p.u64 0 == 0)]
  body p s :=
    let g := gloveOf s p.ctx
    let size := if g.session.state = .established then g.session.log2S else 0
    .ok (s, okWith (regGlvSession g) g.session.refused g.session.counter size)

/-- SESSION_QUERY. -/
def execSessionQuery (p : Packet) (s : State) : Host.Outcome State Fault Refusal := runCmd cmdSessionQuery p s

end Sys2Proof.Machine
end

