-- ==== Sys2Proof/Machine/Trellis.lean ====
section
/-! DEFINITION. The Trellis ring (R152 to R156): membership, heartbeats, TRELLIS_JOIN, TRELLIS_LEAVE and
TRELLIS_STATUS, and the training of links. -/

set_option autoImplicit false

namespace Sys2Proof.Machine

/-- A member leaves: under LIVE, from OPEN on, a shard whose lead left, and a lead that has no complete report over any connection
to a member it has one to, set SHARD_MISMATCH (R98; DEDUCED, notes/assumptions/28.md). -/
def memberGone (s : State) (m : Nat) : State :=
  (s.vintages.filter (fun v => v.live && 1 < v.shardCount && !v.survivorsFixed && !v.shardMismatch &&
      (v.state == .opened || v.state == .sealedV || v.state == .unmasking))).foldl (fun s v =>
    let mine := s.conns.filter (fun c => c.owner == v.glove && c.trellis && c.member == m)
    let missing := !mine.isEmpty && !v.reports.any (fun r => r.complete && mine.any (fun c => c.id == r.conn))
    if isLead s v then (if missing then leadMismatch s v.glove v.id else s)
    else if v.lead = m then setVintage s v.glove v.id (fun v => { v with shardMismatch := true })
    else s) s

/-! ### TRELLIS_JOIN, TRELLIS_LEAVE, TRELLIS_STATUS -/

def cmdTrellisJoin : Cmd where
  op := 0x0609
  sideband := true
  issuer := .vintner
  form p _ := formError p (p.len = 8) false
    [(0, p.u16 0 != 0 && p.u16 0 != 0xFFFF), (2, p.num 2 6 == 0)]
  state p s := need (s.net.trellis.bypass == 0 && !s.net.trellis.members.contains (p.u16 0)) .badState
  body p s := .ok (setTrellis s (fun t => { t with bypass := 1, member := p.u16 0 }), .waits .join)

/-- TRELLIS_JOIN: the bypass opens; the reply comes with the module's first heartbeat. -/
def execTrellisJoin (p : Packet) (s : State) : Host.Outcome State Fault Refusal := runCmd cmdTrellisJoin p s

def ringForm (p : Packet) : Option Nat := formError p (p.len = 8) false [(0, p.u64 0 == 0)]

/-- Both Trellis links go down with the bypass closed (PRT_STATUS). -/
def closeBypass (s : State) : State :=
  let down (r : PortRegs) : PortRegs := { r with linkUp := false, fecLock := false }
  setPort (setPort (setTrellis s (fun t => { t with bypass := 0 })) 8 down) 9 down

def cmdTrellisLeave : Cmd where
  op := 0x060A
  sideband := true
  issuer := .vintner
  form p _ := ringForm p
  state _ s := need (s.net.trellis.bypass == 2) .badState
  body _ s :=
    let s1 := (s.conns.filter (fun c => c.trellis)).foldl (fun s c => closeConn s c.id) s
    .ok (closeBypass s1, okWith)

/-- TRELLIS_LEAVE. -/
def execTrellisLeave (p : Packet) (s : State) : Host.Outcome State Fault Refusal := runCmd cmdTrellisLeave p s

def cmdTrellisStatus : Cmd where
  op := 0x060B
  sideband := true
  issuer := .vintner
  form p _ := ringForm p
  body _ s :=
    let t := s.net.trellis
    .ok (s, okWith (t.member + 2 ^ 16 * t.bypass + 2 ^ 18 * t.members.length) t.ringEpoch)

/-- TRELLIS_STATUS. -/
def execTrellisStatus (p : Packet) (s : State) : Host.Outcome State Fault Refusal := runCmd cmdTrellisStatus p s

/-! ### Heartbeats (R155) -/

/-- HEARTBEAT. -/
def execHeartbeat (w : WraPacket) (s : State) : Host.Outcome State Fault Refusal :=
  if ¬ (portOpen s w.port ∧ 8 ≤ w.port ∧ isWra s w) then .next s
  else
    let (ps, s1) := injectPort { s with clock := { s.clock with cycle := w.cycle } } true w.port { op := 0x0E, pkt := w }
    .next (ps.foldl received s1)

/-- HEARTBEAT_ORIGINATE: every 100 µs while the bypass is open. -/
def execHeartbeatOriginate (s : State) : Host.Outcome State Fault Refusal :=
  let t := s.net.trellis
  .next (if s.pwr.state = .on ∧ t.bypass ≠ 0 then
      emitRaw s 0x0E (heartbeatPacket s t.ringEpoch t.member 0)
    else s)

/-- The JOIN in progress has failed: ST_PEER_LOST, and the bypass closes again. -/
def failJoin (s : State) : State := endJoin (closeBypass s) { status := .peerLost }

/-- MEMBER_TIMEOUT: a member not seen for 20 ms leaves the membership. For the member that a JOIN is bringing
in it is the end of JOIN's 50 ms (DESIGN CHOICE, notes/assumptions/29.md). -/
def execMemberTimeout (member : Nat) (s : State) : Host.Outcome State Fault Refusal :=
  let t := s.net.trellis
  if t.bypass = 1 ∧ member = t.member ∧ ¬ t.members.contains member then .next (failJoin s)
  else if t.members.contains member then
    .next (memberGone (setMembers s (t.members.filter (· != member))) member)
  else .next s

/-! ### Links (PRT_STATUS) -/

/-- LINK_TRAINED: a data port trains while it is enabled, a Trellis port from JOIN to LEAVE. -/
def execLinkTrained (port : Nat) (s : State) : Host.Outcome State Fault Refusal :=
  .next (if portOpen s port then setPort s port (fun r => { r with linkUp := true, fecLock := true }) else s)

/-- LINK_LOST: the status bits fall; a JOIN that still waits for its links ends with ST_PEER_LOST. -/
def execLinkLost (port : Nat) (s : State) : Host.Outcome State Fault Refusal :=
  let s1 := setPort s port (fun r => { r with linkUp := false, fecLock := false })
  .next (if 8 ≤ port ∧ s.net.trellis.bypass = 1 then failJoin s1 else s1)

end Sys2Proof.Machine
end

