-- ==== Sys2Proof/Machine/Turn.lean ====
section
/-! DEFINITION. The Cellarmaster's side of a packet's life: dispatch turns (R22, R30, R31), the precedence pass (R40,
R41, R43, R504), the replies of a Glove reset, contribution close, draws that have been served (R389), the sideband
(R440, R491, R492, R505), and faults and restarts of the Cellarmaster (R44 to R52). -/

set_option autoImplicit false

namespace Sys2Proof.Machine

/-! ### Opcodes (R26) -/

/-- Every defined opcode. -/
def commands : List Cmd :=
  [cmdNop, cmdQueueCreate, cmdQueueDestroy, cmdQueueFlush, cmdQueueQuery, cmdSessionKeygen, cmdSessionOpen,
   cmdSessionClose, cmdSessionQuery, cmdVintageCreate, cmdCaskAlloc, cmdCaskFree, cmdVintageOpen,
   cmdVintageSeal, cmdVintageClose, cmdVintageAbort, cmdVintageQuery, cmdCaskQuery, cmdLeesRack,
   cmdLeesRetract] ++
  [cmdCaskAdjust, cmdMaskSetup, cmdGraphLoad, cmdPubkeyLoad, cmdShareSubmit, cmdLedgerQuery, cmdMaskKeygen,
   cmdMaskApply, cmdShareSplit, cmdLatParamLoad, cmdLatUnload, cmdLatKeysetCreate, cmdLatEvkLoad, cmdLatBind,
   cmdLatImport, cmdLatHdrRead, latCmd latAdd, latCmd latSub, latCmd latMulConst, latCmd latMulPlain] ++
  [latCmd latMul, latCmd latRotate, latCmd latRescale, latCmd latLevelDrop, latCmd latForm_,
   latCmd latEncryptPk encryptDraw, cmdRefreshSetup, cmdLutLoad, cmdLutFree, latCmd refreshPackedOp,
   latCmd refreshLweOp, latCmd schemeSwitchOp, cmdThrShareLoad, cmdThrPartial, cmdVintageRelease,
   cmdRecipeLoad, cmdRecipeFree, cmdWindowCreate, cmdWindowRevoke, cmdWindowQuery] ++
  [cmdConnCreate, cmdConnDestroy, cmdConnQuery, cmdTriggerCancel, cmdFaultInject, cmdTrellisJoin,
   cmdTrellisLeave, cmdTrellisStatus, cmdGloveAssign, cmdGloveReset, cmdGloveRelease, cmdGloveModeSet,
   cmdGloveQuery, cmdKeyOwnerSet, cmdKeyLoad, cmdKeyInvalidate, cmdKeyCreate, cmdKeyEvict, cmdKeyQuery,
   cmdKeyRotateSet] ++
  [cmdAttestReport, cmdCertRead, cmdEndorseLoad, cmdFwStage, cmdFwSelect, cmdFwQuery, cmdLcTransition,
   cmdDebugSet, cmdEntRead, cmdEntStatus, cmdEntSourceCtrl, cmdEntRawRead, cmdIntVatCtrl, cmdIntBist,
   cmdIntHistoryRead, cmdIntQuery, cmdPhaseTick, cmdPhaseSourceSet, cmdCalSet, cmdPhaseQuery] ++
  [cmdModuleReset, cmdModuleStatus, cmdPowerCapSet]

/-- The command of an opcode; none where it is undefined (R26). -/
def cmdOf (op : Nat) : Option Cmd := commands.find? (fun c => c.op == op)

/-- A packet names an object of a Glove. -/
def namesGlove (g : Nat) (s : State) (p : Packet) : Bool :=
  ((cmdOf p.opcode).map (fun c => (c.names p s).any (objGlove s g))).getD false

/-! ### The precedence pass (R40, R41, R43, R504) -/

/-- What takes part in the pass of a cycle: a staged command, a seal that a tick causes, or a Function Level Reset
that owns a Glove reset. -/
inductive Entrant where
  | command (p : Packet) (c : Cmd)
  | seal (glove vintage : Nat) (tick : Option (Nat × Nat × Nat))
  | flr (glove : Nat)

def Entrant.rank : Entrant → Nat
  | .command _ c => c.rank
  | .seal _ _ _ => 2
  | .flr _ => 5

/-- Source, queue and arrival order; a seal caused by a PHASE_TICK sorts as that packet does. -/
def Entrant.place : Entrant → Nat × Nat × Nat
  | .command p _ => (routeRank p.route, if p.route = .sideband then 0 else p.queue, p.order)
  | .seal _ _ tick => tick.getD (0, 0, 0)
  | .flr _ => (0, 0, 0)

/-- The opcode that a reply names for it (R25). -/
def Entrant.opcode : Entrant → Nat
  | .command p _ => p.opcode
  | .seal _ _ _ => 0x0105
  | .flr _ => 0x0701

def Entrant.names (s : State) : Entrant → List Obj
  | .command p c => c.names p s
  | .seal g v _ => [.vintage g v]
  | .flr g => [.glove g]

/-- The Glove that a Glove reset resets. -/
def Entrant.resets : Entrant → Option Nat
  | .command p c => if c.rank = 5 then some (p.u8 0) else none
  | .seal _ _ _ => none
  | .flr g => some g

/-- Whether the scope contains an object (R40). -/
def Entrant.covers (s : State) (e : Entrant) (o : Obj) : Bool :=
  match e.rank with
  | 6 => true
  | 5 => (e.resets.map (fun g => objGlove s g o)).getD false
  | 2 => (match o with
    | .vintage _ _ => (e.names s).contains o
    | _ => false)
  | _ => (e.names s).contains o

/-- Two entrants conflict (R41). A reset of a Glove joins another of the same Glove (R339). -/
def conflicts (s : State) (a b : Entrant) : Bool :=
  (2 ≤ a.rank || 2 ≤ b.rank) && !(a.resets.isSome && a.resets == b.resets) &&
  ((b.names s).any (a.covers s) || (a.names s).any (b.covers s))

/-- The order of R41. -/
def sortEntrants (l : List Entrant) : List Entrant :=
  sortBy (fun e => 6 - e.rank) (sortBy (fun e => e.place.1) (sortBy (fun e => e.place.2.1) (sortBy (fun e => e.place.2.2) l)))

/-- The procedure of R41: losers, each with its winner. -/
def settle (s : State) : List Entrant → List Entrant → List (Entrant × Entrant)
  | [], _ => []
  | e :: rest, accepted =>
    match accepted.find? (fun a => conflicts s a e) with
    | some a => (e, a) :: settle s rest accepted
    | none => settle s rest (accepted ++ [e])

/-- Seals that fell due in a cycle and have not acted: the due contribution closes of OPEN Vintages. -/
def cycleSeals (s : State) (c : Nat) : List Entrant :=
  (List.range 16).flatMap (fun g =>
    ((gloveOf s g).phase.due.filter (fun e => e.cycle == c && e.kind == .contributionClose &&
      ((vintageOf s g e.vintage).map (fun v => v.state == .opened)).getD false)).map (fun e =>
        .seal g e.vintage e.byTick))

/-- Function Level Resets of a cycle that own a Glove reset. -/
def cycleFlrs (s : State) (c : Nat) : List Entrant :=
  ((List.range 16).filter (fun g =>
    ((gloveOf s g).reset.map (fun r => r.source == 1 && r.cycle == c)).getD false)).map .flr

def cyclePackets (s : State) (c : Nat) : List Packet := s.staged.filter (fun p => p.cycle == c)

def rankOf (p : Packet) : Nat := ((cmdOf p.opcode).map (fun c => c.rank)).getD 1

/-- A cycle of rank 1 commands alone, without a seal, needs no pass. -/
def needsPass (s : State) (c : Nat) : Bool :=
  !s.clock.passed.contains c &&
    (!(cycleSeals s c).isEmpty || !(cycleFlrs s c).isEmpty || (cyclePackets s c).any (fun p => 2 ≤ rankOf p))

def unstage (s : State) (order : Nat) : State := { s with staged := s.staged.filter (fun p => p.order != order) }

/-- Steps 1 to 5 at the pass: a command that fails one is answered at once. -/
def enterPass (acc : State × List Entrant) (p : Packet) : State × List Entrant :=
  match cmdOf p.opcode with
  | none => (reply (unstage acc.1 p.order) p { status := .badOpcode }, acc.2)
  | some c =>
    match checks c p acc.1 with
    | .error r =>
      let s1 := unstage acc.1 p.order
      (refuse (c.spent p s1) p r, acc.2)
    | .ok () => (acc.1, acc.2 ++ [.command p c])

/-- The winner's reply names the first command it overruled: the winning packet's, or that of the tick whose seal
won (R25). -/
def noteOverruled (s : State) (winner loser : Entrant) : State :=
  let mark (order : Nat) : State :=
    { s with staged := mapIf (fun p => p.order == order && p.overruled == 0) (fun p => { p with overruled := loser.opcode }) s.staged }
  match winner with
  | .command p _ => mark p.order
  | .seal _ _ (some t) => mark t.2.2
  | _ => s

/-- A tick's result 3 counts the seals it caused that an abort overruled (R43). -/
def countOverruledSeal (s : State) (tick : Nat) : State :=
  let bump (a : Answer) : Answer := { a with r3 := a.r3 + 1 }
  { s with staged := mapIf (fun p => p.order == tick) (fun p => { p with tick := p.tick.map bump }) s.staged }

/-- A loser goes: a packet with ST_OVERRULED (without a reply where a full reset won), a seal with its event. -/
def overrule (s : State) (x : Entrant × Entrant) : State :=
  let (loser, winner) := x
  let s1 := noteOverruled s winner loser
  match loser with
  | .command p _ =>
    let s2 := unstage s1 p.order
    if winner.rank = 6 then s2 else reply s2 p { status := .overruled, detail := winningOpcode winner.opcode }
  | .seal g v tick =>
    let gone (e : DueEvent) : Bool := e.kind == .contributionClose && e.vintage == v
    let s2 := setGlove s1 g (fun x => { x with phase := { x.phase with due := x.phase.due.filter (fun e => !gone e) } })
    match tick with
    | some t => if winner.rank = 4 then countOverruledSeal s2 t.2.2 else s2
    | none => s2
  | .flr _ => s1

/-- The pass of a cycle. Seals that win take effect in it, each as soon as it is the first due event of its Glove. -/
def precedencePass (s : State) (c : Nat) : State :=
  let (s1, cands) := (cyclePackets s c).foldl enterPass (s, [])
  let losers := settle s1 (sortEntrants (cands ++ cycleSeals s1 c ++ cycleFlrs s1 c)) []
  let s2 := losers.foldl overrule s1
  let s3 := (cycleSeals s2 c).foldl (fun s e =>
    match e with
    | .seal g v _ => takeClose s g v
    | _ => s) s2
  { s3 with clock := { s3.clock with
      passed := (s3.clock.passed ++ [c]).filter (fun k => s3.staged.any (fun p => p.cycle == k)) } }

/-- The pass, where a cycle still needs one. -/
def ensurePass (s : State) (c : Nat) : State := if needsPass s c then precedencePass s c else s

/-- CONTRIBUTION_CLOSE_DUE: the seal belongs to the pass of the cycle whose tick made it fall due. -/
def execContributionCloseDue (glove vintage : Nat) (s : State) : Host.Outcome State Fault Refusal :=
  let s1 := match dueFor s glove .contributionClose vintage with
    | some e => ensurePass s e.cycle
    | none => s
  .next (takeClose s1 glove vintage)

/-! ### Dispatch turns (R22, R30, R31) -/

/-- Two packets come from one command queue; the sideband's buffer counts as one. -/
def sameQueue (p x : Packet) : Bool :=
  if p.route = .sideband then x.route == .sideband else x.route != .sideband && x.queue == p.queue

/-- A dispatched command still waits for its draw, or works. -/
def drawing (o : Outstanding) : Bool :=
  match o.wait with
  | .entropy _ _ => true
  | .work => true
  | _ => false

/-- A command dispatched before, which waits for its draw or works, names an object that the packet names: the two take effect in
the order of dispatch (R34). Commands of ranks 4 to 6 preempt it instead (R42). -/
def heldByDraw (s : State) (p : Packet) : Bool :=
  match cmdOf p.opcode with
  | some c => c.rank < 4 && s.outstanding.any (fun o => drawing o && o.names.any (fun x => (c.names p s).contains x))
  | none => false

/-- The packet is a VINTAGE_SEAL, or one on the same Vintage is staged before it. -/
def sealAhead (s : State) (p : Packet) : Bool :=
  p.opcode == 0x0105 ||
    s.staged.any (fun x => x.opcode == 0x0105 && x.ctx == p.ctx && x.vintage == p.vintage && x.order < p.order)

/-- A phase event that has fallen due below the packet's stamp has not acted yet on the Vintage it names, or a cut of one of
that Vintage's Casks is still to be taken which an adjustment stamped above its phase must stay out of. The packet then
finds the Vintage as its stamp has it (R63, R64, R71, R237). A VINTAGE_SEAL waits for the packets that the OPEN Vintage has
accepted, as the seal of a tick does (R231; DEDUCED, notes/assumptions/15.md), and what is serialized behind it on the Vintage waits with it. Commands of
ranks 4 to 6 do not wait. -/
def heldByPhase (s : State) (p : Packet) : Bool :=
  p.ctx < 16 && p.vintage != 0 && ((cmdOf p.opcode).map (fun c => decide (c.rank < 4))).getD false &&
  (((gloveOf s p.ctx).phase.due ++ openingEvents s p.ctx).any (fun e => e.kind != .keyRotation && e.vintage == p.vintage && e.phase < p.stamp.count) ||
   (sealAhead s p && closeWaits s p.ctx p.vintage (2 ^ 48)) ||
   (p.opcode == 0x0122 && (casksBound s p.ctx p.vintage).any (fun c => c.dueCuts.any (fun d => d.2.1.count < p.stamp.count))))

/-- A packet that FENCE, ORDERED, the order of R34 and due phase events do not hold back. -/
def mayDispatch (s : State) (p : Packet) : Bool :=
  let before (x : Packet) : Bool := x.order < p.order && sameQueue p x
  !((p.fence || p.ordered) && s.staged.any before) && !(p.fence && s.outstanding.any (fun o => before o.pkt)) &&
  !heldByDraw s p && !heldByPhase s p

/-- The packet of a context that is dispatched next: lowest class, then the order of staging. -/
def nextPacket (s : State) (ctx : Nat) : Option Packet :=
  (sortBy (fun p => p.priority) (s.staged.filter (fun p => turnOf s p == ctx))).find? (mayDispatch s)

/-- A staged packet is dispatched. -/
def dispatchPacket (s : State) (p : Packet) : State :=
  match cmdOf p.opcode with
  | some c => dispatch (timed c) p (unstage s p.order)
  | none => reply (unstage s p.order) p { status := .badOpcode }

/-- The packets of one turn, `left` of them; `fuel` bounds the passes that come before them. A packet that would post to a
full event queue stalls there, and the turn ends (R77). -/
def turnLoop (ctx : Nat) : Nat → Nat → State → State
  | 0, _, s => s
  | fuel + 1, left, s =>
    if left = 0 ∨ s.cm.state ≠ .running then s
    else match nextPacket s ctx with
      | none => s
      | some p =>
        if needsPass s p.cycle then turnLoop ctx fuel left (precedencePass s p.cycle)
        else
          let t := dispatchPacket s p
          if stalledBy s t then s else turnLoop ctx fuel (left - 1) t

/-- A draw has been served in full, or a lattice opcode completes: the command goes on, against the state of its objects
now. A lattice opcode was checked and planned at dispatch; it ends as R273 says where something was placed into its
operands (R270). -/
def resume (s : State) (o : Outstanding) : State :=
  match cmdOf o.pkt.opcode with
  | none => s
  | some c =>
    let p : Packet := { o.pkt with drawn := true }
    if c.works then (if o.touched then endTouched s o else runBody { c with body := c.complete o } p s)
    else match c.state p s with
    | .error r => refuse (abandon s o) p r
    | .ok () => runBody c p s

def resumeServed (s : State) (ctx : Nat) : State :=
  (s.outstanding.filter (fun o => o.pkt.ctx == ctx && (match o.wait with
    | .entropy _ 0 => true
    | .work => true
    | _ => false))).foldl (fun s o => unlessStalled s (resume s o)) s

/-- Step 2 of a Glove reset belongs to the Glove's turn (R341). -/
def turnReplies (s : State) (ctx : Nat) : State := if ctx < 16 then resetReplies s ctx (namesGlove ctx) else s

/-- DISPATCH_TURN: the replies of a reset, the work that continues, then up to 16 packets. A ledger that waited for the
last of its shares closes at its end (R220). -/
def execDispatchTurn (ctx : Nat) (s : State) : Host.Outcome State Fault Refusal :=
  if s.cm.state = .running ∧ ctx ≤ vintner then
    let s1 := resumeServed (turnReplies s ctx) ctx
    .next (settleLedgers (turnLoop ctx (Config.packetsPerTurn + s1.staged.length + 1) Config.packetsPerTurn s1))
  else .next s

/-- GLOVE_RESET_REPLIES. -/
def execGloveResetReplies (glove : Nat) (s : State) : Host.Outcome State Fault Refusal :=
  .next (if s.cm.state = .running then turnReplies s glove else s)

/-! ### LIVE waits (R70, R72, R206, R389) -/

/-- The guarantee that a waiting command runs under: the Vintage's, which a VINTAGE_OPEN took at its serialization
(R70); the Glove's for a command without an open Vintage. -/
def waitsLive (s : State) (o : Outstanding) : Bool :=
  let glove := (gloveOf s o.pkt.ctx).live
  o.pkt.ctx < 16 &&
    if o.pkt.opcode = 0x0104 then (o.pkt.mark.map markLive).getD glove
    else match vintageOf s o.pkt.ctx o.pkt.vintage with
      | some v => if v.state = .draft then glove else v.live
      | none => glove

/-- The reply of a wait that reaches 10 ms, for the waits R72 ends: SHARE_SUBMIT's carries detail 1 (R206). -/
def timeoutAnswer : Wait → Option Answer
  | .entropy _ n => if n = 0 then none else some { status := .entropyNotReady }
  | .exchange _ _ => some { status := .busyRetry, detail := 1 }
  | _ => none

/-- LIVE_WAIT_TIMEOUT. -/
def execLiveWaitTimeout (wait : LiveWait) (s : State) : Host.Outcome State Fault Refusal :=
  match wait with
  | .head queue => .next (endTableWait s queue)
  | .command order =>
    match s.outstanding.find? (fun o => o.pkt.order == order) with
    | none => .next s
    | some o =>
      match timeoutAnswer o.wait with
      | some a => .next (if waitsLive s o then endWaiting s o a else s)
      | none => .next s

/-! ### The sideband (R440, R491, R492, R505) -/

/-- A packet of the sideband: one MCTP message holds its header and its parameters. -/
def sidebandPacket (s : State) (bytes : List Byte) (cycle : Nat) : Packet :=
  packetOf (padTo 64 bytes) (bytes.drop 64) .sideband 0 (calendarWord s) cycle s.clock.order 0

/-- Packets in the sideband command buffer: staged, or not fetched yet. -/
def sidebandStaged (s : State) : Nat := (s.staged.filter (fun p => p.route == .sideband)).length + s.side.held.length

/-- A packet of the sideband is fetched: its header is checked, and it is serialized (R28, R32, R50). -/
def fetchSideband (bytes : List Byte) (cycle : Nat) (s : State) : State :=
  let p := sidebandPacket s bytes cycle
  let bad := headerError (padTo 64 bytes)
  if bad ≠ 0 then deliver s p { status := .badHeader, detail := bad }
  else if s.cm.state = .halted then deliver s p { status := .engineHalted }
  else serialize s p false

/-- Fetching resumes: the packets that the buffer holds are fetched, each in a cycle of its own after the last (R48;
DESIGN CHOICE, notes/assumptions/119.md). -/
def releaseSideband (s : State) : State :=
  s.side.held.foldl (fun s b => fetchSideband b (s.clock.cycle + 1) s) { s with side := { s.side with held := [] } }

/-- A packet that the auxiliary domain or the ROM serves, without the Cellarmaster. -/
def serveSideband (s : State) (p : Packet) : State :=
  match cmdOf p.opcode with
  | some c => dispatch c p s
  | none => deliver s p (if s.pwr.state = .on then { status := .badOpcode } else { status := .badState, detail := 1 })

/-- SIDEBAND_PACKET. While the Cellarmaster restarts or boots, the buffer holds the packet, neither fetched nor stamped
(R48, R49). -/
def execSidebandPacket (bytes : List Byte) (cycle : Nat) (s : State) : Host.Outcome State Fault Refusal :=
  let p := sidebandPacket s bytes cycle
  let bad := headerError (padTo 64 bytes)
  if s.pwr.state = .off then .next s
  else if s.pwr.state ≠ .on ∨ s.fw.recovery then
    .next (if bad ≠ 0 then deliver s p { status := .badHeader, detail := bad } else serveSideband s p)
  else if Config.sidebandBuffer ≤ sidebandStaged s then
    .next { s with side := { s.side with out := s.side.out ++ [.bufferFull], interrupt := true } }
  else if s.cm.state = .restarting ∨ s.cm.state = .boot then
    .next { s with side := { s.side with held := s.side.held ++ [bytes] } }
  else .next (fetchSideband bytes cycle s)

/-- FULL_RESET_READY: BIST has zeroed the Cellar, the firmware runs, and the engine is ready: it fetches what the sideband's
buffer holds. -/
def execFullResetReady (s : State) : Host.Outcome State Fault Refusal :=
  if powered s ∧ s.pwr.pwrGood ∧ ¬ s.pwr.perst ∧ ¬ s.pwr.ready ∧ ¬ s.fw.recovery then
    let s1 := (List.range 8).foldl startupBist s
    let place (v : Vat) : Vat := { v with out := !(v.state == .active || v.state == .joining), shadows := 0 }
    let s2 := { s1 with int := { s1.int with vats := s1.int.vats.map place } }
    let s3 := startScan (settleVats s2)
    .next (releaseSideband { s3 with
      pwr := { s3.pwr with ready := true }
      cm := { s3.cm with state := .running }
      host := { s3.host with drsSent := true } })
  else .next s

/-! ### Faults of the Cellarmaster (R44 to R52) -/

/-- The two events of R51. -/
def cmEvent (s : State) (code : Nat) (st : Status) (replies redispatched duration : Nat) : State :=
  postEvent s vintner (toLE 2 code ++ toLE 2 (statusWord st) ++ toLE 1 s.cm.lastCause ++ toLE 1 s.cm.restarts ++ zeros 2 ++
    toLE 4 replies ++ toLE 4 redispatched ++ phaseBytes s.cm.faultPhase ++ toLE 4 duration ++ zeros 4)

/-- The Cellarmaster halts: every outstanding command, dispatched or staged, ends with ST_ENGINE_HALTED (R50). -/
def haltCm (s : State) : State :=
  let gone := s.outstanding.map (fun o => o.pkt) ++ s.staged
  let s1 := { s with cm := { s.cm with state := .halted }, outstanding := [], staged := [] }
  cmEvent (gone.foldl (fun s p => deliver s p { status := .engineHalted }) s1) 0x0D11 .engineHalted gone.length 0 0

/-- A fault: the third within the window of R50 halts, any other restarts. The window is measured on the calendar's
count, which CAL_SET moves, and a fault while the Cellarmaster does not run (it restarts, boots or is halted) neither
counts nor restarts it again (DESIGN CHOICE, notes/assumptions/120.md). -/
def faultCm (s : State) (cause : Nat) : State :=
  if s.cm.state ≠ .running then s
  else
    let now := s.cal.ms
    let recent := s.cm.faults.filter (fun t => decide (now < t + Config.cmFaultWindowMs))
    let s1 := { s with cm := { s.cm with
      restarts := satAdd 255 s.cm.restarts 1, lastCause := cause, faults := recent ++ [now], faultPhase := calendarWord s } }
    if 2 ≤ recent.length then haltCm (addRecord s1 { kind := 8, unit := 0x10, outcome := cause })
    else addRecord { s1 with cm := { s1.cm with state := .restarting } } { kind := 7, unit := 0x10, outcome := cause }

/-- CM_FAULT: an uncorrectable memory error, or a work descriptor, which restarts the Cellarmaster where it fails a check
of R47 and is otherwise carried out. -/
def execCmFault (cause : CmCause) (s : State) : Host.Outcome State Fault Refusal :=
  match cause with
  | .ecc => .next (faultCm s 1)
  | .descriptor d => .next (if descriptorPasses s d then s else faultCm s 3)

/-- WATCHDOG_EXPIRE. -/
def execWatchdogExpire (s : State) : Host.Outcome State Fault Refusal := .next (faultCm s 2)

/-- CM_ECC_CORRECTED. -/
def execCmEccCorrected (s : State) : Host.Outcome State Fault Refusal :=
  .next (if powered s then { s with cm := { s.cm with eccCorr := satAdd 255 s.cm.eccCorr 1 } } else s)

/-- Step 4 of R48: a stored reply is posted. -/
def postStored (s : State) (o : Outstanding) : State :=
  match o.stored with
  | some a => settleDestroys (deliver (dropOutstanding s o.pkt.order) o.pkt a)
  | none => s

/-- Step 5 of R48: a command that had not committed runs again from the start. -/
def performAgain (s : State) (o : Outstanding) : State :=
  match cmdOf o.pkt.opcode with
  | some c => dispatch (timed c) { o.pkt with drawn := false } (dropOutstanding (abandon s o) o.pkt.order)
  | none => s

/-- CM_RESTART_DONE: stored replies, commands performed again, the event, and fetching resumes. The event counts the
commands that had not committed, in the staging records and in staging (R48, R51). -/
def execCmRestartDone (durationUs : Nat) (s : State) : Host.Outcome State Fault Refusal :=
  if s.cm.state ≠ .restarting then .next s
  else
    let s1 := { s with cm := { s.cm with state := .running } }
    let ready := s1.outstanding.filter (fun o => o.stored.isSome)
    let again := s1.outstanding.filter (fun o => o.stored.isNone && !o.committed)
    let s2 := again.foldl performAgain (ready.foldl postStored s1)
    let redispatched := again.length + s1.staged.length
    .next (releaseSideband (cmEvent s2 0x0D10 .ok ready.length redispatched durationUs))

end Sys2Proof.Machine
end

