-- ==== Sys2Proof/Machine/Dispatch.lean ====
section
/-! DEFINITION. The dispatch of the commands: one arm for each constructor of `Instr`, in the order of
spec/opcode_table.json, each a direct call of that command's meaning. -/

namespace Sys2Proof.Machine

/-- The effect of a command on everything but the queue of waiting commands. -/
def exec (i : Instr) (s : State) : Host.Outcome State Fault Refusal :=
  match i with
  | .nop p => Sys2Proof.Machine.execNop p s
  | .queueCreate p => Sys2Proof.Machine.execQueueCreate p s
  | .queueDestroy p => Sys2Proof.Machine.execQueueDestroy p s
  | .queueFlush p => Sys2Proof.Machine.execQueueFlush p s
  | .queueQuery p => Sys2Proof.Machine.execQueueQuery p s
  | .sessionKeygen p => Sys2Proof.Machine.execSessionKeygen p s
  | .sessionOpen p => Sys2Proof.Machine.execSessionOpen p s
  | .sessionClose p => Sys2Proof.Machine.execSessionClose p s
  | .sessionQuery p => Sys2Proof.Machine.execSessionQuery p s
  | .vintageCreate p => Sys2Proof.Machine.execVintageCreate p s
  | .caskAlloc p => Sys2Proof.Machine.execCaskAlloc p s
  | .caskFree p => Sys2Proof.Machine.execCaskFree p s
  | .vintageOpen p => Sys2Proof.Machine.execVintageOpen p s
  | .vintageSeal p => Sys2Proof.Machine.execVintageSeal p s
  | .vintageClose p => Sys2Proof.Machine.execVintageClose p s
  | .vintageAbort p => Sys2Proof.Machine.execVintageAbort p s
  | .vintageQuery p => Sys2Proof.Machine.execVintageQuery p s
  | .caskQuery p => Sys2Proof.Machine.execCaskQuery p s
  | .leesRack p => Sys2Proof.Machine.execLeesRack p s
  | .leesRetract p => Sys2Proof.Machine.execLeesRetract p s
  | .caskAdjust p => Sys2Proof.Machine.execCaskAdjust p s
  | .maskSetup p => Sys2Proof.Machine.execMaskSetup p s
  | .graphLoad p => Sys2Proof.Machine.execGraphLoad p s
  | .pubkeyLoad p => Sys2Proof.Machine.execPubkeyLoad p s
  | .shareSubmit p => Sys2Proof.Machine.execShareSubmit p s
  | .ledgerQuery p => Sys2Proof.Machine.execLedgerQuery p s
  | .maskKeygen p => Sys2Proof.Machine.execMaskKeygen p s
  | .maskApply p => Sys2Proof.Machine.execMaskApply p s
  | .shareSplit p => Sys2Proof.Machine.execShareSplit p s
  | .latParamLoad p => Sys2Proof.Machine.execLatParamLoad p s
  | .latUnload p => Sys2Proof.Machine.execLatUnload p s
  | .latKeysetCreate p => Sys2Proof.Machine.execLatKeysetCreate p s
  | .latEvkLoad p => Sys2Proof.Machine.execLatEvkLoad p s
  | .latBind p => Sys2Proof.Machine.execLatBind p s
  | .latImport p => Sys2Proof.Machine.execLatImport p s
  | .latHdrRead p => Sys2Proof.Machine.execLatHdrRead p s
  | .latAdd p => Sys2Proof.Machine.execLatAdd p s
  | .latSub p => Sys2Proof.Machine.execLatSub p s
  | .latMulConst p => Sys2Proof.Machine.execLatMulConst p s
  | .latMulPlain p => Sys2Proof.Machine.execLatMulPlain p s
  | .latMul p => Sys2Proof.Machine.execLatMul p s
  | .latRotate p => Sys2Proof.Machine.execLatRotate p s
  | .latRescale p => Sys2Proof.Machine.execLatRescale p s
  | .latLevelDrop p => Sys2Proof.Machine.execLatLevelDrop p s
  | .latForm p => Sys2Proof.Machine.execLatForm p s
  | .latEncryptPk p => Sys2Proof.Machine.execLatEncryptPk p s
  | .refreshSetup p => Sys2Proof.Machine.execRefreshSetup p s
  | .lutLoad p => Sys2Proof.Machine.execLutLoad p s
  | .lutFree p => Sys2Proof.Machine.execLutFree p s
  | .refreshPacked p => Sys2Proof.Machine.execRefreshPacked p s
  | .refreshLwe p => Sys2Proof.Machine.execRefreshLwe p s
  | .schemeSwitch p => Sys2Proof.Machine.execSchemeSwitch p s
  | .thrShareLoad p => Sys2Proof.Machine.execThrShareLoad p s
  | .thrPartial p => Sys2Proof.Machine.execThrPartial p s
  | .vintageRelease p => Sys2Proof.Machine.execVintageRelease p s
  | .recipeLoad p => Sys2Proof.Machine.execRecipeLoad p s
  | .recipeFree p => Sys2Proof.Machine.execRecipeFree p s
  | .windowCreate p => Sys2Proof.Machine.execWindowCreate p s
  | .windowRevoke p => Sys2Proof.Machine.execWindowRevoke p s
  | .windowQuery p => Sys2Proof.Machine.execWindowQuery p s
  | .connCreate p => Sys2Proof.Machine.execConnCreate p s
  | .connDestroy p => Sys2Proof.Machine.execConnDestroy p s
  | .connQuery p => Sys2Proof.Machine.execConnQuery p s
  | .triggerCancel p => Sys2Proof.Machine.execTriggerCancel p s
  | .faultInject p => Sys2Proof.Machine.execFaultInject p s
  | .trellisJoin p => Sys2Proof.Machine.execTrellisJoin p s
  | .trellisLeave p => Sys2Proof.Machine.execTrellisLeave p s
  | .trellisStatus p => Sys2Proof.Machine.execTrellisStatus p s
  | .gloveAssign p => Sys2Proof.Machine.execGloveAssign p s
  | .gloveReset p => Sys2Proof.Machine.execGloveReset p s
  | .gloveRelease p => Sys2Proof.Machine.execGloveRelease p s
  | .gloveModeSet p => Sys2Proof.Machine.execGloveModeSet p s
  | .gloveQuery p => Sys2Proof.Machine.execGloveQuery p s
  | .keyOwnerSet p => Sys2Proof.Machine.execKeyOwnerSet p s
  | .keyLoad p => Sys2Proof.Machine.execKeyLoad p s
  | .keyInvalidate p => Sys2Proof.Machine.execKeyInvalidate p s
  | .keyCreate p => Sys2Proof.Machine.execKeyCreate p s
  | .keyEvict p => Sys2Proof.Machine.execKeyEvict p s
  | .keyQuery p => Sys2Proof.Machine.execKeyQuery p s
  | .keyRotateSet p => Sys2Proof.Machine.execKeyRotateSet p s
  | .attestReport p => Sys2Proof.Machine.execAttestReport p s
  | .certRead p => Sys2Proof.Machine.execCertRead p s
  | .endorseLoad p => Sys2Proof.Machine.execEndorseLoad p s
  | .fwStage p => Sys2Proof.Machine.execFwStage p s
  | .fwSelect p => Sys2Proof.Machine.execFwSelect p s
  | .fwQuery p => Sys2Proof.Machine.execFwQuery p s
  | .lcTransition p => Sys2Proof.Machine.execLcTransition p s
  | .debugSet p => Sys2Proof.Machine.execDebugSet p s
  | .entRead p => Sys2Proof.Machine.execEntRead p s
  | .entStatus p => Sys2Proof.Machine.execEntStatus p s
  | .entSourceCtrl p => Sys2Proof.Machine.execEntSourceCtrl p s
  | .entRawRead p => Sys2Proof.Machine.execEntRawRead p s
  | .intVatCtrl p => Sys2Proof.Machine.execIntVatCtrl p s
  | .intBist p => Sys2Proof.Machine.execIntBist p s
  | .intHistoryRead p => Sys2Proof.Machine.execIntHistoryRead p s
  | .intQuery p => Sys2Proof.Machine.execIntQuery p s
  | .phaseTick p => Sys2Proof.Machine.execPhaseTick p s
  | .phaseSourceSet p => Sys2Proof.Machine.execPhaseSourceSet p s
  | .calSet p => Sys2Proof.Machine.execCalSet p s
  | .phaseQuery p => Sys2Proof.Machine.execPhaseQuery p s
  | .moduleReset p => Sys2Proof.Machine.execModuleReset p s
  | .moduleStatus p => Sys2Proof.Machine.execModuleStatus p s
  | .powerCapSet p => Sys2Proof.Machine.execPowerCapSet p s
  | .gblCtrlReset value => Sys2Proof.Machine.execGblCtrlReset value s
  | .gblDbProd fn queue index slots visible => Sys2Proof.Machine.execGblDbProd fn queue index slots visible s
  | .gblDbCons fn queue index => Sys2Proof.Machine.execGblDbCons fn queue index s
  | .phsCountLoRead fn glove => Sys2Proof.Machine.execPhsCountLoRead fn glove s
  | .calMsLoRead => Sys2Proof.Machine.execCalMsLoRead s
  | .entBlocksLoRead => Sys2Proof.Machine.execEntBlocksLoRead s
  | .intTastedLoRead => Sys2Proof.Machine.execIntTastedLoRead s
  | .gblCmStatusRead => Sys2Proof.Machine.execGblCmStatusRead s
  | .phsRefusedRead fn glove => Sys2Proof.Machine.execPhsRefusedRead fn glove s
  | .prtRxDropRead port => Sys2Proof.Machine.execPrtRxDropRead port s
  | .prtNaksRead port => Sys2Proof.Machine.execPrtNaksRead port s
  | .prtMissDropRead => Sys2Proof.Machine.execPrtMissDropRead s
  | .fijCountRead port => Sys2Proof.Machine.execFijCountRead port s
  | .entDiscardRead => Sys2Proof.Machine.execEntDiscardRead s
  | .entUnusedRead => Sys2Proof.Machine.execEntUnusedRead s
  | .keyRemaskLateRead => Sys2Proof.Machine.execKeyRemaskLateRead s
  | .intMismatchRead => Sys2Proof.Machine.execIntMismatchRead s
  | .telPinPeakRead => Sys2Proof.Machine.execTelPinPeakRead s
  | .telThrCountRead => Sys2Proof.Machine.execTelThrCountRead s
  | .calStatusWrite value => Sys2Proof.Machine.execCalStatusWrite value s
  | .keyTamperWrite value => Sys2Proof.Machine.execKeyTamperWrite value s
  | .calTrimWrite value => Sys2Proof.Machine.execCalTrimWrite value s
  | .prtCtrlWrite port value => Sys2Proof.Machine.execPrtCtrlWrite port value s
  | .fijCtrlWrite port value => Sys2Proof.Machine.execFijCtrlWrite port value s
  | .registerWrite offset value => Sys2Proof.Machine.execRegisterWrite offset value s
  | .commandFetch queue cycle => Sys2Proof.Machine.execCommandFetch queue cycle s
  | .stagedPromotion order => Sys2Proof.Machine.execStagedPromotion order s
  | .sidebandPacket bytes cycle => Sys2Proof.Machine.execSidebandPacket bytes cycle s
  | .mctpResetMessage serial => Sys2Proof.Machine.execMctpResetMessage serial s
  | .cmFault cause => Sys2Proof.Machine.execCmFault cause s
  | .watchdogExpire => Sys2Proof.Machine.execWatchdogExpire s
  | .cmRestartDone durationUs => Sys2Proof.Machine.execCmRestartDone durationUs s
  | .calendarMsTick cycle => Sys2Proof.Machine.execCalendarMsTick cycle s
  | .stallFallbackEnter glove => Sys2Proof.Machine.execStallFallbackEnter glove s
  | .stallFallbackTick glove cycle => Sys2Proof.Machine.execStallFallbackTick glove cycle s
  | .contributionCloseDue glove vintage => Sys2Proof.Machine.execContributionCloseDue glove vintage s
  | .shareCloseDue glove vintage => Sys2Proof.Machine.execShareCloseDue glove vintage s
  | .checkpointDue glove vintage => Sys2Proof.Machine.execCheckpointDue glove vintage s
  | .keyRotationDue glove => Sys2Proof.Machine.execKeyRotationDue glove s
  | .checkpointCut glove cask => Sys2Proof.Machine.execCheckpointCut glove cask s
  | .checkpointCopyDone glove cask errors => Sys2Proof.Machine.execCheckpointCopyDone glove cask errors s
  | .checkpointVerifyDone glove cask => Sys2Proof.Machine.execCheckpointVerifyDone glove cask s
  | .rollbackRestoreDone glove cask => Sys2Proof.Machine.execRollbackRestoreDone glove cask s
  | .vintageReady glove vintage => Sys2Proof.Machine.execVintageReady glove vintage s
  | .releaseCommit glove vintage => Sys2Proof.Machine.execReleaseCommit glove vintage s
  | .releaseComplete glove vintage => Sys2Proof.Machine.execReleaseComplete glove vintage s
  | .liveWaitTimeout wait => Sys2Proof.Machine.execLiveWaitTimeout wait s
  | .accumulate w => Sys2Proof.Machine.execAccumulate w s
  | .write w => Sys2Proof.Machine.execWrite w s
  | .readReq w => Sys2Proof.Machine.execReadReq w s
  | .readResp w => Sys2Proof.Machine.execReadResp w s
  | .atomic w => Sys2Proof.Machine.execAtomic w s
  | .atomicResp w => Sys2Proof.Machine.execAtomicResp w s
  | .send w => Sys2Proof.Machine.execSend w s
  | .ack w => Sys2Proof.Machine.execAck w s
  | .status w => Sys2Proof.Machine.execStatus w s
  | .connect w => Sys2Proof.Machine.execConnect w s
  | .connectAck w => Sys2Proof.Machine.execConnectAck w s
  | .close w => Sys2Proof.Machine.execClose w s
  | .partialPkt w => Sys2Proof.Machine.execPartialPkt w s
  | .heartbeat w => Sys2Proof.Machine.execHeartbeat w s
  | .shard w => Sys2Proof.Machine.execShard w s
  | .packetPlaced conn space psn => Sys2Proof.Machine.execPacketPlaced conn space psn s
  | .counterWaitRelease queue => Sys2Proof.Machine.execCounterWaitRelease queue s
  | .workRequestExecute queue => Sys2Proof.Machine.execWorkRequestExecute queue s
  | .ackGapTimer conn space => Sys2Proof.Machine.execAckGapTimer conn space s
  | .ackIdleTimer conn space => Sys2Proof.Machine.execAckIdleTimer conn space s
  | .retransmitTimeout conn space psn => Sys2Proof.Machine.execRetransmitTimeout conn space psn s
  | .attemptLimit conn => Sys2Proof.Machine.execAttemptLimit conn s
  | .pathHoldExpire conn path => Sys2Proof.Machine.execPathHoldExpire conn path s
  | .rateIncreaseTick conn => Sys2Proof.Machine.execRateIncreaseTick conn s
  | .sealCounterExhausted conn => Sys2Proof.Machine.execSealCounterExhausted conn s
  | .contextFetchDone conn => Sys2Proof.Machine.execContextFetchDone conn s
  | .connRemove conn => Sys2Proof.Machine.execConnRemove conn s
  | .heartbeatOriginate => Sys2Proof.Machine.execHeartbeatOriginate s
  | .memberTimeout member => Sys2Proof.Machine.execMemberTimeout member s
  | .dispatchTurn ctx => Sys2Proof.Machine.execDispatchTurn ctx s
  | .msixMessage fn vector => Sys2Proof.Machine.execMsixMessage fn vector s
  | .msixUnmask fn vector => Sys2Proof.Machine.execMsixUnmask fn vector s
  | .gloveResetReplies glove => Sys2Proof.Machine.execGloveResetReplies glove s
  | .gloveResetEnd glove durationUs readBackZero => Sys2Proof.Machine.execGloveResetEnd glove durationUs readBackZero s
  | .quiescenceTimeout glove durationUs => Sys2Proof.Machine.execQuiescenceTimeout glove durationUs s
  | .flrVf fn cycle => Sys2Proof.Machine.execFlrVf fn cycle s
  | .flrComplete fn => Sys2Proof.Machine.execFlrComplete fn s
  | .flrPf cycle => Sys2Proof.Machine.execFlrPf cycle s
  | .vfEnableClear cycle => Sys2Proof.Machine.execVfEnableClear cycle s
  | .conventionalReset kind => Sys2Proof.Machine.execConventionalReset kind s
  | .perstDeassert => Sys2Proof.Machine.execPerstDeassert s
  | .fullResetReady => Sys2Proof.Machine.execFullResetReady s
  | .dmaReadFail target cause => Sys2Proof.Machine.execDmaReadFail target cause s
  | .entropyBlockRelease reserve => Sys2Proof.Machine.execEntropyBlockRelease reserve s
  | .healthTestFail test source other window spareWindow => Sys2Proof.Machine.execHealthTestFail test source other window spareWindow s
  | .entropyStartupDone passed => Sys2Proof.Machine.execEntropyStartupDone passed s
  | .keyRemask late => Sys2Proof.Machine.execKeyRemask late s
  | .tasteArbitration work primary runs => Sys2Proof.Machine.execTasteArbitration work primary runs s
  | .chaseEnd glove vat cls => Sys2Proof.Machine.execChaseEnd glove vat cls s
  | .vatLeaveService vat => Sys2Proof.Machine.execVatLeaveService vat s
  | .scanDone vat pass misr => Sys2Proof.Machine.execScanDone vat pass misr s
  | .probationComplete vat => Sys2Proof.Machine.execProbationComplete vat s
  | .throttleRaise cond => Sys2Proof.Machine.execThrottleRaise cond s
  | .calendarSecond readings => Sys2Proof.Machine.execCalendarSecond readings s
  | .trip cause => Sys2Proof.Machine.execTrip cause s
  | .tripRecover => Sys2Proof.Machine.execTripRecover s
  | .tamperTrip source => Sys2Proof.Machine.execTamperTrip source s
  | .vbatLoss => Sys2Proof.Machine.execVbatLoss s
  | .pwrEnRise => Sys2Proof.Machine.execPwrEnRise s
  | .pwrGood => Sys2Proof.Machine.execPwrGood s
  | .pwrEnFall => Sys2Proof.Machine.execPwrEnFall s
  | .inputPowerLoss => Sys2Proof.Machine.execInputPowerLoss s
  | .inputPowerRise => Sys2Proof.Machine.execInputPowerRise s
  | .auxRise => Sys2Proof.Machine.execAuxRise s
  | .auxLoss => Sys2Proof.Machine.execAuxLoss s
  | .arpRequest port address sender => Sys2Proof.Machine.execArpRequest port address sender s
  | .neighbourSolicitation port address sender => Sys2Proof.Machine.execNeighbourSolicitation port address sender s
  | .echoRequest port v6 address sender payload => Sys2Proof.Machine.execEchoRequest port v6 address sender payload s
  | .linkTrained port => Sys2Proof.Machine.execLinkTrained port s
  | .linkLost port => Sys2Proof.Machine.execLinkLost port s
  | .vfEnableSet numVfs => Sys2Proof.Machine.execVfEnableSet numVfs s
  | .cmEccCorrected => Sys2Proof.Machine.execCmEccCorrected s
  | .restripeDone glove => Sys2Proof.Machine.execRestripeDone glove s
  | .carryVerifyDone glove cask copy => Sys2Proof.Machine.execCarryVerifyDone glove cask copy s
  | .configurationSeal => Sys2Proof.Machine.execConfigurationSeal s
  | .dynamicAddressAssignment address setdasa => Sys2Proof.Machine.execDynamicAddressAssignment address setdasa s

end Sys2Proof.Machine
end

