-- ==== Sys2Proof/Machine/Registers.lean ====
section
/-! DEFINITION. What a read of a register gives (R11): the register blocks of the PF (R52, R69, R325, R356, R396, R422,
R443, R470, R499, R500 and the port tables), the map of a VF's BAR0 (R356) and the doorbell pages (R355, R358). A read
changes nothing, but for the registers that latch or clear, which have rows of their own. -/

set_option autoImplicit false

namespace Sys2Proof.Machine

/-- A field of a register: value, lowest bit, width; bits outside the fields are reserved and read as zero (R10). -/
abbrev RegField := Nat × Nat × Nat

def regWord (fields : List RegField) : Nat := sumOf (fun f => f.1 % 2 ^ f.2.2 * 2 ^ f.2.1) fields

/-! ### The PF's blocks -/

/-- Identity and version (R443): GBL_ORDER carries the ordering code (R3). -/
def readIdentity (s : State) (offset : Nat) : Nat :=
  match offset with
  | 0x00 => regWord [(Config.vendorId, 0, 16), (0x0960, 16, 16)]
  | 0x04 => regWord [(s.fw.ordering, 0, 1)]
  | 0x08 => regWord [(Config.serialNumber, 0, 32)]
  | 0x0C => regWord [(Config.serialNumber / 2 ^ 32, 0, 32)]
  | 0x10 => regWord [(s.fw.epoch, 0, 32)]
  | 0x14 => regWord [(regLc s.fw, 0, 4)]
  | 0x18 => regWord [(regFw s.fw, 0, 16)]
  | 0x1C => regWord [(runningVersion s.fw, 0, 32)]
  | 0x20 => regWord [(Config.romVersion, 0, 32)]
  | _ => 0

/-- Global control (R499, R52): GBL_CTRL is write-only, and a write-only field reads as zero. -/
def readControl (s : State) (offset : Nat) : Nat :=
  match offset with
  | 0x04 => regWord [(regPwr s.pwr, 0, 12)]
  | 0x08 => regWord [(b2n s.pwr.ready, 0, 1)]
  | 0x20 => regWord [(regCmStatus s.cm, 0, 28)]
  | _ => 0

/-- The registers of a Glove (R325): offset in its 256 bytes. -/
def readGlove (s : State) (g offset : Nat) : Nat :=
  let x := gloveOf s g
  let c := x.cfg
  match offset with
  | 0x00 => regWord [(regGlvState x, 0, 32)]
  | 0x04 => regWord [(regGlvCfg x, 0, 12)]
  | 0x08 => regWord [(regGlvSlots x, 0, 25)]
  | 0x0C => regWord [(c.cellar, 0, 18)]
  | 0x10 => regWord [(c.cellarBase, 0, 18)]
  | 0x14 => regWord [(c.channels, 0, 32)]
  | 0x18 => regWord [(c.channels / 2 ^ 32, 0, 32)]
  | 0x1C => regWord [(c.channels / 2 ^ 64, 0, 32)]
  | 0x20 => regWord [(c.queueFirst, 0, 10), (c.queueBlocks, 10, 11)]
  | 0x24 => regWord [(c.winFirst, 0, 8), (c.winBlocks, 8, 9)]
  | 0x28 => regWord [(c.connFirst, 0, 9), (c.connBlocks, 9, 10)]
  | 0x2C => regWord [(c.keyFirst, 0, 6), (c.keyBlocks, 6, 7)]
  | 0x30 => regWord [(c.casks, 0, 15), (c.primes, 16, 9), (c.luts, 25, 6)]
  | 0x34 => regWord [(c.resident, 0, 15), (c.pinned, 16, 14)]
  | 0x38 => regWord [(regGlvShares x, 0, 25)]
  | 0x3C => regWord [(c.ports, 0, 8)]
  | o =>
    if 0x40 ≤ o ∧ o < 0x60 ∧ o % 4 = 0 then
      let p := c.shares.getD ((o - 0x40) / 4) {}
      regWord [(p.rate, 0, 10), (p.weight, 10, 8), (p.ingress, 18, 8)]
    else 0

/-- Owner of a slot as GLV_SLOTMAP_n shows it: 0x1F for idle. -/
def slotOwnerCode (s : State) (slot : Nat) : Nat :=
  ((List.range 16).find? (fun g => (gloveOf s g).cfg.slots.testBit slot)).getD 0x1F

/-- GLV_SLOTMAP_n: byte j is slot 4n + j. -/
def readSlotMap (s : State) (n : Nat) : Nat :=
  regWord ((List.range 4).map (fun j => (slotOwnerCode s (4 * n + j), 8 * j, 5)))

/-- The Entropy Unit (R396). -/
def readEntropy (s : State) (offset : Nat) : Nat :=
  let e := s.ent
  match offset with
  | 0x00 => regWord [(regEntStatus e, 0, 13)]
  | 0x30 => regWord [(e.beatMin.1, 0, 16), (e.beatMin.2.1, 16, 4), (e.beatMin.2.2, 20, 4)]
  | 0x34 => regWord [(e.blocks, 0, 32)]
  | 0x38 => regWord [(e.hiLatch, 0, 32)]
  | 0x3C => regWord [(e.discard, 0, 32)]
  | 0x40 => regWord [(e.unused, 0, 32)]
  | o =>
    if 0x10 ≤ o ∧ o < 0x28 ∧ o % 4 = 0 then
      let x := sourceOf e ((o - 0x10) / 4)
      regWord [(srcRoleCode x.role, 0, 3), (x.lastFail, 3, 4), (b2n x.startup, 7, 1), (min 255 x.fails, 8, 8), (x.freq, 16, 16)]
    else 0

/-- Slots of the key store in a state. -/
def slotsIn (s : State) (st : SlotState) : Nat := (s.keys.slots.filter (fun k => k.state == st)).length

/-- The key store front (R422). The sources wired follow the ordering code (R1, R399). -/
def readKeys (s : State) (offset : Nat) : Nat :=
  let k := s.keys
  match offset with
  | 0x00 => regWord [(lifeCode s.fw.lc, 0, 2), (b2n k.tenantRoot.isSome, 2, 1), (b2n (!productionRoot s), 3, 1), (b2n k.zeroized, 4, 1)]
  | 0x04 => regWord [(k.tamper.toNat, 0, 6)]
  | 0x08 => if s.fw.ordering = 1 then 0x1F else 0x1C
  | 0x0C => regWord [(slotsIn s .loaded + slotsIn s .draining, 0, 11), (slotsIn s .draining, 11, 11)]
  | 0x10 => regWord [(k.remask, 0, 32)]
  | 0x14 => regWord [(k.remaskLate, 0, 32)]
  | 0x18 => regWord [(k.spent.length, 0, 13)]
  | _ => 0

/-- The integrity block (R470). -/
def readIntegrity (s : State) (offset : Nat) : Nat :=
  let i := s.int
  let count (f : Vat → Bool) : Nat := ((List.range 8).filter (fun v => f (vatOf s v))).length
  match offset with
  | 0x00 => regWord [(count (fun v => v.state == .active), 0, 4), (b2n i.carrying.isSome, 4, 1), (i.carrying.getD 0, 5, 3),
      (count (fun v => v.state == .suspect && !v.out), 8, 4), (b2n i.storeOk, 12, 1)]
  | 0x30 => regWord [(i.tasted, 0, 32)]
  | 0x34 => regWord [(i.hiLatch, 0, 32)]
  | 0x38 => regWord [(min 65535 i.arbitrated, 0, 16), (min 65535 i.unresolved, 16, 16)]
  | 0x3C => regWord [(newestSeq s, 0, 32)]
  | o => if 0x10 ≤ o ∧ o < 0x30 ∧ o % 4 = 0 then regWord [(regIntVat s ((o - 0x10) / 4), 0, 32)] else 0

/-- The eight registers of a Glove's phase sequencer; `hi` is the latch of the function that reads (R69). -/
def readPhase (s : State) (g hi offset : Nat) : Nat :=
  let p := (gloveOf s g).phase
  let next := (nextDue s g).getD (2 ^ 48 - 1)
  match offset with
  | 0x00 => regWord [(p.word.count, 0, 32)]
  | 0x04 => regWord [(hi, 0, 32)]
  | 0x08 => regWord [(sourceTypeCode p.type, 0, 2), (b2n p.fallback, 2, 1), (p.queue, 16, 16)]
  | 0x0C => regWord [(p.limit, 0, 32)]
  | 0x10 => regWord [(next, 0, 32)]
  | 0x14 => regWord [(bitsAt next 32 16, 0, 16)]
  | 0x18 => regWord [(p.ticks, 0, 32)]
  | 0x1C => regWord [(p.refused, 0, 32)]
  | _ => 0

/-- The calendar (R67, R69). -/
def readCalendar (s : State) (offset : Nat) : Nat :=
  let c := s.cal
  match offset with
  | 0x00 => regWord [(c.ms, 0, 32)]
  | 0x04 => regWord [(c.hiLatch, 0, 16)]
  | 0x08 => regWord [(b2n c.valid, 0, 1), (b2n c.lost, 1, 1), (b2n c.vbatLow, 2, 1), (b2n c.tamperSeen, 3, 1)]
  | 0x0C => regWord [(c.trim.toNat, 0, 11)]
  | _ => 0

/-- The registers of one port (R111). -/
def readPort (s : State) (p offset : Nat) : Nat :=
  let r := portOf s p
  match offset with
  | 0x00 => regWord [(b2n r.enable, 0, 1), (b2n r.ipv4, 1, 1), (b2n r.ipv6, 2, 1)]
  | 0x04 => regWord [(b2n r.linkUp, 0, 1), (b2n r.fecLock, 1, 1)]
  | 0x08 => regWord [(r.markKib, 0, 16)]
  | 0x0C => regWord [(min 65535 r.dropIntegrity, 0, 16), (min 65535 r.dropCredit, 16, 16)]
  | 0x10 => regWord [(r.naks, 0, 32)]
  | _ => 0

/-- The registers common to the ports: destination port, miss buffer, contexts, and Trellis membership (R155). -/
def readNet (s : State) (offset : Nat) : Nat :=
  let t := s.net.trellis
  let resident := (s.conns.filter (fun c => c.resident)).length
  match offset with
  | 0x00 => regWord [(s.net.udp, 0, 16)]
  | 0x04 => regWord [(sumOf (missUsed s) (List.range 16) * Config.missUnit, 0, 23)]
  | 0x08 => regWord [(s.net.missDrop, 0, 32)]
  | 0x0C => regWord [(resident, 0, 16), (s.conns.length - resident, 16, 16)]
  | 0x10 => regWord [(t.member, 0, 16), (t.bypass, 16, 2), (t.members.length, 18, 7)]
  | 0x14 => regWord [(t.ringEpoch, 0, 32)]
  | _ => 0

/-- Fault injection of one port (R150). -/
def readInject (s : State) (p offset : Nat) : Nat :=
  let i := (portOf s p).inject
  match offset with
  | 0x00 => regWord [(i.dir, 0, 2)]
  | 0x04 => regWord [(i.drop, 0, 16)]
  | 0x08 => regWord [(i.corrupt, 0, 16)]
  | 0x0C => regWord [(i.reorder, 0, 16), (i.depth, 16, 8)]
  | 0x10 => regWord [(i.seed, 0, 32)]
  | 0x14 => regWord [(i.count, 0, 32)]
  | _ => 0

/-- Telemetry (R500). -/
def readTelemetry (s : State) (offset : Nat) : Nat :=
  let p := s.pwr
  match offset with
  | 0x00 => regWord [(p.vin, 0, 16)]
  | 0x04 => regWord [(p.iin, 0, 16)]
  | 0x08 => regWord [(p.pinMs, 0, 12), (p.pinSec, 16, 12)]
  | 0x0C => regWord [(p.pinPeak, 0, 12)]
  | 0x10 => regWord [(regTemp p, 0, 32)]
  | 0x14 => regWord [(p.flow, 0, 16)]
  | 0x18 => regWord [(regThrottle p, 0, 9)]
  | 0x1C => regWord [(p.thrCount, 0, 32)]
  | 0x20 => regWord [(p.cap, 0, 12)]
  | 0x24 => regWord [(p.auxMv, 0, 16), (p.vbatMv, 16, 16)]
  | _ => 0

/-! ### Doorbell pages (R355, R356, R358) -/

/-- One register of the page of a queue that the function reaches: an absent queue has state 3. -/
def readDoorbell (q : Option Queue) (offset : Nat) : Nat :=
  match offset, q with
  | 0x08, some x => regWord [(queueStateCode x.state, 0, 2), (b2n x.badIndex, 2, 1)]
  | 0x08, none => 3
  | 0x0C, some x => regWord [(if hostFilled x.kind then x.cons else x.prod, 0, 32)]
  | _, _ => 0

/-- The queue of a context behind a doorbell page. -/
def pageQueue (s : State) (ctx q : Nat) : Option Queue := (queueOf s q).filter (fun x => x.owner == ctx)

/-! ### The two maps (R354, R356) -/

/-- A read of the PF's BAR0. -/
def readPf (s : State) (a : Nat) : Nat :=
  if a < 0x10000 then readIdentity s a
  else if a < 0x20000 then readControl s (a - 0x10000)
  else if a < 0x21000 then readGlove s ((a - 0x20000) / 0x100) (a % 0x100)
  else if a < 0x21100 then if a % 4 = 0 then readSlotMap s ((a - 0x21000) / 4) else 0
  else if a < 0x30000 then 0
  else if a < 0x40000 then readEntropy s (a - 0x30000)
  else if a < 0x50000 then readKeys s (a - 0x40000)
  else if a < 0x60000 then readIntegrity s (a - 0x50000)
  else if a < 0x60200 then
    let g := (a - 0x60000) / 0x20
    readPhase s g (gloveOf s g).phase.hiLatch (a % 0x20)
  else if a < 0x61000 then 0
  else if a < 0x70000 then readCalendar s (a - 0x61000)
  else if a < 0x70A00 then readPort s ((a - 0x70000) / 0x100) (a % 0x100)
  else if a < 0x71000 then 0
  else if a < 0x80000 then readNet s (a - 0x71000)
  else if a < 0x90000 then readTelemetry s (a - 0x80000)
  else if a < 0x90280 then readInject s ((a - 0x90000) / 0x40) (a % 0x40)
  else if a < 0x1000000 then 0
  else
    let q := (a - 0x1000000) / 0x100
    if q < 256 then readDoorbell (pageQueue s vintner q) (a % 0x100) else 0

/-- A read of the BAR0 of Glove g's VF. -/
def readVf (s : State) (g a : Nat) : Nat :=
  let x := gloveOf s g
  if a = 0x00 then g
  else if a = 0x04 then readIdentity s 0x10
  else if a = 0x10 then readGlove s g 0x00
  else if a = 0x14 then readGlove s g 0x04
  else if a = 0x18 then readGlove s g 0x08
  else if 0x20 ≤ a ∧ a < 0x40 ∧ a % 4 = 0 then regWord [(x.cfg.slots / 2 ^ (8 * (a - 0x20)), 0, 32)]
  else if 0x100 ≤ a ∧ a < 0x120 then readPhase s g x.phase.hiLatchVf (a - 0x100)
  else if a = 0x200 then regWord [(s.pwr.pinSec / 50, 0, 6)]
  else if a = 0x204 then b2n s.pwr.reported
  else if a = 0x300 then regWord [(regGlvSession x, 0, 32)]
  else if 0x10000 ≤ a ∧ a < 0x100000 then
    readDoorbell (pageQueue s g (64 * x.cfg.queueFirst + (a - 0x10000) / 0x100)) (a % 0x100)
  else 0

/-- A read of BAR0 through a function: the PF, or the VF of a Glove while it exists; WEDGED Gloves answer too (R376). In
RECOVERY the PF answers the identity block alone (R440). -/
def readRegister (s : State) (fn a : Nat) : Option Nat :=
  if recoveryAnswers s then (if fn = 0 then some (if a < 0x10000 then readIdentity s a else 0) else none)
  else if ¬ regsReady s then none
  else if fn = 0 then some (readPf s a)
  else if vfExists s fn then some (readVf s (fn - 1) a)
  else none

end Sys2Proof.Machine
end

