-- ==== Sys2Proof/WellFormed.lean ====
section
/-! DEFINITION. What a command's operands must be for it to be one the hardware can be given: the row's own
opcode in a Chiwin packet, fields within the sizes of R8, R20 and R116, and ports, Gloves and units that
exist. The step does not ask for it: a Chiwin field out of its opcode's range is refused by the command itself. -/

set_option autoImplicit false

namespace Sys2Proof

/-- A phase word of R8: 16-bit source, 48-bit count. -/
def PhaseWord.wf (w : PhaseWord) : Bool := w.src < 65536 && w.count < 2 ^ 48

/-- A packet of R20 with the opcode of its row: field sizes, and at most 4,032 parameter bytes. -/
def Packet.wf (p : Packet) (opcode : Nat) : Bool :=
  p.opcode == opcode && p.queue < 65536 && p.ctx < 256 && p.vintage < 2 ^ 32 && p.tag < 2 ^ 32 && p.priority < 8 &&
  p.params.length ≤ 4032 && p.stamp.wf

/-- A Trellis header of R153. -/
def TrellisHeader.wf (h : TrellisHeader) : Bool := h.dest < 65536 && h.source < 65536 && h.origin < 65536 && h.hops < 128

/-- IP and UDP fields: sizes (R112, R114). -/
def IpInfo.wf (i : IpInfo) : Bool :=
  i.protocol < 256 && i.source < 2 ^ 128 && i.dest < 2 ^ 128 && i.srcPort < 65536 && i.dstPort < 65536 &&
  ((i.vlan.map (fun v => decide (v < 4096))).getD true)

/-- An arriving WRA packet (R116, R118): a port of the module, field sizes, at most 4,096 payload bytes. -/
def WraPacket.wf (w : WraPacket) : Bool :=
  w.port < 10 && w.version < 16 && w.path < 256 && w.conn < 32768 && w.incarnation < 65536 && w.psn < 2 ^ 32 &&
  w.msg < 2 ^ 32 && w.key < 2 ^ 32 && w.trigTag < 2 ^ 32 && w.offset < 2 ^ 64 && w.ext.length ≤ 72 &&
  w.payload.length ≤ 4096 && w.ip.wf && (!w.sealedP || w.tag.length == 16) && w.counter < 2 ^ 64 && (w.trellis.map TrellisHeader.wf).getD true

/-- A write of a function of the host to an I/O virtual address. -/
def HostWrite.wf (w : HostWrite) : Bool := w.fn ≤ 16 && w.addr + w.bytes.length ≤ 2 ^ 64

def DmaTarget.wf : DmaTarget → Bool
  | .commandRing queue => queue < 65536
  | .sendRing queue => queue < 65536
  | .window conn psn => conn < 32768 && psn < 2 ^ 32
  | .context conn => conn < 32768

/-- The operands are ones the hardware can be given. -/
def Instr.wf : Instr → Bool
  | .nop p => p.wf 0x0000
  | .queueCreate p => p.wf 0x0001
  | .queueDestroy p => p.wf 0x0002
  | .queueFlush p => p.wf 0x0003
  | .queueQuery p => p.wf 0x0004
  | .sessionKeygen p => p.wf 0x0010
  | .sessionOpen p => p.wf 0x0011
  | .sessionClose p => p.wf 0x0012
  | .sessionQuery p => p.wf 0x0013
  | .vintageCreate p => p.wf 0x0101
  | .caskAlloc p => p.wf 0x0102
  | .caskFree p => p.wf 0x0103
  | .vintageOpen p => p.wf 0x0104
  | .vintageSeal p => p.wf 0x0105
  | .vintageClose p => p.wf 0x0106
  | .vintageAbort p => p.wf 0x0107
  | .vintageQuery p => p.wf 0x0108
  | .caskQuery p => p.wf 0x0109
  | .leesRack p => p.wf 0x0120
  | .leesRetract p => p.wf 0x0121
  | .caskAdjust p => p.wf 0x0122
  | .maskSetup p => p.wf 0x0201
  | .graphLoad p => p.wf 0x0202
  | .pubkeyLoad p => p.wf 0x0203
  | .shareSubmit p => p.wf 0x0210
  | .ledgerQuery p => p.wf 0x0211
  | .maskKeygen p => p.wf 0x0220
  | .maskApply p => p.wf 0x0221
  | .shareSplit p => p.wf 0x0222
  | .latParamLoad p => p.wf 0x0301
  | .latUnload p => p.wf 0x0302
  | .latKeysetCreate p => p.wf 0x0303
  | .latEvkLoad p => p.wf 0x0304
  | .latBind p => p.wf 0x0305
  | .latImport p => p.wf 0x0306
  | .latHdrRead p => p.wf 0x0307
  | .latAdd p => p.wf 0x0310
  | .latSub p => p.wf 0x0311
  | .latMulConst p => p.wf 0x0312
  | .latMulPlain p => p.wf 0x0313
  | .latMul p => p.wf 0x0314
  | .latRotate p => p.wf 0x0315
  | .latRescale p => p.wf 0x0316
  | .latLevelDrop p => p.wf 0x0317
  | .latForm p => p.wf 0x0318
  | .latEncryptPk p => p.wf 0x0319
  | .refreshSetup p => p.wf 0x0401
  | .lutLoad p => p.wf 0x0402
  | .lutFree p => p.wf 0x0403
  | .refreshPacked p => p.wf 0x0410
  | .refreshLwe p => p.wf 0x0411
  | .schemeSwitch p => p.wf 0x0412
  | .thrShareLoad p => p.wf 0x0420
  | .thrPartial p => p.wf 0x0421
  | .vintageRelease p => p.wf 0x0501
  | .recipeLoad p => p.wf 0x0502
  | .recipeFree p => p.wf 0x0503
  | .windowCreate p => p.wf 0x0601
  | .windowRevoke p => p.wf 0x0602
  | .windowQuery p => p.wf 0x0603
  | .connCreate p => p.wf 0x0604
  | .connDestroy p => p.wf 0x0605
  | .connQuery p => p.wf 0x0606
  | .triggerCancel p => p.wf 0x0607
  | .faultInject p => p.wf 0x0608
  | .trellisJoin p => p.wf 0x0609
  | .trellisLeave p => p.wf 0x060A
  | .trellisStatus p => p.wf 0x060B
  | .gloveAssign p => p.wf 0x0702
  | .gloveReset p => p.wf 0x0701
  | .gloveRelease p => p.wf 0x0703
  | .gloveModeSet p => p.wf 0x0704
  | .gloveQuery p => p.wf 0x0705
  | .keyOwnerSet p => p.wf 0x0801
  | .keyLoad p => p.wf 0x0802
  | .keyInvalidate p => p.wf 0x0803
  | .keyCreate p => p.wf 0x0804
  | .keyEvict p => p.wf 0x0805
  | .keyQuery p => p.wf 0x0806
  | .keyRotateSet p => p.wf 0x0807
  | .attestReport p => p.wf 0x0901
  | .certRead p => p.wf 0x0902
  | .endorseLoad p => p.wf 0x0903
  | .fwStage p => p.wf 0x0910
  | .fwSelect p => p.wf 0x0911
  | .fwQuery p => p.wf 0x0912
  | .lcTransition p => p.wf 0x0920
  | .debugSet p => p.wf 0x0921
  | .entRead p => p.wf 0x0A01
  | .entStatus p => p.wf 0x0A02
  | .entSourceCtrl p => p.wf 0x0A03
  | .entRawRead p => p.wf 0x0A04
  | .intVatCtrl p => p.wf 0x0B01
  | .intBist p => p.wf 0x0B02
  | .intHistoryRead p => p.wf 0x0B03
  | .intQuery p => p.wf 0x0B04
  | .phaseTick p => p.wf 0x0C01
  | .phaseSourceSet p => p.wf 0x0C02
  | .calSet p => p.wf 0x0C03
  | .phaseQuery p => p.wf 0x0C04
  | .moduleReset p => p.wf 0x0D01
  | .moduleStatus p => p.wf 0x0D02
  | .powerCapSet p => p.wf 0x0D03
  | .gblCtrlReset _ => true
  | .gblDbProd fn queue _ slots visible => fn ≤ 16 && queue < 65536 && slots.all (fun b => b.length == 64) && visible.all HostWrite.wf
  | .gblDbCons fn queue _ => fn ≤ 16 && queue < 65536
  | .phsCountLoRead fn glove => fn ≤ 16 && glove < 16
  | .calMsLoRead => true
  | .entBlocksLoRead => true
  | .intTastedLoRead => true
  | .gblCmStatusRead => true
  | .phsRefusedRead fn glove => fn ≤ 16 && glove < 16
  | .prtRxDropRead port => port < 10
  | .prtNaksRead port => port < 10
  | .prtMissDropRead => true
  | .fijCountRead port => port < 10
  | .entDiscardRead => true
  | .entUnusedRead => true
  | .keyRemaskLateRead => true
  | .intMismatchRead => true
  | .telPinPeakRead => true
  | .telThrCountRead => true
  | .calStatusWrite _ => true
  | .keyTamperWrite _ => true
  | .calTrimWrite _ => true
  | .prtCtrlWrite port _ => port < 10
  | .fijCtrlWrite port _ => port < 10
  | .registerWrite offset _ => offset < 2 ^ 24 && offset % 4 == 0
  | .commandFetch queue _ => queue < 65536
  | .stagedPromotion _ => true
  | .sidebandPacket bytes _ => bytes.length ≤ 4096
  | .mctpResetMessage serial => serial < 2 ^ 64
  | .cmFault _ => true
  | .watchdogExpire => true
  | .cmRestartDone durationUs => durationUs < 2 ^ 32
  | .calendarMsTick _ => true
  | .stallFallbackEnter glove => glove < 16
  | .stallFallbackTick glove _ => glove < 16
  | .contributionCloseDue glove vintage => glove < 16 && vintage < 2 ^ 32
  | .shareCloseDue glove vintage => glove < 16 && vintage < 2 ^ 32
  | .checkpointDue glove vintage => glove < 16 && vintage < 2 ^ 32
  | .keyRotationDue glove => glove < 16
  | .checkpointCut glove cask => glove < 16 && cask < 65536
  | .checkpointCopyDone glove cask _ => glove < 16 && cask < 65536
  | .checkpointVerifyDone glove cask => glove < 16 && cask < 65536
  | .rollbackRestoreDone glove cask => glove < 16 && cask < 65536
  | .vintageReady glove vintage => glove < 16 && vintage < 2 ^ 32
  | .releaseCommit glove vintage => glove < 16 && vintage < 2 ^ 32
  | .releaseComplete glove vintage => glove < 16 && vintage < 2 ^ 32
  | .liveWaitTimeout _ => true
  | .accumulate w => w.wf
  | .write w => w.wf
  | .readReq w => w.wf
  | .readResp w => w.wf
  | .atomic w => w.wf
  | .atomicResp w => w.wf
  | .send w => w.wf
  | .ack w => w.wf
  | .status w => w.wf
  | .connect w => w.wf
  | .connectAck w => w.wf
  | .close w => w.wf
  | .partialPkt w => w.wf
  | .heartbeat w => w.wf
  | .shard w => w.wf
  | .packetPlaced conn space psn => conn < 32768 && space < 2 && psn < 2 ^ 32
  | .counterWaitRelease queue => queue < 65536
  | .workRequestExecute queue => queue < 65536
  | .ackGapTimer conn space => conn < 32768 && space < 2
  | .ackIdleTimer conn space => conn < 32768 && space < 2
  | .retransmitTimeout conn space psn => conn < 32768 && space < 2 && psn < 2 ^ 32
  | .attemptLimit conn => conn < 32768
  | .pathHoldExpire conn path => conn < 32768 && path < 256
  | .rateIncreaseTick conn => conn < 32768
  | .sealCounterExhausted conn => conn < 32768
  | .contextFetchDone conn => conn < 32768
  | .connRemove conn => conn < 32768
  | .heartbeatOriginate => true
  | .memberTimeout member => member < 65536
  | .dispatchTurn ctx => ctx ≤ 16
  | .msixMessage fn vector => fn ≤ 16 && vector < 256
  | .msixUnmask fn vector => fn ≤ 16 && vector < 256
  | .gloveResetReplies glove => glove < 16
  | .gloveResetEnd glove durationUs _ => glove < 16 && durationUs < 2 ^ 32
  | .quiescenceTimeout glove durationUs => glove < 16 && durationUs < 2 ^ 32
  | .flrVf fn _ => fn ≤ 16
  | .flrComplete fn => fn ≤ 16
  | .flrPf _ => true
  | .vfEnableClear _ => true
  | .conventionalReset _ => true
  | .perstDeassert => true
  | .fullResetReady => true
  | .dmaReadFail target _ => target.wf
  | .entropyBlockRelease _ => true
  | .healthTestFail _ source other _ _ => source < 6 && other < 6
  | .entropyStartupDone passed => passed.length == 6
  | .keyRemask _ => true
  | .tasteArbitration _ primary runs => primary < 8 && runs.results.length ≤ 13
  | .chaseEnd glove vat cls => glove < 16 && vat < 8 && cls < 256
  | .vatLeaveService vat => vat < 8
  | .scanDone vat _ misr => vat < 8 && misr < 2 ^ 64
  | .probationComplete vat => vat < 8
  | .throttleRaise _ => true
  | .calendarSecond readings => readings.watts < 2 ^ 12 && readings.vbatMv < 2 ^ 16
  | .trip _ => true
  | .tripRecover => true
  | .tamperTrip _ => true
  | .vbatLoss => true
  | .pwrEnRise => true
  | .pwrGood => true
  | .pwrEnFall => true
  | .inputPowerLoss => true
  | .inputPowerRise => true
  | .auxRise => true
  | .auxLoss => true
  | .arpRequest port address _ => port < 10 && address < 2 ^ 32
  | .neighbourSolicitation port address _ => port < 10 && address < 2 ^ 128
  | .echoRequest port v6 address _ _ => port < 10 && address < (if v6 then 2 ^ 128 else 2 ^ 32)
  | .linkTrained port => port < 10
  | .linkLost port => port < 10
  | .vfEnableSet numVfs => numVfs < 65536
  | .cmEccCorrected => true
  | .restripeDone glove => glove < 16
  | .carryVerifyDone glove cask _ => glove < 16 && cask < 65536
  | .configurationSeal => true
  | .dynamicAddressAssignment address setdasa => address < 128 && setdasa.getD 0 < 128

/-- A well-formed command. -/
abbrev WellFormed (i : Instr) : Prop := i.wf = true

end Sys2Proof
end

