-- ==== Sys2Proof/Safety.lean ====
section
/-! DEFINITION. The vocabulary of the claims: when the module serves commands, when a command passes its
checks and has its entropy, when a packet on the wire is accepted, the rank of a life-cycle state, and the shape
that every state of the module has. -/

set_option autoImplicit false

namespace Sys2Proof.Machine

/-- The packet is performed at dispatch: the module is ON (R493), not in RECOVERY (R440), and the Cellarmaster
is RUNNING (R48, R50); or it comes by the sideband while the module is not ON and its opcode is one that the
auxiliary domain answers (R492), or by the sideband in RECOVERY with an opcode that the ROM serves (R440). -/
def served (c : Cmd) (p : Packet) (s : State) : Bool :=
  if s.pwr.state ≠ .on then p.route == .sideband && s.pwr.state != .off && c.aux
  else if s.fw.recovery then p.route == .sideband && recoveryOpcodes.contains c.op
  else s.cm.state == .running

/-- Steps 2 to 5 of R32 find nothing wrong. -/
def passes (c : Cmd) (p : Packet) (s : State) : Bool :=
  match checks c p s with
  | .ok _ => true
  | .error _ => false

/-- A command that the module serves and that passes its checks. -/
abbrev Admitted (c : Cmd) (p : Packet) (s : State) : Prop := served c p s = true ∧ passes c p s = true

/-- The checks that a command makes before it draws find nothing wrong (R270). -/
def readyToDraw (c : Cmd) (p : Packet) (s : State) : Bool :=
  match c.ready p s with
  | .ok _ => true
  | .error _ => false

/-- A command that may draw now: its checks before the draw pass, and the blocks it draws have been released and queued
for its context (R388, R389). -/
abbrev DrawReady (c : Cmd) (p : Packet) (s : State) (blocks : Nat) : Prop :=
  p.drawn = false ∧ readyToDraw c p s = true ∧ s.ent.state ≠ .failed ∧ blocks ≤ queuedBlocks s p.ctx

/-- The packet of a command whose entropy has been drawn. -/
def drawnOf (p : Packet) : Packet := { p with drawn := true }

/-- The host has read a value from a register. -/
def afterRead (value : Nat) (s : State) : State :=
  { s with host := { s.host with lastRead := BitVec.ofNat 32 value } }

/-! ### Packets on the wire -/

/-- What receive-side injection of the connection and the port lets through for a packet that arrives, and the state it
leaves; the present cycle is the packet's (R150). -/
def injected (op : Nat) (w : WraPacket) (s : State) : List Framed × State :=
  injectAll { s with clock := { s.clock with cycle := w.cycle } } true w.conn w.port { op := op, pkt := w }

/-- The connection a packet reaches and the packet as it opens there: its port is open and takes the datagram as WRA,
injection passes it on alone, it is not for another member of the Trellis, and steps 1 and 2 of R131 find its check value
and its version right. -/
def arrives (op : Nat) (w : WraPacket) (s : State) : Option (Conn × WraPacket) :=
  let s1 := (injected op w s).2
  if portOpen s w.port && isWra s w && (injected op w s).1 == [{ op := op, pkt := w }] &&
      w.trellis.all (fun t => t.dest == s1.net.trellis.member) then
    (connOf s1 w.conn).bind (fun c => ((openArrival s1 c op w).filter (fun x => x.version % 16 == 1)).map (fun x => (c, x)))
  else none

/-- The state once a packet has reached its connection: the highest seal counter seen is kept, a congestion mark is
noted, and the context is used now (R130, R145, R148). -/
def reached (op : Nat) (w : WraPacket) (s : State) (c : Conn) (w1 : WraPacket) : State :=
  touchConn (noteCe (setConn (injected op w s).2 c.id (fun x =>
    { x with sealRx := if x.sealedC then max x.sealRx w1.counter else x.sealRx })) c op w1) c.id

/-- The connection as the operation's own handling reads it. -/
def reachedConn (op : Nat) (w : WraPacket) (s : State) (c : Conn) (w1 : WraPacket) : Option Conn :=
  connOf (noteCe (setConn (injected op w s).2 c.id (fun x =>
    { x with sealRx := if x.sealedC then max x.sealRx w1.counter else x.sealRx })) c op w1) c.id

/-- A packet `w` reaches its connection and opens as `w1`; `c1` is the connection as its handling reads it,
with its context resident. -/
structure Delivered (op : Nat) (w : WraPacket) (s : State) (c c1 : Conn) (w1 : WraPacket) : Prop where
  arrives : arrives op w s = some (c, w1)
  incarnation : w1.incarnation = c.incarnation
  conn : reachedConn op w s c w1 = some c1
  resident : c1.resident = true

/-- A request or response with data is accepted by an ESTABLISHED connection through the window `win`; the connection is
`k` once its context has been used: the Glove's share of the ingress buffer has room, the PSN is fresh, a response answers
a request of the engine, and the checks of R131 and R165 find nothing wrong. -/
structure Accepted (op : Nat) (w : WraPacket) (s : State) (c c1 k : Conn) (w1 : WraPacket) (win : Option Window) :
    Prop where
  delivered : Delivered op w s c c1 w1
  established : c.state = .established
  trellis : trellisOnly op = true → c.trellis = true
  window : (if hasWindow op w1 then (windowFor (reached op w s c w1) c1 op w1).map some else .ok none) = .ok win
  context : connOf (touchConn (reached op w s c w1) c.id) c.id = some k
  room : ingressFull (injected op w s).2 c.owner op w1 = false
  psn : freshPsn (connRx k (isResponse op)) w1.psn = true
  answers : isResponse op = true → matchesIssued k op w1 = true
  judged : judge (touchConn (reached op w s c w1) c.id) k op w1 (stampAt (reached op w s c w1) c.owner w1.cycle) win =
    .place

/-! ### Life cycle and shape -/

/-- Order of the life-cycle states (R423). -/
def lifeRank : LifeCycle → Nat
  | .mfg => 0
  | .prov => 1
  | .deployed => 2
  | .rma => 3

/-- Every memory of a Cask is in canonical form: its coordinates and the images of its checkpoints. -/
def caskWf (c : Cask) : Bool :=
  Memory.wf c.data && (c.verified.map (fun x => Memory.wf x.image)).getD true &&
    (c.inProgress.map (fun x => Memory.wf x.image)).getD true

/-- The image of each firmware slot is in canonical form. -/
def fwWf (f : Firmware) : Bool := Memory.wf f.slotA.image && Memory.wf f.slotB.image

/-- The shape of the module: 16 Gloves, 8 Vats with a stripe cache each, 10 ports and 6 noise sources, and every memory, the ring bytes and
the stores of generations and incarnations in canonical form. -/
structure ShapeOk (s : State) : Prop where
  gloves : s.gloves.length = 16
  vats : s.int.vats.length = 8
  ports : s.net.ports.length = 10
  sources : s.ent.sources.length = 6
  host : Memory.wf s.host.mem = true
  rings : Sparse.wf s.host.rings = true
  gens : Sparse.wf s.gens = true
  incs : Sparse.wf s.incs = true
  casks : s.casks.all caskWf = true
  spill : s.spill.length = 8
  images : fwWf s.fw = true

/-! ### Frames -/

/-- The parts of the state that a frame speaks of: those of the module that the manual describes as one unit. -/
inductive Part where
  | clock | cm | cal | pwr | hostMem | hostPort | vectors | side | ports | inject | trellis | wire | ent | rootStore
  | keySlots | fw | int | gloves | sessions | queues | staged | outstanding | windows | conns | casks | vintages | free
deriving DecidableEq, Repr

/-- A part is the same in two states. `hostPort` is SR-IOV, the FLRs and the seal of the configuration with the
last value read; `vectors` the interrupt vectors and the entries posted to the rings in host memory, `hostMem` the rest
of it; `windows` the windows, those revoked and the generations; `casks` the Casks and the stripe caches of their spill;
`ports` the ports but for `inject`, their fault injection; `wire` what has left the ports, the UDP
port and the miss drops; `rootStore` the roots and KEY_TAMPER; `keySlots` everything else of the key store;
`gloves` the Gloves but for `sessions`, their Cuff sessions. -/
def Part.same (s t : State) : Part → Prop
  | .clock => t.clock = s.clock
  | .cm => t.cm = s.cm
  | .cal => t.cal = s.cal
  | .pwr => t.pwr = s.pwr
  | .hostMem => t.host.mem = s.host.mem
  | .hostPort => { t.host with mem := [], vectors := [], rings := [] } = { s.host with mem := [], vectors := [], rings := [] }
  | .vectors => t.host.vectors = s.host.vectors ∧ t.host.rings = s.host.rings
  | .side => t.side = s.side
  | .ports => t.net.ports.map (fun r => { r with inject := {} }) = s.net.ports.map (fun r => { r with inject := {} })
  | .inject => t.net.ports.map (fun r => r.inject) = s.net.ports.map (fun r => r.inject)
  | .trellis => t.net.trellis = s.net.trellis
  | .wire => { t.net with ports := [], trellis := {} } = { s.net with ports := [], trellis := {} }
  | .ent => t.ent = s.ent
  | .rootStore => t.keys.roots = s.keys.roots ∧ t.keys.tenantRoot = s.keys.tenantRoot ∧
      t.keys.zeroized = s.keys.zeroized ∧ t.keys.tamper = s.keys.tamper
  | .keySlots => { t.keys with roots := [], tenantRoot := none, zeroized := false, tamper := 0 } =
      { s.keys with roots := [], tenantRoot := none, zeroized := false, tamper := 0 }
  | .fw => t.fw = s.fw
  | .int => t.int = s.int
  | .gloves => t.gloves.map (fun x => { x with session := {} }) = s.gloves.map (fun x => { x with session := {} })
  | .sessions => t.gloves.map (fun x => x.session) = s.gloves.map (fun x => x.session)
  | .queues => t.queues = s.queues
  | .staged => t.staged = s.staged
  | .outstanding => t.outstanding = s.outstanding
  | .windows => t.windows = s.windows ∧ t.revokedWins = s.revokedWins ∧ t.gens = s.gens
  | .conns => t.conns = s.conns ∧ t.incs = s.incs
  | .casks => t.casks = s.casks ∧ t.spill = s.spill
  | .vintages => t.vintages = s.vintages
  | .free => t.free = s.free

/-- What the reply to a command may change: the reply or event in its queue and its interrupt, the connection that
carries it, and the record of the command (R32 to R35). -/
def answering : List Part := [.vectors, .side, .inject, .wire, .sessions, .queues, .staged, .outstanding, .conns]

/-- What a full reset may change: everything but host memory and the free values (R496). -/
def booting : List Part :=
  [.clock, .cm, .cal, .pwr, .hostPort, .vectors, .side, .ports, .inject, .trellis, .wire, .ent, .rootStore, .keySlots, .fw,
   .int, .gloves, .sessions, .queues, .staged, .outstanding, .windows, .conns, .casks, .vintages]

/-- Every part but the ones listed is the same in two states. -/
def Unchanged (but : List Part) (s t : State) : Prop := ∀ k : Part, k ∉ but → Part.same s t k

/-! ### Commands by row -/

/-- The Chiwin command of a row and the packet it carries; none for the rows that are not Chiwin commands. -/
def commandOf : Instr → Option (Cmd × Packet)
  | .nop p => some (cmdNop, p)
  | .queueCreate p => some (cmdQueueCreate, p)
  | .queueDestroy p => some (cmdQueueDestroy, p)
  | .queueFlush p => some (cmdQueueFlush, p)
  | .queueQuery p => some (cmdQueueQuery, p)
  | .sessionKeygen p => some (cmdSessionKeygen, p)
  | .sessionOpen p => some (cmdSessionOpen, p)
  | .sessionClose p => some (cmdSessionClose, p)
  | .sessionQuery p => some (cmdSessionQuery, p)
  | .vintageCreate p => some (cmdVintageCreate, p)
  | .caskAlloc p => some (cmdCaskAlloc, p)
  | .caskFree p => some (cmdCaskFree, p)
  | .vintageOpen p => some (cmdVintageOpen, p)
  | .vintageSeal p => some (cmdVintageSeal, p)
  | .vintageClose p => some (cmdVintageClose, p)
  | .vintageAbort p => some (cmdVintageAbort, p)
  | .vintageQuery p => some (cmdVintageQuery, p)
  | .caskQuery p => some (cmdCaskQuery, p)
  | .leesRack p => some (cmdLeesRack, p)
  | .leesRetract p => some (cmdLeesRetract, p)
  | .caskAdjust p => some (cmdCaskAdjust, p)
  | .maskSetup p => some (cmdMaskSetup, p)
  | .graphLoad p => some (cmdGraphLoad, p)
  | .pubkeyLoad p => some (cmdPubkeyLoad, p)
  | .shareSubmit p => some (cmdShareSubmit, p)
  | .ledgerQuery p => some (cmdLedgerQuery, p)
  | .maskKeygen p => some (cmdMaskKeygen, p)
  | .maskApply p => some (cmdMaskApply, p)
  | .shareSplit p => some (cmdShareSplit, p)
  | .latParamLoad p => some (cmdLatParamLoad, p)
  | .latUnload p => some (cmdLatUnload, p)
  | .latKeysetCreate p => some (cmdLatKeysetCreate, p)
  | .latEvkLoad p => some (cmdLatEvkLoad, p)
  | .latBind p => some (cmdLatBind, p)
  | .latImport p => some (cmdLatImport, p)
  | .latHdrRead p => some (cmdLatHdrRead, p)
  | .latAdd p => some (latCmd latAdd, p)
  | .latSub p => some (latCmd latSub, p)
  | .latMulConst p => some (latCmd latMulConst, p)
  | .latMulPlain p => some (latCmd latMulPlain, p)
  | .latMul p => some (latCmd latMul, p)
  | .latRotate p => some (latCmd latRotate, p)
  | .latRescale p => some (latCmd latRescale, p)
  | .latLevelDrop p => some (latCmd latLevelDrop, p)
  | .latForm p => some (latCmd latForm_, p)
  | .latEncryptPk p => some (latCmd latEncryptPk encryptDraw, p)
  | .refreshSetup p => some (cmdRefreshSetup, p)
  | .lutLoad p => some (cmdLutLoad, p)
  | .lutFree p => some (cmdLutFree, p)
  | .refreshPacked p => some (latCmd refreshPackedOp, p)
  | .refreshLwe p => some (latCmd refreshLweOp, p)
  | .schemeSwitch p => some (latCmd schemeSwitchOp, p)
  | .thrShareLoad p => some (cmdThrShareLoad, p)
  | .thrPartial p => some (cmdThrPartial, p)
  | .vintageRelease p => some (cmdVintageRelease, p)
  | .recipeLoad p => some (cmdRecipeLoad, p)
  | .recipeFree p => some (cmdRecipeFree, p)
  | .windowCreate p => some (cmdWindowCreate, p)
  | .windowRevoke p => some (cmdWindowRevoke, p)
  | .windowQuery p => some (cmdWindowQuery, p)
  | .connCreate p => some (cmdConnCreate, p)
  | .connDestroy p => some (cmdConnDestroy, p)
  | .connQuery p => some (cmdConnQuery, p)
  | .triggerCancel p => some (cmdTriggerCancel, p)
  | .faultInject p => some (cmdFaultInject, p)
  | .trellisJoin p => some (cmdTrellisJoin, p)
  | .trellisLeave p => some (cmdTrellisLeave, p)
  | .trellisStatus p => some (cmdTrellisStatus, p)
  | .gloveAssign p => some (cmdGloveAssign, p)
  | .gloveReset p => some (cmdGloveReset, p)
  | .gloveRelease p => some (cmdGloveRelease, p)
  | .gloveModeSet p => some (cmdGloveModeSet, p)
  | .gloveQuery p => some (cmdGloveQuery, p)
  | .keyOwnerSet p => some (cmdKeyOwnerSet, p)
  | .keyLoad p => some (cmdKeyLoad, p)
  | .keyInvalidate p => some (cmdKeyInvalidate, p)
  | .keyCreate p => some (cmdKeyCreate, p)
  | .keyEvict p => some (cmdKeyEvict, p)
  | .keyQuery p => some (cmdKeyQuery, p)
  | .keyRotateSet p => some (cmdKeyRotateSet, p)
  | .attestReport p => some (cmdAttestReport, p)
  | .certRead p => some (cmdCertRead, p)
  | .endorseLoad p => some (cmdEndorseLoad, p)
  | .fwStage p => some (cmdFwStage, p)
  | .fwSelect p => some (cmdFwSelect, p)
  | .fwQuery p => some (cmdFwQuery, p)
  | .lcTransition p => some (cmdLcTransition, p)
  | .debugSet p => some (cmdDebugSet, p)
  | .entRead p => some (cmdEntRead, p)
  | .entStatus p => some (cmdEntStatus, p)
  | .entSourceCtrl p => some (cmdEntSourceCtrl, p)
  | .entRawRead p => some (cmdEntRawRead, p)
  | .intVatCtrl p => some (cmdIntVatCtrl, p)
  | .intBist p => some (cmdIntBist, p)
  | .intHistoryRead p => some (cmdIntHistoryRead, p)
  | .intQuery p => some (cmdIntQuery, p)
  | .phaseTick p => some (cmdPhaseTick, p)
  | .phaseSourceSet p => some (cmdPhaseSourceSet, p)
  | .calSet p => some (cmdCalSet, p)
  | .phaseQuery p => some (cmdPhaseQuery, p)
  | .moduleReset p => some (cmdModuleReset, p)
  | .moduleStatus p => some (cmdModuleStatus, p)
  | .powerCapSet p => some (cmdPowerCapSet, p)
  | _ => none

/-- What each command may change; every other part stays as it was. -/
def mayChange : Instr → List Part
  | .nop .. | .queueCreate .. | .queueDestroy .. | .queueFlush .. | .queueQuery .. | .sessionOpen ..
  | .sessionClose .. | .sessionQuery .. | .vintageQuery .. | .caskQuery .. | .ledgerQuery .. | .windowQuery ..
  | .faultInject .. | .trellisStatus .. | .keyQuery .. | .fwQuery .. | .entStatus .. | .phaseQuery ..
  | .moduleStatus .. => answering
  | .sessionKeygen .. | .entRead .. => .hostMem :: .ent :: .gloves :: .casks :: .free :: answering
  | .vintageCreate .. | .leesRetract .. | .graphLoad .. | .pubkeyLoad .. => .vintages :: answering
  | .caskAlloc .. | .caskFree .. | .connDestroy .. => .casks :: answering
  | .vintageOpen .. => .ent :: .keySlots :: .gloves :: .vintages :: .free :: answering
  | .vintageSeal .. | .vintageClose .. | .vintageAbort .. =>
      .keySlots :: .gloves :: .windows :: .casks :: .vintages :: answering
  | .leesRack .. => .gloves :: .windows :: .vintages :: answering
  | .caskAdjust .. | .shareSubmit .. => .casks :: .vintages :: answering
  | .maskSetup .. => .hostMem :: .ent :: .gloves :: .casks :: .vintages :: .free :: answering
  | .maskKeygen .. | .shareSplit .. | .keyCreate .. =>
      .hostMem :: .ent :: .keySlots :: .gloves :: .casks :: .free :: answering
  | .maskApply .. => .keySlots :: .casks :: answering
  | .latParamLoad .. | .latUnload .. | .latKeysetCreate .. | .latEvkLoad .. | .refreshSetup .. | .lutLoad ..
  | .lutFree .. | .recipeLoad .. | .recipeFree .. | .triggerCancel .. | .gloveModeSet .. | .keyOwnerSet ..
  | .keyRotateSet .. => .gloves :: answering
  | .latBind .. | .latImport .. => .gloves :: .casks :: answering
  | .latHdrRead .. | .gloveQuery .. | .attestReport .. | .certRead .. | .intHistoryRead .. =>
      .hostMem :: .casks :: answering
  | .latAdd .. | .latSub .. | .latMulConst .. | .latMulPlain .. | .latMul .. | .latRotate .. | .latRescale ..
  | .latLevelDrop .. | .latForm .. | .latEncryptPk .. | .refreshPacked .. | .refreshLwe .. | .schemeSwitch .. =>
      .ent :: .int :: .gloves :: .casks :: .free :: answering
  | .thrShareLoad .. => .ent :: .keySlots :: .gloves :: .free :: answering
  | .thrPartial .. => .hostMem :: .ent :: .int :: .gloves :: .casks :: .vintages :: .free :: answering
  | .vintageRelease .. => .ent :: .gloves :: .vintages :: .free :: answering
  | .windowCreate .. => .windows :: .casks :: answering
  | .windowRevoke .. => .windows :: answering
  | .connCreate .. | .keyEvict .. => .keySlots :: answering
  | .connQuery .. => .free :: answering
  | .trellisJoin .. => .trellis :: answering
  | .trellisLeave .. => .ports :: .trellis :: answering
  | .gloveAssign .. => .ent :: .gloves :: .free :: answering
  | .gloveReset .. | .gloveRelease .. | .gloveResetReplies .. => .gloves :: .casks :: .vintages :: answering
  | .keyLoad .. => .ent :: .keySlots :: .gloves :: .free :: answering
  | .keyInvalidate .. => .keySlots :: .gloves :: answering
  | .endorseLoad .. | .fwStage .. | .fwSelect .. | .debugSet .. => .fw :: .free :: answering
  | .lcTransition .. => .free :: booting
  | .entSourceCtrl .. => .ent :: .int :: .free :: answering
  | .entRawRead .. => .hostMem :: .ent :: .int :: .casks :: .free :: answering
  | .intVatCtrl .. => .int :: .casks :: .free :: answering
  | .intBist .. => .int :: .free :: answering
  | .intQuery .. => .gloves :: .free :: answering
  | .phaseTick .. | .phaseSourceSet .. => .gloves :: .vintages :: answering
  | .calSet .. => .cal :: .gloves :: .vintages :: answering
  | .moduleReset .. | .gblCtrlReset .. | .mctpResetMessage .. | .conventionalReset .. | .trip .. | .tamperTrip ..
  | .pwrEnRise | .pwrEnFall | .inputPowerLoss | .auxLoss => booting
  | .powerCapSet .. => .pwr :: answering
  | .gblDbProd .. => [.hostMem, .vectors, .sessions, .queues, .free]
  | .gblDbCons .. | .packetPlaced .. =>
      [.hostMem, .vectors, .side, .ports, .inject, .wire, .gloves, .sessions, .queues, .outstanding, .windows,
       .conns, .casks, .vintages]
  | .phsCountLoRead .. | .phsRefusedRead .. => [.hostPort, .gloves]
  | .calMsLoRead => [.cal, .hostPort]
  | .entBlocksLoRead | .entDiscardRead | .entUnusedRead => [.hostPort, .ent]
  | .intTastedLoRead | .intMismatchRead => [.hostPort, .int]
  | .gblCmStatusRead => [.cm, .hostPort]
  | .prtRxDropRead .. | .prtNaksRead .. => [.hostPort, .ports]
  | .prtMissDropRead => [.hostPort, .wire]
  | .fijCountRead .. => [.hostPort, .inject]
  | .keyRemaskLateRead => [.hostPort, .keySlots]
  | .telPinPeakRead | .telThrCountRead => [.pwr, .hostPort]
  | .calStatusWrite .. | .calTrimWrite .. => [.cal]
  | .keyTamperWrite .. => [.rootStore]
  | .prtCtrlWrite .. | .linkTrained .. => [.ports]
  | .fijCtrlWrite .. => [.inject]
  | .registerWrite .. => [.ports, .inject, .wire]
  | .commandFetch .. => .clock :: .gloves :: .casks :: .vintages :: answering
  | .stagedPromotion .. => [.staged]
  | .sidebandPacket .. | .cmRestartDone .. | .dispatchTurn .. => .hostMem :: .free :: booting
  | .cmFault .. | .watchdogExpire => .cm :: .int :: answering
  | .calendarMsTick .. => [.clock, .cal, .gloves, .vintages]
  | .stallFallbackEnter .. => [.vectors, .gloves, .sessions, .queues]
  | .stallFallbackTick .. => [.clock, .gloves, .vintages]
  | .contributionCloseDue .. => .clock :: .keySlots :: .gloves :: .windows :: .casks :: .vintages :: answering
  | .shareCloseDue .. | .vintageReady .. => [.vectors, .gloves, .sessions, .queues, .casks, .vintages]
  | .checkpointDue .. => [.gloves, .casks]
  | .keyRotationDue .. => [.gloves]
  | .checkpointCut .. | .checkpointCopyDone .. => [.casks]
  | .checkpointVerifyDone .. => [.vectors, .inject, .wire, .int, .sessions, .queues, .conns, .casks, .vintages]
  | .rollbackRestoreDone .. => [.vectors, .inject, .wire, .sessions, .queues, .conns, .casks, .vintages]
  | .releaseCommit .. => [.outstanding, .vintages]
  | .releaseComplete .. =>
      [.vectors, .side, .inject, .wire, .gloves, .sessions, .queues, .outstanding, .windows, .conns, .casks,
       .vintages]
  | .liveWaitTimeout .. =>
      [.vectors, .side, .inject, .wire, .gloves, .sessions, .queues, .outstanding, .conns, .casks, .vintages]
  | .accumulate .. | .write .. | .readReq .. | .readResp .. | .atomic .. | .atomicResp .. | .send .. | .ack ..
  | .status .. | .connect .. | .connectAck .. | .close .. | .partialPkt .. | .heartbeat .. | .shard .. =>
      [.clock, .vectors, .side, .ports, .inject, .trellis, .wire, .sessions, .queues, .outstanding, .windows,
       .conns, .vintages]
  | .counterWaitRelease .. | .workRequestExecute .. => [.vectors, .inject, .wire, .gloves, .sessions, .queues, .conns]
  | .ackGapTimer .. | .ackIdleTimer .. | .retransmitTimeout .. => [.inject, .wire, .conns]
  | .pathHoldExpire .. => [.vectors, .inject, .wire, .sessions, .conns]
  | .attemptLimit .. | .sealCounterExhausted .. => [.vectors, .inject, .wire, .sessions, .queues, .conns, .vintages]
  | .rateIncreaseTick .. => [.conns]
  | .contextFetchDone .. =>
      [.vectors, .side, .ports, .inject, .wire, .gloves, .sessions, .queues, .outstanding, .windows, .conns, .casks,
       .vintages]
  | .connRemove .. => [.vectors, .side, .inject, .wire, .sessions, .queues, .outstanding, .conns, .casks]
  | .heartbeatOriginate => [.inject, .wire]
  | .memberTimeout .. =>
      [.vectors, .side, .ports, .inject, .trellis, .wire, .sessions, .queues, .outstanding, .conns, .vintages]
  | .msixMessage .. | .msixUnmask .. => [.vectors]
  | .gloveResetEnd .. =>
      [.hostPort, .vectors, .side, .inject, .wire, .ent, .keySlots, .int, .gloves, .sessions, .queues, .outstanding,
       .windows, .conns, .casks, .vintages, .free]
  | .quiescenceTimeout .. => [.vectors, .side, .inject, .wire, .int, .gloves, .sessions, .queues, .outstanding, .conns]
  | .flrVf .. | .vfEnableClear .. =>
      [.clock, .hostPort, .vectors, .side, .inject, .wire, .gloves, .sessions, .queues, .outstanding, .conns,
       .casks, .vintages]
  | .flrComplete .. => [.hostPort, .vectors, .gloves]
  | .flrPf .. => .clock :: .hostPort :: .keySlots :: .gloves :: .windows :: .casks :: .vintages :: answering
  | .perstDeassert | .pwrGood => [.cal, .pwr, .rootStore, .fw]
  | .fullResetReady =>
      .clock :: .cm :: .pwr :: .hostPort :: .int :: .gloves :: .casks :: .vintages :: .free :: answering
  | .dmaReadFail .. => [.vectors, .side, .ports, .inject, .wire, .sessions, .queues, .outstanding, .conns]
  | .entropyBlockRelease .. =>
      [.vectors, .side, .inject, .wire, .ent, .keySlots, .gloves, .sessions, .queues, .outstanding, .conns, .casks,
       .vintages, .free]
  | .healthTestFail .. =>
      [.vectors, .side, .inject, .wire, .ent, .int, .gloves, .sessions, .queues, .outstanding, .conns, .casks,
       .vintages]
  | .entropyStartupDone .. =>
      [.vectors, .side, .inject, .wire, .ent, .int, .gloves, .sessions, .queues, .outstanding, .conns, .casks,
       .vintages, .free]
  | .keyRemask .. => [.ent, .keySlots, .free]
  | .tasteArbitration .. =>
      [.vectors, .side, .inject, .wire, .int, .gloves, .sessions, .queues, .outstanding, .conns, .casks, .vintages,
       .free]
  | .chaseEnd .. => [.int]
  | .vatLeaveService .. => [.vectors, .int, .gloves, .sessions, .queues, .casks, .free]
  | .scanDone .. => [.vectors, .int, .sessions, .queues, .casks, .free]
  | .probationComplete .. => [.vectors, .int, .gloves, .sessions, .queues]
  | .throttleRaise .. | .tripRecover | .inputPowerRise => [.pwr]
  | .calendarSecond .. => [.cal, .pwr, .int, .free]
  | .vbatLoss => [.cal, .rootStore]
  | .auxRise => [.cal, .pwr]
  | .arpRequest .. | .neighbourSolicitation .. | .echoRequest .. => [.wire]
  | .linkLost .. => [.vectors, .side, .ports, .inject, .trellis, .wire, .sessions, .queues, .outstanding, .conns]
  | .vfEnableSet .. | .configurationSeal => [.hostPort]
  | .cmEccCorrected => [.cm]
  | .restripeDone .. => [.vectors, .int, .gloves, .sessions, .queues, .conns, .casks]
  | .carryVerifyDone .. => [.vectors, .int, .sessions, .queues, .conns, .casks]
  | .dynamicAddressAssignment .. => [.side]

end Sys2Proof.Machine
end

