-- ==== Sys2Proof/Certificates/Slice0/Obligations.lean ====
section
/-! DEFINITION. The statements for the provers, one `def Obligations.<Name> : Prop` each; OBLIGATIONS.json
lists them. A completion statement says which state a command answers where its checks pass, in terms of the
operations its meaning is written with; `reply` and `finish` are the last step of every Chiwin command (R24). -/

set_option autoImplicit false

open Sys2Proof Sys2Proof.Machine

/-! ### The queue of commands -/

/-- A step takes the command at the front of the queue and runs it on the state with the rest of the queue; with
nothing waiting the block idles (the model's choice, notes/assumptions/2.md). -/
def Obligations.StepTakesFrontCommand : Prop :=
  (∀ (c : Instr) (rest : List Instr) (s : State), s.pending = c :: rest →
    step s = exec c { s with pending := rest }) ∧
  (∀ s : State, s.pending = [] → step s = .next s)

/-! ### Queue, session and Vintage commands -/

/-- NOP, QUEUE_CREATE, QUEUE_DESTROY, QUEUE_FLUSH and QUEUE_QUERY complete (R24, R35 to R38, R359): NOP echoes,
a new queue joins the pool, a queue without packets in flight leaves it, a flush moves a HALTED queue back to
ACTIVE, and the query reports the indices. -/
def Obligations.QueueCommandsComplete : Prop :=
  (∀ (p : Packet) (s : State), Admitted cmdNop p s →
    exec (.nop p) s = .next (reply s p (bytesAnswer (padTo 16 p.params)))) ∧
  (∀ (p : Packet) (s : State), Admitted cmdQueueCreate p s →
    (p.u8 2 ≠ 0 ∨ (s.queues.filter (fun q => q.kind == .command && q.bound == p.u16 4)).length < 64) →
    exec (.queueCreate p) s = .next (reply { s with queues := s.queues ++ [{
      id := p.u16 0, owner := p.ctx, kind := queueKind (p.u8 2), log2Depth := p.u8 3, bound := p.u16 4
      conn := if p.u16 6 < 2 ^ 15 then none else some (p.u16 6 % 2 ^ 15)
      base := p.u64 8, cuff := p.u8 16 == 1, vector := p.u8 17 }] } p okAnswer)) ∧
  (∀ (p : Packet) (s : State) (q : Queue), Admitted cmdQueueDestroy p s → queueOf s (p.u16 0) = some q →
    q.kind ≠ .command → exec (.queueDestroy p) s = .next (reply (removeQueue s (p.u16 0)) p okAnswer)) ∧
  (∀ (p : Packet) (s s1 s2 : State) (q : Queue) (a b n : Nat), Admitted cmdQueueDestroy p s →
    queueOf s (p.u16 0) = some q → q.kind = .command →
    flushStaged s (p.u16 0) q.prod = (s1, a) → discardUnfetched s1 q q.prod = (s2, b, n) →
    exec (.queueDestroy p) s =
      let s3 := setQueue s2 (p.u16 0) (fun q => { q with state := .destroying })
      .next (if destroyReady s3 (p.u16 0) then reply (removeQueue s3 (p.u16 0)) p (okAnswer (a + b))
        else finish cmdQueueDestroy s3 p (.waits (.destroy (p.u16 0) (a + b))))) ∧
  (∀ (p : Packet) (s s1 : State) (q : Queue) (a : Nat), Admitted cmdQueueFlush p s → queueOf s (p.u16 0) = some q →
    flushStaged s q.id (p.mark.getD q.prod) = (s1, a) → q.state = .halted →
    exec (.queueFlush p) s = .next (reply
      (setQueue (consumeSlots s1 q.id (haltedSlots q (p.mark.getD q.prod))) q.id
        (fun x => { x with state := .active, failSlot := none, badIndex := false }))
      p (okAnswer (haltedSlots q (p.mark.getD q.prod)) (p.mark.getD q.prod) a))) ∧
  (∀ (p : Packet) (s s1 s2 : State) (q : Queue) (a b : Nat), Admitted cmdQueueFlush p s →
    queueOf s (p.u16 0) = some q → flushStaged s q.id (p.mark.getD q.prod) = (s1, a) → q.state ≠ .halted →
    flushRing q.slots.length s1 q.id (p.mark.getD q.prod) = (s2, b) →
    exec (.queueFlush p) s = .next (reply (setQueue s2 q.id (fun x => { x with badIndex := false })) p
      (okAnswer (a + b) (p.mark.getD q.prod) (a + b)))) ∧
  (∀ (p : Packet) (s : State) (q : Queue), Admitted cmdQueueQuery p s → queueOf s (p.u16 0) = some q →
    exec (.queueQuery p) s = .next (reply s p (okAnswer q.prod q.cons
      ((s.staged.filter (fun x => x.queue == q.id && x.route != .sideband)).length + 2 ^ 16 * queueStateCode q.state)
      (awaitingCount s p q.id))))

/-- SESSION_KEYGEN, SESSION_OPEN, SESSION_CLOSE and SESSION_QUERY complete (R370 to R373): a drawn key pair makes
the session KEYED; a right confirmation establishes it and a wrong one ends it with ST_CUFF_AUTH. -/
def Obligations.SessionCommandsComplete : Prop :=
  (∀ (p : Packet) (s s1 s2 : State) (seed : List Byte), Admitted cmdSessionKeygen p s → DrawReady cmdSessionKeygen p s 2 →
    drawBytes (takeBlocks s p.ctx 2) 64 = (seed, s1) →
    writeWindow s1 p.ctx (p.u32 0) (p.u64 8) (padTo 1568 (Config.mlkemEk seed)) = .ok s2 →
    exec (.sessionKeygen p) s = .next (reply
      (setSession s2 p.ctx (fun x => { x with state := .keyed, ek := padTo 1568 (Config.mlkemEk seed), dk := seed }))
      (drawnOf p) (bytesAnswer (Crypto.sha256 (padTo 1568 (Config.mlkemEk seed)))))) ∧
  (∀ (p : Packet) (s : State), Admitted cmdSessionOpen p s → lpddrFits s p.ctx (tableMib (p.u8 16)) = true →
    exec (.sessionOpen p) s =
      let x := (gloveOf s p.ctx).session
      let keys := sessionKeys s p.ctx p
      let h := Crypto.sha256 (x.ek ++ openCt p ++ p.bytes 0 32)
      .next (if p.bytes 1600 16 ≠ confirmation (slice keys 64 32) "HOST" h then
          reply (setSession s p.ctx zeroPair) p { status := .cuffAuth }
        else
          reply (setSession s p.ctx (fun x => {
            state := .established, confidential := p.u8 17 == 1, count := (x.count + 1) % 2 ^ 16, ek := x.ek, dk := []
            dataBase := p.u64 0, tagBase := p.u64 8, log2S := p.u8 16, ctxRecords := p.u32 20, ctxFirst := p.u32 24
            keys := keys.take 64 })) p (bytesAnswer (confirmation (slice keys 96 32) "ENGINE" h)))) ∧
  (∀ (p : Packet) (s : State), Admitted cmdSessionClose p s →
    exec (.sessionClose p) s = .next (reply (setSession s p.ctx endedSession) p okAnswer)) ∧
  (∀ (p : Packet) (s : State), Admitted cmdSessionQuery p s →
    exec (.sessionQuery p) s = .next (reply s p (okAnswer (regGlvSession (gloveOf s p.ctx))
      (gloveOf s p.ctx).session.refused (gloveOf s p.ctx).session.counter
      (if (gloveOf s p.ctx).session.state = .established then (gloveOf s p.ctx).session.log2S else 0))))

/-- VINTAGE_CREATE, VINTAGE_OPEN, VINTAGE_SEAL, VINTAGE_QUERY, VINTAGE_CLOSE and VINTAGE_ABORT complete (R17, R56, R103,
R104, R108): a new Vintage is in DRAFT, opening takes the stamp, the guarantee and the key generation, sealing fixes
the survivors unless the seal policy aborts, and a Vintage that ends enters its terminal state at once where no
placement is still to drain; otherwise the reply waits for it. -/
def Obligations.VintageCommandsComplete : Prop :=
  (∀ (p : Packet) (s : State), Admitted cmdVintageCreate p s →
    openCount s (fun v => v.glove == p.ctx) < 32 → openCount s (fun _ => true) < 128 →
    lpddrFits s p.ctx (vintageLpddr (p.u8 0 == 1) (p.u32 4) (p.u16 60)) = true →
    exec (.vintageCreate p) s = .next (reply { s with vintages := s.vintages ++ [{
      glove := p.ctx, id := p.vintage, state := .draft, encrypted := p.u8 0 == 1, sealAbort := p.u8 1 == 1
      noise := p.u8 2 == 1, clients := p.u32 4, floor := if p.u32 8 = 0 then 1000 else p.u32 8
      recipe := p.u16 12, c := p.u64 16, s := p.u64 24, e := p.u64 32, k := p.u64 40, sigma := p.u64 48
      keySet := p.u32 56, shardCount := p.u16 60, shardIndex := p.u16 62, lead := p.u16 64
      lpddr := vintageLpddr (p.u8 0 == 1) (p.u32 4) (p.u16 60) }] } p okAnswer)) ∧
  (∀ (p : Packet) (s : State) (v : Vintage), Admitted cmdVintageOpen p s → DrawReady cmdVintageOpen p s 4 →
    vintageOf (takeBlocks s p.ctx 4) p.ctx p.vintage = some v →
    exec (.vintageOpen p) s =
      let s0 := takeBlocks s p.ctx 4
      let mark := openMarkOf s0 p
      let ticks := replayTicks (asOpened v p.stamp.count) (gloveOf s0 p.ctx).phase.recent
      let s1 := setVintage { s0 with free := s0.free + 1 } p.ctx p.vintage (fun w => { asOpened w p.stamp.count with
        nextCheckpoint := ticks.1.nextCheckpoint, live := markLive mark, generation := markGeneration mark
        printDraw := entropyDraw s0, shardDigest := shardDigestOf w
        allowance := 4 * sumOf boundCiphertexts (accumulateCasks s0 p.ctx p.vintage) })
      .next (reply (boundary (addDue s1 p.ctx ticks.2) p.ctx) (drawnOf p)
        (okAnswer p.stamp.count (p.stamp.count / 2 ^ 32) (accumulateCasks s0 p.ctx v.id).length))) ∧
  (∀ (p : Packet) (s : State) (v w : Vintage), Admitted cmdVintageSeal p s → vintageOf s p.ctx p.vintage = some v →
    vintageOf (sealVintage s p.ctx p.vintage p.stamp) p.ctx p.vintage = some w →
    exec (.vintageSeal p) s =
      let s1 := sealVintage s p.ctx p.vintage p.stamp
      .next (reply s1 p (if sealAborts v then { status := .badState, detail := 2 }
        else okAnswer (survivorCount w) (v.standings.filter (fun x => x.2 == .lees)).length
          (w.clients - w.survivors.length)))) ∧
  (∀ (p : Packet) (s : State) (v : Vintage), Admitted cmdVintageQuery p s → vintageOf s p.ctx p.vintage = some v →
    ∃ a : Answer, queryWords (summaryOf s v false) = .answer a ∧ a.status = .ok ∧
      exec (.vintageQuery p) s = .next (reply s p a)) ∧
  (∀ (p : Packet) (s s1 : State) (v : Vintage) (sum : Summary), Admitted cmdVintageClose p s →
    vintageOf s p.ctx p.vintage = some v → enterEnd s v .closed false = (s1, sum) →
    exec (.vintageClose p) s =
      let keys := vintageKeys s p.ctx p.vintage
      .next (if keysBusy s1 keys then finish cmdVintageClose s1 p (.waits (.ends p.ctx p.vintage keys 0))
        else reply (freeVintage s1 p.ctx p.vintage sum) p okAnswer)) ∧
  (∀ (p : Packet) (s s1 s2 : State) (n : Nat) (v : Vintage) (sum : Summary), Admitted cmdVintageAbort p s →
    vintageOf s p.ctx p.vintage = some v →
    preempt s 4 0x0107 (fun o => o.names.any (abortScope s p.ctx p.vintage).contains) = (s1, n) →
    enterEnd s1 v .aborted false = (s2, sum) →
    exec (.vintageAbort p) s =
      let keys := vintageKeys s1 p.ctx p.vintage
      let left := vintageStateCode v.state
      .next (if keysBusy s2 keys then finish cmdVintageAbort s2 p (.waits (.ends p.ctx p.vintage keys left))
        else reply (freeVintage s2 p.ctx p.vintage sum) p (okAnswer left)))

/-- CASK_ALLOC, CASK_FREE, CASK_QUERY and CASK_ADJUST complete (R90, R91, R108, R235, R236). -/
def Obligations.CaskCommandsComplete : Prop :=
  (∀ (p : Packet) (s : State), Admitted cmdCaskAlloc p s → (p.u8 3 ≠ 0 ∨ (newCask p s).spilled = false) →
    lpddrFits s p.ctx (newCask p s).lpddr = true → s.casks.length < 16384 →
    (p.u8 2 ≠ 3 ∨ badModulus (caskModuli p) = none) →
    exec (.caskAlloc p) s = .next (reply { s with casks := s.casks ++ [newCask p s] } p
      (okAnswer (b2n (newCask p s).spilled) (newCask p s).granules (newCask p s).lpddr))) ∧
  (∀ (p : Packet) (s : State), Admitted cmdCaskFree p s →
    exec (.caskFree p) s = .next (reply (freeCask s p.ctx (p.u16 0)) p okAnswer)) ∧
  (∀ (p : Packet) (s : State) (c : Cask), Admitted cmdCaskQuery p s → caskOf s p.ctx (p.u16 0) = some c →
    exec (.caskQuery p) s = .next (reply s p
      (okAnswer (c.ring + 2 ^ 8 * b2n c.spilled + 2 ^ 9 * c.role + 2 ^ 11 * c.limbs) c.n c.vintage c.granules))) ∧
  (∀ (p : Packet) (s : State) (v : Vintage) (c st : Cask) (row : Adjustment), Admitted cmdCaskAdjust p s →
    vintageOf s p.ctx p.vintage = some v → caskOf s p.ctx (p.u16 0) = some c → caskOf s p.ctx (p.u16 2) = some st →
    adjustRow v c (p.u8 4 == 1) (p.u32 8) = some row →
    vectorDigest v.printDraw c (p.u32 8) ((List.range (caskCount st)).map (coord st)) = row.digest →
    exec (.caskAdjust p) s =
      let add := p.u8 4 == 1
      let s1 := setCask s p.ctx c.id (applyAdjust v add (p.u32 8) p.stamp.count
        ((List.range (caskCount st)).map (coord st)) row)
      let complete := if add then restoreComplete s1 p.ctx v.id (p.u32 8) else removalComplete s1 p.ctx v.id (p.u32 8)
      let s2 := if ¬ add ∧ complete ∧ standingOf v (p.u32 8) = .retracting then
          setVintage s1 p.ctx v.id (fun v => setStanding v (p.u32 8) .retracted)
        else s1
      .next (reply (rebase s2 p.ctx v.id) p (okAnswer (caskCount c) (b2n complete))))

/-- LEES_RACK and LEES_RETRACT complete (R229, R230): every client of the batch that has not yet the standing takes
it, and the reply counts the clients that moved and those that had it. -/
def Obligations.LeesCommandsComplete : Prop :=
  (∀ (p : Packet) (s : State) (v : Vintage), Admitted cmdLeesRack p s → vintageOf s p.ctx p.vintage = some v →
    batchError v retracted (batchClients p) = none →
    exec (.leesRack p) s =
      let fresh := dedup ((batchClients p).filter (fun u => standingOf v u != .racked))
      .next (reply (fresh.foldl (fun s u => rackClient s p.ctx p.vintage u) s) p
        { status := .racked, r0 := fresh.length, r1 := (batchClients p).length - fresh.length })) ∧
  (∀ (p : Packet) (s : State) (v : Vintage), Admitted cmdLeesRetract p s → vintageOf s p.ctx p.vintage = some v →
    batchError v racked (batchClients p) = none →
    exec (.leesRetract p) s =
      let fresh := dedup ((batchClients p).filter (fun u => !retracted (standingOf v u)))
      .next (reply (fresh.foldl (fun s u => retractClient s p.ctx p.vintage u) s) p
        (okAnswer fresh.length ((batchClients p).length - fresh.length))))

/-! ### Masks and shares -/

/-- MASK_SETUP, GRAPH_LOAD and PUBKEY_LOAD complete (R198, R200, R216): the masking configuration is set in a DRAFT
Vintage, and records whose bytes are right are kept. -/
def Obligations.MaskSetupCommandsComplete : Prop :=
  (∀ (p : Packet) (s : State) (v : Vintage), Admitted cmdMaskSetup p s → setupSealed p = false →
    vintageOf s p.ctx p.vintage = some v → lpddrFits s p.ctx (maskLpddr v.clients (p.u8 1) false) = true →
    exec (.maskSetup p) s =
      let mib := maskLpddr v.clients (p.u8 1) false
      .next (reply (setVintage s p.ctx p.vintage (fun v => { v with
          masking := some {
            uploaded := p.u8 0 == 1, degree := p.u8 1, threshold := p.u8 2, commit := (p.u8 3).testBit 0
            sealedShares := false, salt := p.bytes 16 32, seed := p.bytes 48 32 }
          lpddr := v.lpddr + mib })) p
        (okAnswer mib (if p.u8 0 = 0 then v.clients * p.u8 1 else 0)))) ∧
  (∀ (p : Packet) (s s1 s3 : State) (v : Vintage) (key : List Byte), Admitted cmdMaskSetup p s → setupSealed p = true →
    DrawReady cmdMaskSetup p s 1 → vintageOf (takeBlocks s p.ctx 1) p.ctx p.vintage = some v →
    lpddrFits (takeBlocks s p.ctx 1) p.ctx (maskLpddr v.clients (p.u8 1) true) = true →
    drawBytes (takeBlocks s p.ctx 1) 32 = (key, s1) →
    writeWindow (setVintage s1 p.ctx p.vintage (fun x => { x with
        masking := some {
          uploaded := p.u8 0 == 1, degree := p.u8 1, threshold := p.u8 2, commit := (p.u8 3).testBit 0
          sealedShares := true, salt := p.bytes 16 32, seed := p.bytes 48 32, engineKey := key }
        lpddr := x.lpddr + maskLpddr v.clients (p.u8 1) true })) p.ctx (p.u32 4) (p.u64 8) (Crypto.x25519Base key) = .ok s3 →
    exec (.maskSetup p) s = .next (reply s3 (drawnOf p)
      (okAnswer (maskLpddr v.clients (p.u8 1) true) (if p.u8 0 = 0 then v.clients * p.u8 1 else 0)))) ∧
  (∀ (p : Packet) (s s1 : State) (v : Vintage) (m : Masking) (bytes : List Byte), Admitted cmdGraphLoad p s →
    draftMasking s p.ctx p.vintage = .ok (v, m) →
    readWindow s p.ctx (p.u32 8) (p.u64 16) (p.u32 4 * 4 * m.degree) = .ok (bytes, s1) →
    (List.zip ((List.range (p.u32 4)).map (· + p.u32 0)) (pieces (4 * m.degree) bytes)).find?
      (fun x => badGraphRecord v m x.1 x.2) = none →
    exec (.graphLoad p) s =
      let records := List.zip ((List.range (p.u32 4)).map (· + p.u32 0)) (pieces (4 * m.degree) bytes)
      let graph := records.foldl (fun l x => insertBy Prod.fst (x.1, graphEntries x.2) (l.filter (fun y => y.1 != x.1))) m.graph
      let full := graph.length == v.clients
      let bad := if full then asymmetric graph else []
      .next (reply (setVintage s1 p.ctx p.vintage (fun v => { v with
        masking := some { m with graph := graph.filter (fun x => !bad.contains x.1), graphComplete := full && bad.isEmpty } })) p
        (okAnswer (p.u32 4) bad.length (b2n (full && bad.isEmpty))))) ∧
  (∀ (p : Packet) (s s1 : State) (v : Vintage) (m : Masking) (bytes : List Byte), Admitted cmdPubkeyLoad p s →
    draftMasking s p.ctx p.vintage = .ok (v, m) →
    readWindow s p.ctx (p.u32 8) (p.u64 16) (p.u32 4 * pubkeyEntry p) = .ok (bytes, s1) →
    exec (.pubkeyLoad p) s =
      let entries := List.zip ((List.range (p.u32 4)).map (· + p.u32 0)) (pieces (pubkeyEntry p) bytes)
      let bad := (entries.filter (fun x => badPublicKey (x.2.take 32))).map Prod.fst
      let registry := entries.foldl (fun l x =>
        if bad.contains x.1 then l.filter (fun y => y.1 != x.1)
        else insertBy Prod.fst (x.1, x.2.take 32, padTo 32 (x.2.drop 32)) (l.filter (fun y => y.1 != x.1))) m.registry
      .next (reply (setVintage s1 p.ctx p.vintage (fun v => { v with masking := some { m with registry := registry } })) p
        (okAnswer (entries.length - bad.length) bad.length (b2n (registry.length == v.clients)) (bad.headD 0xFFFFFFFF))))

/-- SHARE_SUBMIT and LEDGER_QUERY complete (R204, R205): a batch is judged as one unit and closes the ledger where it
is the last one needed; the query reports the totals of the ledger, or the standing of one client's secret. -/
def Obligations.LedgerCommandsComplete : Prop :=
  (∀ (p : Packet) (s s1 s2 : State) (v : Vintage) (m : Masking) (a : Answer) (bytes : List Byte),
    Admitted cmdShareSubmit p s → vintageOf s p.ctx p.vintage = some v → v.masking = some m →
    (p.u8 0 = 0 ∧ bytes = p.bytes 16 (64 * p.u16 2) ∧ s1 = s ∨
      p.u8 0 ≠ 0 ∧ readWindow s p.ctx (p.u32 4) (p.u64 8) (64 * p.u16 2) = .ok (bytes, s1)) →
    ¬ (1 < v.shardCount ∧ v.survivorsFixed = false ∧ v.state ≠ .draft ∧ v.state ≠ .opened ∧ v.c < p.stamp.count ∧
      p.stamp.count ≤ v.s) →
    judgeShares p s1 v m (pieces 64 bytes) = (s2, a) → a.status = .ok →
    exec (.shareSubmit p) s = .next (reply (closeLedger s2 p.ctx p.vintage p.order) p a)) ∧
  (∀ (p : Packet) (s s1 : State) (v : Vintage) (m : Masking) (bytes : List Byte),
    Admitted cmdShareSubmit p s → vintageOf s p.ctx p.vintage = some v → v.masking = some m →
    (p.u8 0 = 0 ∧ bytes = p.bytes 16 (64 * p.u16 2) ∧ s1 = s ∨
      p.u8 0 ≠ 0 ∧ readWindow s p.ctx (p.u32 4) (p.u64 8) (64 * p.u16 2) = .ok (bytes, s1)) →
    1 < v.shardCount → v.survivorsFixed = false → v.state ≠ .draft → v.state ≠ .opened → v.c < p.stamp.count →
    p.stamp.count ≤ v.s →
    exec (.shareSubmit p) s = .next (finish cmdShareSubmit s1 p (.waits (.exchange p.ctx p.vintage)))) ∧
  (∀ (p : Packet) (s : State) (v : Vintage) (m : Masking), Admitted cmdLedgerQuery p s →
    vintageOf s p.ctx p.vintage = some v → v.masking = some m → p.u32 0 = 0xFFFFFFFF →
    exec (.ledgerQuery p) s =
      let owners := if v.survivorsFixed && v.state != .draft && v.state != .opened then neededOwners v else []
      .next (reply s p (okAnswer (v.shares.filter (fun x => !x.discarded)).length (sumOf Prod.snd v.once)
        (owners.filter (fun u => ((secretOf v u (allowedKind v u)).map (fun x => x.final)).getD false)).length
        owners.length))) ∧
  (∀ (p : Packet) (s : State) (v : Vintage) (m : Masking), Admitted cmdLedgerQuery p s →
    vintageOf s p.ctx p.vintage = some v → v.masking = some m → p.u32 0 ≠ 0xFFFFFFFF →
    exec (.ledgerQuery p) s =
      let u := p.u32 0
      let sealedNow := v.survivorsFixed && v.state != .draft && v.state != .opened
      let kind := allowedKind v u
      let status := if ¬ sealedNow then 0 else kind
      let bits := match secretOf v u kind with
        | some x => 8 + 32 * b2n x.suspect + 64 * b2n x.final + 128 * b2n (appliedEverywhere s v x)
        | none => 0
      .next (reply s p (okAnswer
        (status + 4 * b2n (sealedNow && secretNeeded v u) + 16 * b2n (sealedNow && secretVerifiable m kind) + bits)
        ((v.shares.filter (fun x => x.owner == u)).filter (fun x => !x.discarded)).length
        ((v.shares.filter (fun x => x.owner == u)).filter (fun x => x.discarded)).length
        (Sparse.get v.once u))))

/-- MASK_KEYGEN, MASK_APPLY and SHARE_SPLIT complete in a MASKER Glove (R218, R219): two secrets are drawn, the self mask
and every pair mask are added, and the shares of a polynomial through the secret are sealed and written. -/
def Obligations.MaskerCommandsComplete : Prop :=
  (∀ (p : Packet) (s s5 : State), Admitted cmdMaskKeygen p s → DrawReady cmdMaskKeygen p s 4 →
    (let s0 := takeBlocks s p.ctx 4
     let seed := toLE 32 (leNat (drawBytes s0 32).1 % gfP)
     let sk := toLE 32 (leNat (drawBytes (drawBytes s0 32).2 32).1 % gfP)
     let slot (n usage kind lifetime left : Nat) : KeySlot := {
       slot := n, owner := p.ctx, state := .loaded, keyId := 0, parent := 0, usage := usage, kind := kind
       lifetime := lifetime, left := left, share0 := [], share1 := [] }
     writeWindow (loadSlot (loadSlot (drawBytes (drawBytes s0 32).2 32).2 (slot (p.u16 0) usageMaskSelf 0 1 1) seed)
       (slot (p.u16 2) usageMaskAgree 2 0 0) sk) p.ctx (p.u32 4) (p.u64 8) (Crypto.x25519Base sk) = .ok s5) →
    exec (.maskKeygen p) s = .next (reply s5 (drawnOf p) okAnswer)) ∧
  (∀ (p : Packet) (s s1 : State) (c : Cask) (self_ agree : KeySlot) (bytes : List Byte), Admitted cmdMaskApply p s →
    caskOf s p.ctx (p.u16 0) = some c → servingSlot s (p.u16 2) = .ok self_ → servingSlot s (p.u16 4) = .ok agree →
    readWindow s p.ctx (p.u32 16) (p.u64 24) (36 * p.u16 6) = .ok (bytes, s1) →
    badNeighbour (p.u32 8) (neighbourList bytes) = none →
    exec (.maskApply p) s =
      let salt := p.bytes 32 32
      let masked := (neighbourList bytes).foldl (fun c e =>
        expandInto c (e.1 < p.u32 8) salt
          (pairSeed salt (Crypto.x25519 (slotKey agree) e.2) (p.u32 8) e.1 (p.u32 12)) (p.u16 20) (p.u64 64))
        (expandInto c false salt (slotKey self_) (p.u16 20) (p.u64 64))
      .next (reply (setKeySlot (setCask s1 p.ctx c.id (fun _ => masked)) (p.u16 2) (fun k => { k with left := k.left - 1 })) p
        (okAnswer (1 + (neighbourList bytes).length)))) ∧
  (∀ (p : Packet) (s s1 s3 : State) (k agree : KeySlot) (bytes : List Byte), Admitted cmdShareSplit p s →
    DrawReady cmdShareSplit p s (p.u8 4 - 1) →
    servingSlot (takeBlocks s p.ctx (p.u8 4 - 1)) (p.u16 0) = .ok k →
    servingSlot (takeBlocks s p.ctx (p.u8 4 - 1)) (p.u16 2) = .ok agree →
    readWindow (takeBlocks s p.ctx (p.u8 4 - 1)) p.ctx (p.u32 16) (p.u64 24) (36 * p.u8 5) = .ok (bytes, s1) →
    badNeighbour (p.u32 8) (neighbourList bytes) = none →
    (let coeffs := drawBytes s1 (32 * (p.u8 4 - 1))
     let poly := leNat (slotKey k) % gfP :: (pieces 32 coeffs.1).map (fun c => leNat c % gfP)
     let kind := if k.usage &&& usageMaskSelf != 0 then 1 else 2
     writeWindow (setKeySlot coeffs.2 (p.u16 0) (fun k => { k with split := true })) p.ctx (p.u32 20) (p.u64 32)
       ((neighbourList bytes).map (fun e =>
         splitRecord (drawnOf p) (leNat (slotKey agree)) kind (gfEval poly (e.1 + 1)) e)).flatten = .ok s3) →
    exec (.shareSplit p) s = .next (reply s3 (drawnOf p) (okAnswer (neighbourList bytes).length)))

/-! ### The lattice engine -/

/-- LAT_PARAM_LOAD, LAT_UNLOAD, LAT_KEYSET_CREATE, LAT_EVK_LOAD, LAT_BIND, LAT_IMPORT and LAT_HDR_READ complete
(R245, R248, R251, R253, R261, R262). That LAT_BIND of an accumulate Cask writes headers in state 2 with the noise of a fresh
encryption is the model's choice (notes/assumptions/99.md and 95.md). -/
def Obligations.LatticeSetCommandsComplete : Prop :=
  (∀ (p : Packet) (s : State), Admitted cmdLatParamLoad p s →
    primesUsed (gloveOf s p.ctx) + (loadedSet p).limbs + (loadedSet p).special ≤ (gloveOf s p.ctx).cfg.primes →
    exec (.latParamLoad p) s = .next (reply
      (setGlove s p.ctx (fun x => { x with params := x.params ++ [loadedSet p] })) p
      (okAnswer (if (loadedSet p).construction = 2 then 0 else scratchNeed (loadedSet p) (loadedSet p).limbs)
        ((loadedSet p).limbs + (loadedSet p).special)
        (noiseField (topBudget (loadedSet p)) + 2 ^ 16 * noiseField (noiseFresh (loadedSet p)))
        (noiseSwitch (loadedSet p) (loadedSet p).limbs)))) ∧
  (∀ (p : Packet) (s : State), Admitted cmdLatUnload p s →
    exec (.latUnload p) s = .next (reply (setGlove s p.ctx (fun x =>
      if p.u8 0 = 0 then { x with params := x.params.filter (fun q => q.index != p.u32 4) }
      else { x with keySets := x.keySets.filter (fun k => k.id != p.u32 4) })) p okAnswer)) ∧
  (∀ (p : Packet) (s : State), Admitted cmdLatKeysetCreate p s → (gloveOf s p.ctx).keySets.length < 16 →
    exec (.latKeysetCreate p) s = .next (reply (setGlove s p.ctx (fun x => { x with
      keySets := x.keySets ++ [{ id := p.u32 0, set := p.u8 4 }] })) p okAnswer)) ∧
  (∀ (p : Packet) (s s1 s2 : State) (k : KeySet) (set : ParamSet) (shape : KeyShape) (head body : List Byte),
    Admitted cmdLatEvkLoad p s → keySetOf s p.ctx (p.u32 0) = some k → paramSetOf s p.ctx k.set = some set →
    readWindow s p.ctx (p.u32 4) (p.u64 8) 96 = .ok (head, s1) →
    keyShape s p.ctx k set (field head 36 1) (field head 40 4) = some shape →
    hasKey k (field head 36 1) (field head 40 4) = false → evkCount (gloveOf s p.ctx) < 4096 →
    lpddrFits s p.ctx (mib2 (8 * keyValues shape)) = true →
    allZero (slice head 37 3) = true → allZero (slice head 44 20) = true →
    readWindow s1 p.ctx (p.u32 4) (p.u64 8 + 96) (8 * keyValues shape) = .ok (body, s2) →
    (List.zip (List.range (keyValues shape)) ((pieces 8 body).map leNat)).all (fun x => x.2 < valueModulus shape x.1) = true →
    blocksFull shape (field head 36 1) (slice head 64 32) = true → slice head 0 32 = set.digest → field head 32 4 = k.id →
    exec (.latEvkLoad p) s = .next (reply (setKeySet s2 p.ctx k.id (fun k => { k with keys := k.keys ++ [{
      kind := field head 36 1, element := field head 40 4, seed := slice head 64 32, mib := mib2 (8 * keyValues shape)
      b := (List.zip (List.range (keyValues shape)) ((pieces 8 body).map leNat)).filter (fun x => x.2 != 0) }] })) p
      (okAnswer (mib2 (8 * keyValues shape))))) ∧
  (∀ (p : Packet) (s : State) (c : Cask) (set : ParamSet), Admitted cmdLatBind p s →
    caskOf s p.ctx (p.u16 0) = some c → setOfKeys s p.ctx (p.u32 4) = some set →
    lpddrFits s p.ctx (mib2 (64 * (c.n / ctSize set))) = true →
    (c.role ≠ 0 ∨ ((vintageOf s p.ctx c.vintage).map (fun v => v.keySet == p.u32 4)).getD true = true) →
    exec (.latBind p) s =
      let header (i : Nat) : CtHeader := {
        digest := set.digest, keySet := p.u32 4, state := if c.role = 0 then 2 else 0, level := c.limbs - 1
        engineSum := false, ntt := p.u8 2 == 1, refreshed := false, construction := set.construction
        scale := p.u16 8, noise := if c.role = 0 then noiseField (noiseFresh set) else 0, cohort := 0, vintage := 0
        epoch := s.fw.epoch, serial := (gloveOf s p.ctx).serial + i }
      let b : Binding := {
        keySet := p.u32 4, ntt := p.u8 2 == 1, level := c.limbs - 1, scale := p.u16 8, size := ctSize set
        headers := (List.range (c.n / ctSize set)).map header }
      .next (reply (setGlove (setCask s p.ctx c.id (fun x => { x with
          binding := some b, lpddr := x.lpddr + mib2 (64 * (c.n / ctSize set)) })) p.ctx
        (fun x => { x with serial := x.serial + c.n / ctSize set })) p (okAnswer (c.n / ctSize set) (c.limbs - 1)))) ∧
  (∀ (p : Packet) (s : State) (c : Cask) (b : Binding) (set : ParamSet), Admitted cmdLatImport p s →
    caskOf s p.ctx (p.u16 0) = some c → c.binding = some b → setOfKeys s p.ctx b.keySet = some set →
    exec (.latImport p) s =
      let header (i : Nat) : CtHeader := {
        digest := set.digest, keySet := b.keySet, state := 1, level := b.level, engineSum := false, ntt := b.ntt
        refreshed := false, construction := set.construction, scale := p.u16 2, noise := noiseField (noiseFresh set)
        cohort := 0, vintage := 0, epoch := s.fw.epoch, serial := (gloveOf s p.ctx).serial + i }
      .next (reply (setGlove (setCask s p.ctx c.id (fun c =>
          (List.range (p.u32 8)).foldl (fun c i => putHeader c (p.u32 4 + i) (header i)) c)) p.ctx
        (fun x => { x with serial := x.serial + p.u32 8 })) p okAnswer)) ∧
  (∀ (p : Packet) (s s1 : State) (c : Cask), Admitted cmdLatHdrRead p s → caskOf s p.ctx (p.u16 0) = some c →
    writeWindow s p.ctx (p.u32 12) (p.u64 16) ((headersOf c (p.u32 4) (p.u32 8)).flatMap headerBytes) = .ok s1 →
    exec (.latHdrRead p) s = .next (reply s1 p okAnswer))

/-- The opcodes of the 48-byte layout complete (R249, R254, R266, R268, R278, R284, R287): where the operands fit, are
not spilled and belong to the key set, and the predicted noise fits the budget, the outputs and their headers are
written and the reply counts outputs, inserted refreshes and waves. LAT_ENCRYPT_PK first draws its randomness. The model's
choices: an opcode waits between its checks and its completion (notes/assumptions/30.md), some residues are free values
(32.md), a faulted tile fails its opcode (72.md), a refresh is inserted for each ciphertext that would not fit (96.md), and
the premise on stores into the operands (137.md). -/
def Obligations.LatticeOpcodesComplete : Prop :=
  (∀ x ∈ ([(Instr.latAdd, latAdd), (Instr.latSub, latSub), (Instr.latMulConst, latMulConst),
      (Instr.latMulPlain, latMulPlain), (Instr.latMul, latMul), (Instr.latRotate, latRotate),
      (Instr.latRescale, latRescale), (Instr.latLevelDrop, latLevelDrop), (Instr.latForm, latForm_),
      (Instr.refreshPacked, refreshPackedOp), (Instr.refreshLwe, refreshLweOp),
      (Instr.schemeSwitch, schemeSwitchOp)] : List ((Packet → Instr) × LatOp)),
    ∀ (p : Packet) (s : State) (d a b : Cask) (k : KeySet) (set : ParamSet) (plan : List (Nat × Nat)),
    Admitted (latCmd x.2) p s → latCasks x.2 p s = .ok (d, a, b) → keySetOf s p.ctx (latKeys p) = some k →
    paramSetOf s p.ctx k.set = some set → latSpilled x.2 p s d a b = false →
    (x.2.waves = false ∨ x.2.scratch set (if x.2.aPlain then d.limbs else a.limbs) ≤ latGranules p s) →
    (mightRefresh x.2 p s = false ∨ refreshScratch set ≤ latGranules p s) →
    latForeign x.2 p set d a b = false → latPlan x.2 p s k set d a b = .ok plan →
    s.int.faulted.contains (p.ctx, d.id) = false →
    exec (x.1 p) s = .next (reply (latEffect x.2 p s set d a b plan).1 p (latEffect x.2 p s set d a b plan).2)) ∧
  (∀ (p : Packet) (s : State) (d a b : Cask) (k : KeySet) (set : ParamSet) (plan : List (Nat × Nat)),
    Admitted (latCmd latEncryptPk encryptDraw) p s →
    DrawReady (latCmd latEncryptPk encryptDraw) p s (Config.encryptBlocks (latDim p s) (latCount p)) →
    (let s0 := takeBlocks s p.ctx (Config.encryptBlocks (latDim p s) (latCount p))
     latCasks latEncryptPk p s0 = .ok (d, a, b) ∧ keySetOf s0 p.ctx (latKeys p) = some k ∧
     paramSetOf s0 p.ctx k.set = some set ∧ latSpilled latEncryptPk p s0 d a b = false ∧
     scratchNeed set d.limbs ≤ latGranules p s0 ∧ latForeign latEncryptPk p set d a b = false ∧
     latPlan latEncryptPk p s0 k set d a b = .ok plan ∧
     s0.int.faulted.contains (p.ctx, d.id) = false) →
    exec (.latEncryptPk p) s =
      let r := latEffect latEncryptPk (drawnOf p) (takeBlocks s p.ctx (Config.encryptBlocks (latDim p s) (latCount p))) set d a b plan
      .next (reply r.1 (drawnOf p) r.2))

/-- REFRESH_SETUP, LUT_LOAD and LUT_FREE complete (R275, R286). -/
def Obligations.RefreshCommandsComplete : Prop :=
  (∀ (p : Packet) (s : State) (set : ParamSet), Admitted cmdRefreshSetup p s → setOfKeys s p.ctx (p.u32 0) = some set →
    exec (.refreshSetup p) s =
      let r := refreshOf s p
      let g := gloveOf s p.ctx
      let n := ((paramSetOf s p.ctx r.lweSet).map (fun q => q.n)).getD 0
      .next (reply (setKeySet s p.ctx (p.u32 0) (fun k => { k with refresh := some r })) p (okAnswer
        ((if r.packed then packedLevel set.limbs r else 0xFF) + (if r.lookup then 2 ^ 8 * r.tMax + 2 ^ 16 * r.rMs else 0))
        (if r.packed then packedWave set (popcount 256 g.cfg.slots) (popcount 96 g.cfg.channels) r else 0)
        (if r.lookup then tLwe r n else 0)
        ((if r.lookup then r.bLwe + 2 ^ 24 * r.pSs else 0) + (if r.packed then 2 ^ 16 * r.pMax else 0))))) ∧
  (∀ (p : Packet) (s s1 : State) (r : RefreshCfg) (q : ParamSet) (bytes : List Byte), Admitted cmdLutLoad p s →
    lookupPart s p.ctx (p.u32 0) = some (r, q) → lutsUsed (gloveOf s p.ctx) < (gloveOf s p.ctx).cfg.luts →
    readWindow s p.ctx (p.u32 12) (p.u64 16) (4 * 2 ^ p.u8 6) = .ok (bytes, s1) →
    (p.u8 5 ≠ 0 ∨ posOf (fun x : Int => decide (x < 0 ∨ (2 ^ p.u8 6 : Nat) ≤ x))
      ((pieces 4 bytes).map (fun e => signed 32 (leNat e))) = none) →
    exec (.lutLoad p) s = .next (reply (setKeySet s1 p.ctx (p.u32 0) (fun k => { k with luts := k.luts ++ [{
      index := p.u8 4, switchKind := p.u8 5 == 1, log2t := p.u8 6, r := signed 8 (p.u8 7), exponent := signed 8 (p.u8 8)
      entries := (pieces 4 bytes).map (fun e => signed 32 (leNat e))
      poly := testPolynomial r.log2Nb (q.moduli.getD 0 1) (p.u8 5 == 1) ((pieces 4 bytes).map (fun e => signed 32 (leNat e)))
      kib := 2 ^ r.log2Nb * 8 / 1024 }] })) p
      (okAnswer (2 ^ r.log2Nb * 8 / 1024)))) ∧
  (∀ (p : Packet) (s : State), Admitted cmdLutFree p s →
    exec (.lutFree p) s = .next (reply (setKeySet s p.ctx (p.u32 0) (fun k => { k with
      luts := k.luts.filter (fun t => t.index != p.u8 4) })) p okAnswer))

/-- THR_SHARE_LOAD and THR_PARTIAL complete (R292 to R295): a share that unwraps and names the key set is held in drawn halves; partial
decryptions are flooded, written, and charged to the allowance of each ciphertext's Vintage. The model's choices: the
command waits between its checks and its completion (notes/assumptions/30.md), its two draws and their ranks (100.md),
and the premise that no tile is faulted (72.md). -/
def Obligations.ThresholdCommandsComplete : Prop :=
  (∀ (p : Packet) (s s1 : State) (n : Nat) (set : ParamSet) (slot : KeySlot) (blob : List Byte),
    Admitted cmdThrShareLoad p s →
    n = ((setOfKeys s p.ctx (p.u32 0)).map (fun x => blocksFor (8 * x.limbs * 2 ^ x.log2N))).getD 0 →
    DrawReady cmdThrShareLoad p s n →
    setOfKeys (takeBlocks s p.ctx n) p.ctx (p.u32 0) = some set → servingSlot (takeBlocks s p.ctx n) (p.u16 4) = .ok slot →
    lpddrFits (takeBlocks s p.ctx n) p.ctx (mib2 (16 * set.limbs * 2 ^ set.log2N)) = true →
    readWindow (takeBlocks s p.ctx n) p.ctx (p.u32 8) (p.u64 16) (p.u32 12) = .ok (blob, s1) →
    exec (.thrShareLoad p) s = .next (match Crypto.kwUnwrap (slotKey slot) blob with
      | none => reply (takeBlocks s p.ctx n) (drawnOf p) { status := .shareUnwrap }
      | some plain =>
        if slice plain 0 32 = set.digest ∧ field plain 32 4 = p.u32 0 then
          let mask := drawBytes s1 (8 * set.limbs * 2 ^ set.log2N)
          let halves := splitShare set ((pieces 8 (plain.drop 64)).map leNat) mask.1
          let share : ThrShare := {
            party := field plain 36 4, margin := p.u8 6, parent := slot.keyId, chain := slot.keyId :: slot.chain
            mib := mib2 (16 * set.limbs * 2 ^ set.log2N)
            half0 := halves.1, half1 := halves.2 }
          reply (chargeSlot (setKeySet mask.2 p.ctx (p.u32 0) (fun k => { k with share := some share })) slot.slot)
            (drawnOf p) (okAnswer share.party)
        else reply (takeBlocks s p.ctx n) (drawnOf p) { status := .keyMismatch })) ∧
  (∀ (p : Packet) (s s0 s4 : State) (n : Nat) (c : Cask) (set : ParamSet) (share : ThrShare) (hs : List CtHeader),
    Admitted cmdThrPartial p s → n = ((setOfKeys s p.ctx (p.u32 12)).map (fun x =>
      blocksFor (8 * x.limbs * 2 ^ x.log2N))).getD 0 + floodBlocks p s →
    DrawReady cmdThrPartial p s n → s0 = takeBlocks s p.ctx n →
    thrCask p s0 = some c → setOfKeys s0 p.ctx (p.u32 12) = some set → thrShare p s0 = some share → hs = thrHeaders p s0 →
    c.spilled = false → hs.all (fun h => h.keySet == p.u32 12 && h.digest == set.digest) = true →
    (List.range (p.u32 8)).find? (fun i => aggregateDetail s0 p.ctx (hs.getD i default) != 0) = none →
    allowanceShort p s0 hs = none →
    hs.all (fun h => fitsBudget set c.limbs h.scale (h.noise + 256 * share.margin)) = true →
    s0.int.faulted.contains (p.ctx, p.u16 0) = false →
    (let r := resplitShare s0 set share
     let out := floodedPartials (drawnOf p) s0 set r.1 c hs
       (setKeySet r.2 p.ctx (p.u32 12) (fun k => { k with share := some (if share.evicted then evictShare r.1 else r.1) }))
     writeWindow out.2 p.ctx (p.u32 16) (p.u64 24) out.1 = .ok s4) →
    exec (.thrPartial p) s =
      let s5 := hs.foldl (fun s h => chargeAllowance s p.ctx h.vintage 1) s4
      let last := hs.getD (p.u32 8 - 1) default
      .next (reply s5 (drawnOf p) (okAnswer (p.u32 8) (((kept s5 p.ctx last.vintage).map Prod.snd).getD 0)
        (floodWidth last share.margin))))

/-! ### Release, recipes, windows and connections -/

/-- VINTAGE_RELEASE starts a release, RELEASE_COMMIT makes the Vintage RELEASED once its noise is drawn, and
RELEASE_COMPLETE writes the output, opens the export windows and posts the reply (R300); RECIPE_LOAD holds a recipe whose
steps are right with its digest, and RECIPE_FREE lets a free one go (R314). That RELEASE_COMMIT only sets stage 4 and that
stages 3 to 5 end in the one step of RELEASE_COMPLETE is the model's choice (notes/assumptions/140.md). -/
def Obligations.ReleaseAndRecipeCommandsComplete : Prop :=
  (∀ (p : Packet) (s : State) (v : Vintage) (keys : List Nat), Admitted cmdVintageRelease p s → p.drawn = false →
    vintageOf s p.ctx p.vintage = some v →
    exportKeys s p.ctx (((recipeOf s p.ctx v.recipe).map exportRefs).getD []).length
      (((recipeOf s p.ctx v.recipe).map exportRefs).getD []) = some keys →
    (v.encrypted = false ∨ v.noise = false ∨ (sumCiphertexts s p.ctx v.id).all (fun x =>
      fitsBudget ((setOfKeys s p.ctx v.keySet).getD default) x.1.limbs x.2.2.scale
        (outputNoise v ((setOfKeys s p.ctx v.keySet).getD default) x.2.2)) = true) →
    exec (.vintageRelease p) s =
      .next (finish cmdVintageRelease (startRelease p s v keys).1 p (startRelease p s v keys).2)) ∧
  (∀ (g vid : Nat) (s : State) (v : Vintage) (o : Outstanding) (r : Release), vintageOf s g vid = some v →
    releaseWaiting s g vid = some o → v.release = some r → r.stage = 1 → v.state = .ready →
    (gloveOf s g).state = .active →
    exec (.releaseCommit g vid) s =
      let s1 := setVintage s g vid (fun v => { v with
        state := .released, release := some { r with stage := if (noisePieces s v).isEmpty then 4 else 3, journal := [] } })
      let commit (o : Outstanding) : Outstanding := { o with committed := true }
      .next { s1 with outstanding := mapIf (fun o => o.wait == .release g vid) commit s1.outstanding }) ∧
  (∀ (g vid : Nat) (s : State) (v : Vintage) (o : Outstanding) (r : Release), vintageOf s g vid = some v →
    releaseWaiting s g vid = some o → v.release = some r → r.stage = 4 → releaseHeld s g vid = false →
    exec (.releaseComplete g vid) s =
      let s1 := if v.encrypted then releaseEncrypted s v r else releaseMasked s v
      let s3 := setVintage (createExports s1 v r) g vid (fun v => { v with
        release := none, exports := r.keys, completed := true })
      .next (unlessStalled s (reply (releasedEvent s3 v r) o.pkt {
        status := .ok, r0 := survivorCount v, r1 := ceilDiv r.noiseBits (2 ^ 20)
        r2 := r.keys.getD 0 0xFFFFFFFF, r3 := r.keys.getD 1 0xFFFFFFFF }))) ∧
  (∀ (p : Packet) (s : State), Admitted cmdRecipeLoad p s → stepsError 0 {} (pieces 32 (p.params.drop 8)) = none →
    (pieces 32 (p.params.drop 8)).any (fun st =>
      (stReads st ++ stWrites st).any (fun r => isCaskRef r && !caskInRange s p.ctx r)) = false →
    exec (.recipeLoad p) s = .next (reply (setGlove s p.ctx (fun x => { x with recipes := x.recipes ++ [{
      id := p.u16 0, steps := pieces 32 (p.params.drop 8), digest := Crypto.sha256 (p.params.drop 8) }] })) p
      (bytesAnswer (Crypto.sha256 (p.params.drop 8))))) ∧
  (∀ (p : Packet) (s : State), Admitted cmdRecipeFree p s →
    exec (.recipeFree p) s = .next (reply (setGlove s p.ctx (fun x => { x with
      recipes := x.recipes.filter (fun r => r.id != p.u16 0) })) p okAnswer))

/-- WINDOW_CREATE, WINDOW_REVOKE and WINDOW_QUERY complete (R132, R135 to R137): a new window takes a free index with
the generation it carries, a revocation bumps it and replies once nothing under the old key is in flight. -/
def Obligations.WindowCommandsComplete : Prop :=
  (∀ (p : Packet) (s : State) (i : Nat), Admitted cmdWindowCreate p s → freeIndex s p.ctx = some i →
    exec (.windowCreate p) s =
      let s1 := { s with windows := s.windows ++ [{
        index := i, gen := generationOf s i, owner := p.ctx, target := p.u8 0, rights := p.u8 1
        anyConn := winFlag p 0, countOn := winFlag p 1, cuff := winFlag p 2, object := p.u16 4, conn := winConn p
        base := p.u64 8, length := p.u64 16, eventQ := p.u16 24, countQ := p.u16 26 }] }
      .next (reply (if p.u8 0 = 0 ∧ (p.u8 1).testBit rightWrite then
          setCask s1 p.ctx (p.u16 4) (fun c => { c with withheld := false })
        else s1) p (okAnswer (windowKey i (generationOf s i))))) ∧
  (∀ (p : Packet) (s : State), Admitted cmdWindowRevoke p s →
    exec (.windowRevoke p) s =
      let s1 := revokeWindow s (p.u32 0 / 256)
      .next (if keysBusy s1 [p.u32 0] then
          finish cmdWindowRevoke s1 p (.waits (.revoke (p.u32 0) (nextKey s1 (p.u32 0 / 256))))
        else reply s1 p (okAnswer (nextKey s1 (p.u32 0 / 256))))) ∧
  (∀ (p : Packet) (s : State) (w : Window), Admitted cmdWindowQuery p s → keyedWindow s (p.u32 0) = some w →
    exec (.windowQuery p) s = .next (reply s p (okAnswer (w.rights + 2 ^ 8 * w.target + 2 ^ 10 * (w.object % 2 ^ 16))
      (ceilDiv w.length 1024) (min (2 ^ 32 - 1) w.accesses) (min (2 ^ 32 - 1) w.violations))))

/-- CONN_CREATE, CONN_DESTROY, CONN_QUERY, TRIGGER_CANCEL and FAULT_INJECT complete (R119, R120, R142, R150): a new
connection raises its incarnation and sends CONNECT; one in ERROR goes at once, any other sends CLOSE and is
removed later. The model's choices: CONNECT and CLOSE take PSNs (notes/assumptions/84.md), the rate a connection starts
with (27.md), where the context of a new one goes (111.md), a CONNECTING connection moves to CLOSING (154.md). -/
def Obligations.ConnectionCommandsComplete : Prop :=
  (∀ (p : Packet) (s : State), Admitted cmdConnCreate p s → s.conns.length < 32768 → pinFits p s = true →
    contextStoreFits s p.ctx = true →
    exec (.connCreate p) s =
      let r := match makeRoom s p.ctx with
        | some s' => (s', true)
        | none => (s, connFlag p 1 || p.u8 2 == 1)
      let c := newConn p s r.2
      let s2 := { r.1 with conns := r.1.conns ++ [c], incs := Sparse.set r.1.incs c.id c.incarnation }
      let s3 := if c.sealedC then
          setKeySlot s2 c.keySlot (fun k => if k.lifetime = 1 then { k with left := k.left - 1 } else k)
        else s2
      .next (reply (sendConnect (touchConn s3 c.id) c.id) p (okAnswer c.incarnation))) ∧
  (∀ (p : Packet) (s : State) (c : Conn), Admitted cmdConnDestroy p s → connOf s (p.u16 0) = some c → c.state = .error →
    exec (.connDestroy p) s = .next (reply
      (retryFetches (forgetConn { undeliverAll s c with conns := (undeliverAll s c).conns.filter (fun x => x.id != c.id) } c)
        c.owner) p (okAnswer c.failures))) ∧
  (∀ (p : Packet) (s : State) (c : Conn), Admitted cmdConnDestroy p s → connOf s (p.u16 0) = some c → c.state ≠ .error →
    exec (.connDestroy p) s = .next (finish cmdConnDestroy
      (if c.state = .closing then s else sendClose (closeConn s c.id) c.id) p (.waits (.connGone c.id)))) ∧
  (∀ (p : Packet) (s : State) (c : Conn), Admitted cmdConnQuery p s → connOf s (p.u16 0) = some c →
    exec (.connQuery p) s = .next (reply { s with free := s.free + 1 } p (okAnswer
      (connStateCode c.state + 8 * b2n (!c.resident) + 2 ^ 16 * c.incarnation) c.req.v c.txReq.next
      (Config.roundTrip s.free)))) ∧
  (∀ (p : Packet) (s : State), Admitted cmdTriggerCancel p s →
    exec (.triggerCancel p) s =
      let gone := (gloveOf s p.ctx).triggers.filter (fun t => t.tag == p.u32 0)
      .next (reply (gone.foldl (fun s t => endTrigger s p.ctx t .flushed)
        (setGlove s p.ctx (fun x => { x with triggers := x.triggers.filter (fun t => t.tag != p.u32 0) }))) p
        (okAnswer gone.length))) ∧
  (∀ (p : Packet) (s : State) (c : Conn), Admitted cmdFaultInject p s → connOf s (p.u16 0) = some c →
    exec (.faultInject p) s = .next (reply (setConn s c.id (fun c => { c with inject := {
      dir := p.u8 2, drop := p.u16 4, corrupt := p.u16 6, reorder := p.u16 8, depth := p.u8 3, seed := p.u32 12, lfsr := p.u32 12
      left := p.u32 16, count := 0, heldRx := c.inject.heldRx, heldTx := c.inject.heldTx } })) p
      (okAnswer c.inject.count)))

/-- TRELLIS_JOIN, TRELLIS_LEAVE and TRELLIS_STATUS complete (R154, R155): joining opens the bypass switch and waits
for the first heartbeat, leaving closes the Trellis connections and the switch. -/
def Obligations.TrellisCommandsComplete : Prop :=
  (∀ (p : Packet) (s : State), Admitted cmdTrellisJoin p s →
    exec (.trellisJoin p) s = .next (finish cmdTrellisJoin
      (setTrellis s (fun t => { t with bypass := 1, member := p.u16 0 })) p (.waits .join))) ∧
  (∀ (p : Packet) (s : State), Admitted cmdTrellisLeave p s →
    exec (.trellisLeave p) s = .next (reply
      (closeBypass ((s.conns.filter (fun c => c.trellis)).foldl (fun s c => closeConn s c.id) s)) p okAnswer)) ∧
  (∀ (p : Packet) (s : State), Admitted cmdTrellisStatus p s →
    exec (.trellisStatus p) s = .next (reply s p (okAnswer
      (s.net.trellis.member + 2 ^ 16 * s.net.trellis.bypass + 2 ^ 18 * s.net.trellis.members.length)
      s.net.trellis.ringEpoch)))

/-! ### Gloves, keys, attestation and firmware -/

/-- GLOVE_ASSIGN, GLOVE_RESET, GLOVE_RELEASE, GLOVE_MODE_SET and GLOVE_QUERY complete (R325 to R327, R339, R344). -/
def Obligations.GloveCommandsComplete : Prop :=
  (∀ (p : Packet) (s : State), Admitted cmdGloveAssign p s → DrawReady cmdGloveAssign p s 1 →
    assignLack (heldCfgs (takeBlocks s p.ctx 1)) (cfgOf p 0) = none →
    exec (.gloveAssign p) s =
      let s0 := takeBlocks s p.ctx 1
      let nonce := drawBytes s0 16
      let digest := Crypto.sha256 (p.bytes 0 assignLength)
      .next (reply (setGlove nonce.2 (p.u8 0) (fun x => {
          state := .active, resets := x.resets, cfg := cfgOf p ((cellarBaseFor (heldCfgs s0) (p.u32 8)).getD 0)
          assign := p.bytes 0 assignLength, digest := digest, dataSeed := gloveSeed nonce.2 (p.u8 0) nonce.1
          vatList := inServiceVats nonce.2 })) (drawnOf p) (bytesAnswer digest))) ∧
  (∀ (p : Packet) (s : State), Admitted cmdGloveReset p s →
    exec (.gloveReset p) s = .next (finish cmdGloveReset (startReset s (p.u8 0) 0 p.cycle p.stamp) p
      (.waits (.gloveReset (p.u8 0))))) ∧
  (∀ (p : Packet) (s : State), Admitted cmdGloveRelease p s →
    exec (.gloveRelease p) s = .next (finish cmdGloveRelease (startReset s (p.u8 0) 2 p.cycle p.stamp) p
      (.waits (.gloveReset (p.u8 0))))) ∧
  (∀ (p : Packet) (s : State), Admitted cmdGloveModeSet p s →
    exec (.gloveModeSet p) s = .next (reply (setGlove s p.ctx (fun x => { x with
      live := p.u8 0 == 1, autoRefresh := p.u8 1 == 1 })) p okAnswer)) ∧
  (∀ (p : Packet) (s s1 : State), Admitted cmdGloveQuery p s →
    (p.u32 4 = 0 ∧ s1 = s ∨ p.u32 4 ≠ 0 ∧
      writeWindow s p.ctx (p.u32 4) (p.u64 8) (padTo assignLength (gloveOf s (p.u8 0)).assign) = .ok s1) →
    exec (.gloveQuery p) s = .next (reply s1 p (okAnswer (regGlvState (gloveOf s (p.u8 0)))
      (regGlvCfg (gloveOf s (p.u8 0))) (regGlvSlots (gloveOf s (p.u8 0))) (regGlvShares (gloveOf s (p.u8 0))))))

/-- KEY_OWNER_SET, KEY_LOAD, KEY_CREATE and KEY_EVICT complete (R405 to R413). -/
def Obligations.KeyLoadCommandsComplete : Prop :=
  (∀ (p : Packet) (s : State), Admitted cmdKeyOwnerSet p s →
    exec (.keyOwnerSet p) s = .next (match Crypto.kwUnwrap (importKey s p.ctx) (p.bytes 0 40) with
      | none => reply s p { status := .blobAuth }
      | some secret =>
        let digest := Crypto.sha256 (ascii "LQ-OWNER-V1" ++ secret)
        reply (setGlove s p.ctx (fun x => { x with owner := some digest })) p (bytesAnswer digest))) ∧
  (∀ (p : Packet) (s : State) (b : List Byte), Admitted cmdKeyLoad p s → b = blobOf p → p.drawn = false →
    s.ent.state ≠ .failed → 1 ≤ queuedBlocks s p.ctx →
    exec (.keyLoad p) s = .next (
      let counted := field b 17 1 = 1
      match Crypto.kwUnwrap (wrapKey s p.ctx (field b 12 4)) (b.drop 32) with
      | none => reply s p { status := .blobAuth }
      | some plain =>
        if plain.take 32 ≠ b.take 32 then reply s p { status := .blobAuth }
        else if field b 17 1 = 2 ∧ field b 20 4 ≠ s.fw.epoch then reply s p { status := .keyExpired }
        else if counted ∧ s.keys.spent.contains (spentEntry (b.drop 32)) = true then reply s p { status := .keyExpired }
        else if counted ∧ 4096 ≤ s.keys.spent.length then reply s p { status := .noResource }
        else
          let s0 := takeBlocks s p.ctx 1
          let s1 := loadSlot s0 {
            slot := p.u16 0, owner := p.ctx, state := .loaded, keyId := field b 8 4, parent := field b 12 4
            chain := chainUnder s0 p.ctx (field b 12 4), usage := field b 6 2, kind := field b 16 1, lifetime := field b 17 1
            left := if counted then field b 20 4 else 0, share0 := [], share1 := [] } (plain.drop 32)
          let s2 := if counted then addSpent s1 (b.drop 32) else s1
          reply (((slotById s0 p.ctx (field b 12 4)).map (fun q => chargeSlot s2 q.slot)).getD s2) (drawnOf p)
            (okAnswer (field b 8 4) (if counted then (if counted then field b 20 4 else 0) else 0xFFFFFFFF)))) ∧
  (∀ (p : Packet) (s s0 s1 s3 : State) (n : Nat) (key : List Byte), Admitted cmdKeyCreate p s →
    n = (if p.u8 2 = 0 then 2 else 1) → DrawReady cmdKeyCreate p s n → s0 = takeBlocks s p.ctx n →
    (kcSpends p = false ∨ s0.keys.spent.length < 4096) → kcKey p s0 = .ok (some key, s1) →
    (let s2 := loadSlot s1 {
       slot := p.u16 0, owner := p.ctx, state := .loaded, keyId := p.u32 4, parent := p.u32 8
       chain := chainUnder s1 p.ctx (p.u32 8), usage := p.u16 12, kind := p.u8 3, lifetime := p.u8 14, left := p.u32 16, share0 := [], share1 := [] } key
     kcWrapOut p = false ∧ s3 = s2 ∨ kcWrapOut p = true ∧ writeWindow s2 p.ctx (p.u32 20) (p.u64 24)
       (kcHeader p s1 ++ Crypto.kwWrap (wrapKey s1 p.ctx (p.u32 8)) (kcHeader p s1 ++ key)) = .ok s3) →
    exec (.keyCreate p) s =
      let s4 := if kcSpends p then addSpent s3 (Crypto.kwWrap (wrapKey s1 p.ctx (p.u32 8)) (kcHeader p s1 ++ key)) else s3
      let s5 := if p.u8 2 = 1 then ((slotById s1 p.ctx (p.u32 8)).map (fun q => chargeSlot s4 q.slot)).getD s4 else s4
      .next (reply s5 (drawnOf p) (okAnswer (p.u32 4) (if kcGen p then (gloveOf s0 p.ctx).generation else 0xFFFFFFFF)))) ∧
  (∀ (p : Packet) (s : State), Admitted cmdKeyEvict p s →
    exec (.keyEvict p) s = .next (reply (evictSlot s (p.u16 0)).1 p (okAnswer (evictSlot s (p.u16 0)).2)))

/-- KEY_INVALIDATE, KEY_QUERY and KEY_ROTATE_SET complete (R414 to R419): an invalidation joins the revocation list and
drains the key and its descendants while a Vintage lives, or evicts them at once. -/
def Obligations.KeyPolicyCommandsComplete : Prop :=
  (∀ (p : Packet) (s s1 : State), Admitted cmdKeyInvalidate p s → (revokedOf s p.ctx).length < 256 →
    s1 = (if p.ctx < 16 then setGlove s p.ctx (fun x => { x with revoked := x.revoked ++ [p.u32 0] })
      else { s with keys := { s.keys with revoked := s.keys.revoked ++ [p.u32 0] } }) →
    exec (.keyInvalidate p) s =
      let ds := descendants s p.ctx (p.u32 0)
      let hit (h : ThrShare) : Bool := p.u32 0 == 0 || h.parent == p.u32 0 || h.chain.contains (p.u32 0)
      if p.ctx < 16 ∧ hasLiveVintage s p.ctx then
        let s2 := ds.foldl (fun s k => setKeySlot s k.slot (fun k =>
          if k.state = .loaded then { k with state := .draining } else k)) s1
        let mark (k : KeySet) : KeySet := { k with share := k.share.map (fun h => if hit h then { h with draining := true } else h) }
        .next (reply (setGlove s2 p.ctx (fun x => { x with keySets := x.keySets.map mark })) p
          (okAnswer (ds.filter (fun k => k.state == .loaded)).length 0))
      else
        let s2 := ds.foldl (fun s k => (evictSlot s k.slot).1) s1
        .next (reply (if p.ctx < 16 then evictShares s2 p.ctx hit else s2) p (okAnswer ds.length 1))) ∧
  (∀ (p : Packet) (s : State), Admitted cmdKeyQuery p s → p.u16 0 = 0xFFFF →
    exec (.keyQuery p) s = .next (reply s p (okAnswer (servingCount (contextSlots s p.ctx)) (revokedOf s p.ctx).length
      (if p.ctx < 16 then (gloveOf s p.ctx).generation else 0)
      (if p.ctx < 16 then b2n (gloveOf s p.ctx).owner.isSome + 2 * b2n (gloveOf s p.ctx).rotation.isSome else 0)))) ∧
  (∀ (p : Packet) (s : State), Admitted cmdKeyQuery p s → p.u16 0 ≠ 0xFFFF →
    exec (.keyQuery p) s = .next (reply s p (match keySlotOf s (p.u16 0) with
      | none => okAnswer 0 0 0 0xFFFFFFFF
      | some k => okAnswer (slotStateCode k.state + 4 * k.lifetime + 16 * k.kind + 2 ^ 16 * k.usage) k.keyId k.parent
          (if k.lifetime = 1 then k.left else 0xFFFFFFFF)))) ∧
  (∀ (p : Packet) (s : State), Admitted cmdKeyRotateSet p s →
    exec (.keyRotateSet p) s =
      let ph := (gloveOf s p.ctx).phase
      let passed := p.u8 0 = 0 ∧ p.u64 8 < ph.word.count
      let s1 := setGlove s p.ctx (fun x => { x with rotation := if p.u8 0 = 0 ∧ ¬ passed then some (p.u64 8) else none })
      let due := dueEvent ((ph.recent.find? (fun t => decide (t.old ≤ p.u64 8 ∧ p.u64 8 < t.word.count))).getD
        { old := p.u64 8, word := ph.word, cycle := s.clock.cycle }) (p.u64 8) .keyRotation 0 0
      .next (reply (if passed then advanceMarks (addDue s1 p.ctx [due]) p.ctx (p.u64 8) else s1) p
        (okAnswer (gloveOf s p.ctx).generation)))

/-- ATTEST_REPORT, CERT_READ, ENDORSE_LOAD, LC_TRANSITION and DEBUG_SET complete (R423 to R434): reports and the chain
are written out; what is burnt takes effect where the store works (a free value), and a transition ends in a full
reset without a reply. -/
def Obligations.AttestationCommandsComplete : Prop :=
  (∀ (p : Packet) (s s1 : State), Admitted cmdAttestReport p s →
    writeWindow s p.ctx (p.u32 4) (p.u64 8)
      (reportBody s (p.u8 0) (libraryOf s p) (p.bytes 16 32) ++
        signShort s (reportBody s (p.u8 0) (libraryOf s p) (p.bytes 16 32))) = .ok s1 →
    exec (.attestReport p) s = .next (reply s1 p
      (bytesAnswer (Crypto.sha256 (reportBody s (p.u8 0) (libraryOf s p) (p.bytes 16 32)))))) ∧
  (∀ (p : Packet) (s s1 : State), Admitted cmdCertRead p s →
    writeWindow s p.ctx (p.u32 0) (p.u64 8) (chainBytes s.fw) = .ok s1 →
    exec (.certRead p) s = .next (reply s1 p (okAnswer (chainBytes s.fw).length (chainOf s.fw).length))) ∧
  (∀ (p : Packet) (s s1 : State) (bytes : List Byte), Admitted cmdEndorseLoad p s →
    readWindow s p.ctx (p.u32 0) (p.u64 8) endorseBytes = .ok (bytes, s1) →
    exec (.endorseLoad p) s = .next (
      match endorsementError s1 { body := bytes.take 96, signature := bytes.drop 96 } with
      | some d => reply s p { status := .imageAuth, detail := d }
      | none =>
        let s2 := { s1 with free := s1.free + 1 }
        if Config.storeWorks s1.free then reply (setFw s2 (fun f => { f with
          endorsement := some { body := bytes.take 96, signature := bytes.drop 96 }
          chain := if relinkOpen f then [] else f.chain, relink := false })) p okAnswer
        else reply s2 p { status := .storeFault })) ∧
  (∀ (p : Packet) (s : State), Admitted cmdLcTransition p s →
    DrawReady cmdLcTransition p s (if p.u8 0 = 2 then 2 else 1) →
    exec (.lcTransition p) s =
      let s0 := takeBlocks s p.ctx (if p.u8 0 = 2 then 2 else 1)
      let s1 := { s0 with free := s0.free + 1 }
      .next (if Config.storeWorks s0.free then fullReset (transition s1 (lifeOf (p.u8 0)))
        else reply s1 (drawnOf p) { status := .storeFault })) ∧
  (∀ (p : Packet) (s s1 : State) (bytes : List Byte), Admitted cmdDebugSet p s →
    (needsToken p s = false ∧ s1 = s ∨ needsToken p s = true ∧
      readWindow s p.ctx (p.u32 4) (p.u64 8) tokenBytes = .ok (bytes, s1) ∧ tokenError s bytes = none) →
    exec (.debugSet p) s =
      let s2 := { s1 with free := s1.free + 1 }
      .next (if Config.storeWorks s1.free then reply (setFw s2 (fun f => { f with debugPending := p.u8 0 == 1 })) p okAnswer
        else reply s2 p { status := .storeFault }))

/-- FW_STAGE, FW_SELECT and FW_QUERY complete (R436 to R439), in RECOVERY too: erasing, writing and checking the other
slot, and selecting, confirming and cancelling an image, each where the store works. That a store fault is a free value
and leaves the slots as they were is the model's choice (notes/assumptions/59.md and 115.md). -/
def Obligations.FirmwareCommandsComplete : Prop :=
  (∀ (p : Packet) (s : State), Admitted cmdFwStage p s → p.u8 0 = 0 →
    exec (.fwStage p) s = .next (if Config.storeWorks s.free then
        reply (setFw { s with free := s.free + 1 } (fun f => setFwSlot f (otherSlot s.fw) (fun _ => { state := .writing }))) p okAnswer
      else reply { s with free := s.free + 1 } p { status := .storeFault })) ∧
  (∀ (p : Packet) (s s2 : State) (bytes : List Byte), Admitted cmdFwStage p s → p.u8 0 = 1 →
    (stageInline p = true ∧ bytes = p.bytes 32 (p.u32 4) ∧ s2 = { s with free := s.free + 1 } ∨
      stageInline p = false ∧ readWindow { s with free := s.free + 1 } p.ctx (p.u32 16) (p.u64 24) (p.u32 4) = .ok (bytes, s2)) →
    exec (.fwStage p) s = .next (if Config.storeWorks s.free then
        reply (setFw s2 (fun f => setFwSlot f (otherSlot s.fw) (fun x => { x with
          image := Memory.writeN x.image (p.u64 8) bytes, written := p.u64 8 + bytes.length }))) p
          (okAnswer (p.u64 8 + bytes.length))
      else reply { s with free := s.free + 1 } p { status := .storeFault })) ∧
  (∀ (p : Packet) (s : State), Admitted cmdFwStage p s → p.u8 0 = 2 →
    exec (.fwStage p) s =
      let s1 := { s with free := s.free + 1 }
      .next (if Config.storeWorks s.free then
        match imageCheck s1 (fwSlot s.fw (otherSlot s.fw)) with
        | some (st, detail) => reply (setFw s1 (fun f => setFwSlot f (otherSlot s.fw) (fun x => { x with state := .invalid }))) p
            { status := st, detail := detail }
        | none => reply (setFw s1 (fun f => setFwSlot f (otherSlot s.fw) (fun x => { x with state := .verified }))) p
            (okAnswer (securityVersion (fwSlot s.fw (otherSlot s.fw))))
      else reply { s with free := s.free + 1 } p { status := .storeFault })) ∧
  (∀ (p : Packet) (s : State), Admitted cmdFwSelect p s →
    (p.u8 0 ≠ 0 ∨ s.fw.rollback ≤ securityVersion (fwSlot s.fw (p.u8 1))) →
    exec (.fwSelect p) s =
      let s1 := { s with free := s.free + 1 }
      .next (if Config.storeWorks s.free then
        match p.u8 0 with
        | 0 => reply (setFw s1 (fun f => setFwSlot f (p.u8 1) (fun x => { x with state := .pending, tried := false }))) p okAnswer
        | 1 => reply (setFw s1 confirmTrial) p (okAnswer (confirmTrial s.fw).rollback)
        | _ => reply (setFw s1 (fun f => setFwSlot f ((cancelable f).getD 0) (fun x => { x with state := .verified }))) p okAnswer
      else reply { s with free := s.free + 1 } p { status := .storeFault })) ∧
  (∀ (p : Packet) (s : State), Admitted cmdFwQuery p s →
    exec (.fwQuery p) s = .next (reply s p (okAnswer (regFw s.fw) (runningVersion s.fw) (stagedVersion s.fw) (regLc s.fw))))

/-! ### Entropy, integrity, phase and the module -/

/-- ENT_READ, ENT_STATUS, ENT_SOURCE_CTRL and ENT_RAW_READ complete (R385, R388, R392, R393); what is drawn, sampled, or
found by a retest is a free value. -/
def Obligations.EntropyCommandsComplete : Prop :=
  (∀ (p : Packet) (s s2 : State), Admitted cmdEntRead p s → noShare s p.ctx = false →
    DrawReady cmdEntRead p s (blocksFor (p.u32 4)) →
    noShare (takeBlocks s p.ctx (blocksFor (p.u32 4))) p.ctx = false →
    (let d := drawBytes (takeBlocks s p.ctx (blocksFor (p.u32 4))) (p.u32 4)
     writeWindow d.2 p.ctx (p.u32 0) (p.u64 8) d.1 = .ok s2) →
    exec (.entRead p) s = .next (reply s2 (drawnOf p) (okAnswer (p.u32 4)))) ∧
  (∀ (p : Packet) (s : State), Admitted cmdEntStatus p s →
    exec (.entStatus p) s = .next (reply s p (if p.ctx = vintner then
        okAnswer (regEntStatus s.ent) (roleWord s.ent) s.ent.discard (reserveRate s.ent)
      else okAnswer (b2n (delivering s.ent) + 2 * b2n (s.ent.state == .failed)) (gloveOf s p.ctx).cfg.entropy
        (gloveRate s.ent (gloveOf s p.ctx).cfg.entropy) 0))) ∧
  (∀ (p : Packet) (s : State), Admitted cmdEntSourceCtrl p s → p.u8 1 = 1 →
    exec (.entSourceCtrl p) s =
      let s1 := setSource s (p.u8 0) (fun x => { x with role := .test })
      .next (reply { s1 with ent := { s1.ent with promote := s1.ent.promote.filter (· != p.u8 0) } } p okAnswer)) ∧
  (∀ (p : Packet) (s : State), Admitted cmdEntSourceCtrl p s → p.u8 1 ≠ 1 →
    exec (.entSourceCtrl p) s = .next (reply (retestSource s (p.u8 0) (p.u8 1 == 2)).1 p
      (retestSource s (p.u8 0) (p.u8 1 == 2)).2)) ∧
  (∀ (p : Packet) (s s2 : State), Admitted cmdEntRawRead p s →
    writeWindow { s with free := s.free + 1 } p.ctx (p.u32 4) (p.u64 16)
      ((List.range (p.u32 8)).map (Config.rawByte s.free)) = .ok s2 →
    exec (.entRawRead p) s =
      let s3 := failSource s2 (p.u8 0) (Config.failedTest s.free % 4 + 1) false
      .next (reply (if Config.rawFailures s.free = 0 then s2
        else entropyEvent s3 0x0A10 false (p.u8 0) (sourceCause (sourceOf s3.ent (p.u8 0))) 0xFF 0) p
        (okAnswer (Config.rawFailures s.free))))

/-- INT_VAT_CTRL, INT_BIST, INT_HISTORY_READ and INT_QUERY complete (R452, R459, R462, R463); whether the pattern store
verifies and a test passes are free values. -/
def Obligations.IntegrityCommandsComplete : Prop :=
  (∀ (p : Packet) (s : State), Admitted cmdIntVatCtrl p s →
    exec (.intVatCtrl p) s =
      let s1 := (loadStore s).2
      .next (if (loadStore s).1 then
        match p.u8 1 with
        | 0 => reply (changeVat s1 (p.u8 0) 0xFF .suspect) p okAnswer
        | 1 => reply (changeVat (setVat s1 (p.u8 0) (fun v => { v with
            permanent := false, scheduled := false })) (p.u8 0) 0xFF .testing) p okAnswer
        | _ => reply (settleWaiting (startScan (changeVat s1 (p.u8 0) 0xFF .retired))) p okAnswer
      else reply s1 p { status := .imageAuth })) ∧
  (∀ (p : Packet) (s : State), Admitted cmdIntBist p s →
    exec (.intBist p) s =
      let s1 := (loadStore s).2
      let misr := Config.misr (p.u8 0) (p.u8 1) s1.free % 2 ^ 64
      let pass := Config.bistPasses (p.u8 0) (p.u8 1) s1.free
      .next (if (loadStore s).1 then
          reply (addRecord { s1 with free := s1.free + 1 } { kind := 5, unit := p.u8 0, outcome := b2n !pass, syndrome := misr })
            p (okAnswer misr (misr / 2 ^ 32) (b2n !pass))
        else reply s1 p { status := .imageAuth })) ∧
  (∀ (p : Packet) (s : State), Admitted cmdIntHistoryRead p s → p.route = .sideband →
    exec (.intHistoryRead p) s = .next (reply s p (bytesAnswer
      (slice (((recordsFrom s (p.u32 0) (p.u32 4)).map recordBytes).headD []) (p.u64 16) 16)))) ∧
  (∀ (p : Packet) (s s1 : State), Admitted cmdIntHistoryRead p s → p.route ≠ .sideband →
    writeWindow s p.ctx (p.u32 12) (p.u64 16)
      ((recordsFrom s (p.u32 0) (p.u32 4)).map (if p.u8 8 = 1 then cperBytes else recordBytes)).flatten = .ok s1 →
    exec (.intHistoryRead p) s = .next (reply s1 p (okAnswer (recordsFrom s (p.u32 0) (p.u32 4)).length
      ((((recordsFrom s (p.u32 0) (p.u32 4)).head?).map (fun r => r.seq)).getD (p.u32 0))
      (recordsSkipped s (p.u32 0) (p.u32 4))))) ∧
  (∀ (p : Packet) (s : State), Admitted cmdIntQuery p s →
    exec (.intQuery p) s =
      let chases := (s.int.chases.filter (fun c => c.vat == p.u8 0 && c.left != 0)).length
      let gloves := sumOf (fun g => 2 ^ g) (stripedOn s (p.u8 0))
      .next (match s.int.history.reverse.find? (fun r => r.unit == p.u8 0) with
        | some r => reply s p (okAnswer (regIntVat s (p.u8 0)) chases gloves r.seq)
        | none => reply { s with free := s.free + 1 } p
            (okAnswer (regIntVat s (p.u8 0)) chases gloves (Config.absentSequence s.free))))

/-- PHASE_TICK, PHASE_SOURCE_SET, CAL_SET and PHASE_QUERY complete (R55, R57, R58, R62, R67): an accepted tick moves the
count, ends fallback and restarts the timing of the limit; a source and the calendar are set. That PHASE_SOURCE_SET keeps
fallback unless the limit becomes 0 or the type changes, and restarts the limit's count, is the model's choice
(notes/assumptions/123.md and 122.md). -/
def Obligations.PhaseCommandsComplete : Prop :=
  (∀ (p : Packet) (s : State), Admitted cmdPhaseTick p s → p.tick = none → (tickCheck p s).isOk = true →
    exec (.phaseTick p) s = .next (reply (tickAccept p s).2 p (tickAccept p s).1)) ∧
  (∀ (p : Packet) (s : State) (a : Answer), Admitted cmdPhaseTick p s → p.tick = some a →
    exec (.phaseTick p) s = .next (reply s p a)) ∧
  (∀ (p : Packet) (s : State), Admitted cmdPhaseSourceSet p s →
    exec (.phaseSourceSet p) s =
      let t := sourceTypeOf (p.u8 0)
      let s1 := setGlove s p.ctx (fun x => { x with phase := { x.phase with
        type := t, source := p.u16 2, queue := p.u16 4, limit := p.u32 8, sinceTick := 0
        fallback := x.phase.fallback && t == .coordinator && p.u32 8 != 0 } })
      let s2 := if t = .calendar then applyTick s1 p.ctx 0xFFFF s.cal.ms s.clock.cycle none else s1
      .next (reply s2 p (okAnswer (gloveOf s2 p.ctx).phase.word.count ((gloveOf s2 p.ctx).phase.word.count / 2 ^ 32)))) ∧
  (∀ (p : Packet) (s : State), Admitted cmdCalSet p s →
    exec (.calSet p) s = .next (reply
      (tickCalendarGloves { s with cal := { s.cal with ms := p.u64 0, valid := true } } s.clock.cycle) p
      (okAnswer s.cal.ms (s.cal.ms / 2 ^ 32)))) ∧
  (∀ (p : Packet) (s : State), Admitted cmdPhaseQuery p s → p.u8 0 = 16 →
    exec (.phaseQuery p) s = .next (reply s p
      (okAnswer s.cal.ms (bitsAt s.cal.ms 32 16 + 2 ^ 16 * 0xFFFF) (2 ^ 32 - 1) 0xFFFF))) ∧
  (∀ (p : Packet) (s : State), Admitted cmdPhaseQuery p s → p.u8 0 ≠ 16 →
    exec (.phaseQuery p) s =
      let ph := (gloveOf s (p.u8 0)).phase
      let next := (nextDue s (p.u8 0)).getD (2 ^ 48 - 1)
      .next (reply s p (okAnswer ph.word.count (bitsAt ph.word.count 32 16 + 2 ^ 16 * ph.word.src) next
        (bitsAt next 32 16 + 2 ^ 16 * sourceTypeCode ph.type + 2 ^ 18 * b2n ph.fallback))))

/-- MODULE_RESET, MODULE_STATUS and POWER_CAP_SET complete (R492, R495, R499 to R501), on the sideband of the auxiliary
domain too; a full reset answers nothing (R24). -/
def Obligations.ModuleCommandsComplete : Prop :=
  (∀ (p : Packet) (s : State), Admitted cmdModuleReset p s → exec (.moduleReset p) s = .next (fullReset s)) ∧
  (∀ (p : Packet) (s : State), Admitted cmdModuleStatus p s →
    exec (.moduleStatus p) s = .next (reply s p (okAnswer (regPwr s.pwr) (s.pwr.pinSec % 2 ^ 12 + 2 ^ 16 * (s.pwr.cap % 2 ^ 12))
      (regTemp s.pwr) (s.pwr.flow % 2 ^ 16 + 2 ^ 16 * (regThrottle s.pwr % 2 ^ 9))))) ∧
  (∀ (p : Packet) (s : State), Admitted cmdPowerCapSet p s →
    exec (.powerCapSet p) s = .next (reply (setPwr s (fun x => { x with capNext := some (p.u16 0) })) p (okAnswer s.pwr.cap)))

/-! ### Registers, doorbells and the host port -/

/-- The sixteen register reads that latch or clear complete (R11, R52, R69, R396, R422, R470, R500): each gives the
register's value and latches the upper half, or clears the counter, of its own register. A VF latches its own
upper half and clears nothing. Beside them, three reads that change nothing: GBL_ORDER gives the ordering code (R3), the
write-only GBL_CTRL reads as zero (R11), and CAL_MS_HI gives the half latched by the read of CAL_MS_LO. One latch of
PHS_COUNT_HI for the PF and one for the VF, and that a VF read clears no counter, are the model's choice
(notes/assumptions/39.md and 114.md). -/
def Obligations.RegisterReadsComplete : Prop :=
  ∀ s : State, regsReady s = true →
  (∀ fn g : Nat, mayReadGlove s fn g = true →
    exec (.phsCountLoRead fn g) s =
      let ph := (gloveOf s g).phase
      let hi := bitsAt ph.word.count 32 16 + 2 ^ 16 * ph.word.src
      .next (afterRead ph.word.count (setGlove s g (fun x => { x with phase :=
        if fn = 0 then { x.phase with hiLatch := hi } else { x.phase with hiLatchVf := hi } })))) ∧
  exec .calMsLoRead s = .next (afterRead s.cal.ms { s with cal := { s.cal with hiLatch := bitsAt s.cal.ms 32 16 } }) ∧
  exec .entBlocksLoRead s =
    .next (afterRead s.ent.blocks { s with ent := { s.ent with hiLatch := bitsAt s.ent.blocks 32 32 } }) ∧
  exec .intTastedLoRead s =
    .next (afterRead s.int.tasted { s with int := { s.int with hiLatch := bitsAt s.int.tasted 32 32 } }) ∧
  exec .gblCmStatusRead s = .next (afterRead (regCmStatus s.cm) { s with cm := { s.cm with eccCorr := 0 } }) ∧
  (∀ fn g : Nat, mayReadGlove s fn g = true →
    exec (.phsRefusedRead fn g) s = .next (afterRead (gloveOf s g).phase.refused (setGlove s g (fun x =>
      if fn = 0 then { x with phase := { x.phase with refused := 0 } } else x)))) ∧
  (∀ port : Nat, port < 10 →
    exec (.prtRxDropRead port) s = .next (afterRead
      (min 65535 (portOf s port).dropIntegrity + 2 ^ 16 * min 65535 (portOf s port).dropCredit)
      (setPort s port (fun r => { r with dropIntegrity := 0, dropCredit := 0 }))) ∧
    exec (.prtNaksRead port) s =
      .next (afterRead (portOf s port).naks (setPort s port (fun r => { r with naks := 0 }))) ∧
    exec (.fijCountRead port) s = .next (afterRead (portOf s port).inject.count
      (setPort s port (fun r => { r with inject := { r.inject with count := 0 } })))) ∧
  exec .prtMissDropRead s = .next (afterRead s.net.missDrop { s with net := { s.net with missDrop := 0 } }) ∧
  exec .entDiscardRead s = .next (afterRead s.ent.discard { s with ent := { s.ent with discard := 0 } }) ∧
  exec .entUnusedRead s = .next (afterRead s.ent.unused { s with ent := { s.ent with unused := 0 } }) ∧
  exec .keyRemaskLateRead s = .next (afterRead s.keys.remaskLate { s with keys := { s.keys with remaskLate := 0 } }) ∧
  exec .intMismatchRead s = .next (afterRead (min 65535 s.int.arbitrated + 2 ^ 16 * min 65535 s.int.unresolved)
    { s with int := { s.int with arbitrated := 0, unresolved := 0 } }) ∧
  exec .telPinPeakRead s =
    .next (afterRead (s.pwr.pinPeak % 2 ^ 12) { s with pwr := { s.pwr with pinPeak := 0 } }) ∧
  exec .telThrCountRead s = .next (afterRead s.pwr.thrCount { s with pwr := { s.pwr with thrCount := 0 } }) ∧
  readRegister s 0 0x00000004 = some (s.fw.ordering % 2) ∧ readRegister s 0 0x00010000 = some 0 ∧
  (∀ t : State, exec .calMsLoRead s = .next t → readRegister t 0 0x00061004 = some (bitsAt s.cal.ms 32 16))

/-- The seven rows of register writes complete (R11, R67, R111, R130, R150) in every state that answers registers and for
every value: a W1C bit of CAL_STATUS and KEY_TAMPER falls where 1 is written; CAL_TRIM takes a value of -1,000 to
1,000 and keeps its own where another is written, and a reorder depth of 0 leaves the depth (the model's choices,
notes/assumptions/40.md and 106.md); PRT_CTRL and PRT_UDP, which are RWL, take a
value until the configuration is sealed and ignore it after that; PRT_ECN, FIJ_CTRL, FIJ_DROP, FIJ_CORRUPT,
FIJ_REORDER and FIJ_SEED take theirs; a write to any other offset changes nothing; and the seal closes the RWL
registers. -/
def Obligations.RegisterWritesComplete : Prop :=
  ∀ (v : Word32) (s : State), regsReady s = true →
  exec (.calStatusWrite v) s = .next { s with cal := { s.cal with
    lost := s.cal.lost && !v.toNat.testBit 1, tamperSeen := s.cal.tamperSeen && !v.toNat.testBit 3 } } ∧
  exec (.keyTamperWrite v) s =
    .next { s with keys := { s.keys with tamper := s.keys.tamper &&& ~~~(v.setWidth 6) } } ∧
  exec (.calTrimWrite v) s = .next (if -1000 ≤ ((v.setWidth 11 : BitVec 11)).toInt ∧ ((v.setWidth 11 : BitVec 11)).toInt ≤ 1000 then
    { s with cal := { s.cal with trim := v.setWidth 11 } } else s) ∧
  (∀ port : Nat, port < 10 →
    exec (.prtCtrlWrite port v) s = .next (if s.host.cfgSealed then s else setPort s port (fun r => { r with
      enable := v.toNat.testBit 0, ipv4 := v.toNat.testBit 1, ipv6 := v.toNat.testBit 2
      linkUp := r.linkUp && (v.toNat.testBit 0 || 8 ≤ port), fecLock := r.fecLock && (v.toNat.testBit 0 || 8 ≤ port) })) ∧
    exec (.fijCtrlWrite port v) s = .next (setPort s port (fun r => { r with inject := { r.inject with dir := v.toNat % 4 } })) ∧
    exec (.registerWrite (0x00070008 + 0x100 * port) v) s =
      .next (setPort s port (fun r => { r with markKib := v.toNat % 2 ^ 16 })) ∧
    exec (.registerWrite (0x00090004 + 0x40 * port) v) s =
      .next (setPort s port (fun r => { r with inject := { r.inject with drop := v.toNat % 2 ^ 16 } })) ∧
    exec (.registerWrite (0x00090008 + 0x40 * port) v) s =
      .next (setPort s port (fun r => { r with inject := { r.inject with corrupt := v.toNat % 2 ^ 16 } })) ∧
    exec (.registerWrite (0x0009000C + 0x40 * port) v) s =
      .next (setPort s port (fun r => { r with inject := { r.inject with
        reorder := v.toNat % 2 ^ 16
        depth := if v.toNat / 2 ^ 16 % 2 ^ 8 = 0 then r.inject.depth else v.toNat / 2 ^ 16 % 2 ^ 8 } })) ∧
    exec (.registerWrite (0x00090010 + 0x40 * port) v) s =
      .next (setPort s port (fun r => { r with inject :=
        if v.toNat = 0 then r.inject else { r.inject with seed := v.toNat, lfsr := v.toNat } }))) ∧
  exec (.registerWrite 0x00071000 v) s =
    .next (if s.host.cfgSealed then s else { s with net := { s.net with udp := v.toNat % 2 ^ 16 } }) ∧
  (∀ offset : Nat, offset ≠ 0x00071000 →
    (∀ port : Nat, port < 10 → offset ≠ 0x00070008 + 0x100 * port ∧ offset ≠ 0x00090004 + 0x40 * port ∧
      offset ≠ 0x00090008 + 0x40 * port ∧ offset ≠ 0x0009000C + 0x40 * port ∧ offset ≠ 0x00090010 + 0x40 * port) →
    exec (.registerWrite offset v) s = .next s) ∧
  exec .configurationSeal s = .next { s with host := { s.host with cfgSealed := true } }

/-- The doorbells and the MSI-X rows complete (R337, R355, R358 to R360): GBL_DB_PROD publishes the new slots of a
host-filled ring, GBL_DB_CONS frees the entries read and posts those that waited for room, and an index out of order
is only noted; a vector with a count sends one message and counts from 0 again, a masked one sets its pending bit
instead, and unmasking sends what waits. -/
def Obligations.DoorbellsAndInterruptsComplete : Prop :=
  (∀ (fn queue : Nat) (index : Word32) (slots : List (List Byte)) (visible : List HostWrite) (s s1 : State) (q : Queue),
    visible.foldl (fun s w => hostWrite s w.fn w.addr w.bytes) s = s1 → doorbellQueue s1 fn queue = some q →
    exec (.gblDbProd fn queue index slots visible) s =
      let n := circle 32 index.toNat q.prod
      let r := if q.cuff = true ∧ q.owner < 16 then cuffSlots s1 q n
        else (q.slots ++ publishedSlots s1.free n slots, { s1 with free := s1.free + 1 })
      .next (if hostFilled q.kind ∧ prodFits q index.toNat then
          setQueue r.2 q.id (fun x => { x with
            slots := r.1
            prod := index.toNat, stopped := false })
        else setQueue s1 q.id (fun x => { x with badIndex := true }))) ∧
  (∀ (fn queue : Nat) (index : Word32) (s : State) (q : Queue), doorbellQueue s fn queue = some q →
    exec (.gblDbCons fn queue index) s =
      .next (if ¬ hostFilled q.kind ∧ consFits q index.toNat then
          let s2 := drainBacklog q.backlog.length (setQueue s q.id (fun x => { x with
            entries := x.entries.drop (circle 32 index.toNat x.cons), cons := index.toNat })) q.id
          if q.kind = .completion then settleEnds (settleRevokes (resumeDeliveries s2 q.owner)) else s2
        else setQueue s q.id (fun x => { x with badIndex := true }))) ∧
  (∀ (fn i : Nat) (s : State), maySignal s fn = true →
     exec (.msixMessage fn i) s = .next (setVector s fn i (fun v =>
       if v.count = 0 then v
       else if v.masked then { v with pendingBit := true }
       else { v with count := 0, pendingBit := false, sent := v.sent + 1 })) ∧
     exec (.msixUnmask fn i) s = .next (setVector s fn i (fun v =>
       if v.count = 0 then { v with masked := false, pendingBit := false }
       else { v with masked := false, pendingBit := false, count := 0, sent := v.sent + 1 })))

/-- DMA_READ_FAIL completes for each of its four targets (R362, R368): a command ring halts, a send ring stops, a
window's request is refused or completes with the status, and a context whose fetch failed drops its parked
packets. -/
def Obligations.ReadFailuresComplete : Prop :=
  ∀ (cause : DmaCause) (s : State),
  (∀ (id : Nat) (q : Queue), queueOf s id = some q →
    exec (.dmaReadFail (.commandRing id) cause) s =
      .next (failCommandRing (dmaFailure s q.owner cause) q q.cons (dmaStatus cause)) ∧
    exec (.dmaReadFail (.sendRing id) cause) s =
      .next (failSendRing (dmaFailure s q.owner cause) q (dmaStatus cause))) ∧
  (∀ (id psn : Nat) (c : Conn), connOf s id = some c →
    exec (.dmaReadFail (.window id psn) cause) s =
      .next (failWindowRead (dmaFailure s c.owner cause) c psn cause) ∧
    (c.fetching = true → exec (.dmaReadFail (.context id) cause) s =
      let s1 := setConn (dmaFailure s c.owner cause) id (fun c => { c with parked := [], fetching := false })
      .next { s1 with net := { s1.net with missDrop := satAdd (2 ^ 32 - 1) s1.net.missDrop c.parked.length } }))

/-- What a port answers by itself (R112), and the sideband's dynamic address (R491), complete. -/
def Obligations.PortAnswersComplete : Prop :=
  (∀ (port address sender : Nat) (s : State) (g : Glove), portUp s port false = true →
    addressOwner s port (fun x => x.ipv4) address = some g →
    exec (.arpRequest port address sender) s = .next { s with net := { s.net with
      out := s.net.out ++ [.arpReply port address (g.cfg.shares.getD port {}).mac sender] } }) ∧
  (∀ (port address sender : Nat) (s : State) (g : Glove), portUp s port true = true →
    addressOwner s port (fun x => x.ipv6) address = some g →
    exec (.neighbourSolicitation port address sender) s = .next { s with net := { s.net with
      out := s.net.out ++ [.neighbourAdvert port address (g.cfg.shares.getD port {}).mac sender] } }) ∧
  (∀ (port : Nat) (v6 : Bool) (address sender : Nat) (payload : List Byte) (s : State) (g : Glove),
    portUp s port v6 = true → addressOwner s port (fun x => if v6 then x.ipv6 else x.ipv4) address = some g →
    exec (.echoRequest port v6 address sender payload) s = .next { s with net := { s.net with
      out := s.net.out ++ [.echoReply port v6 address sender payload] } }) ∧
  (∀ (address : Nat) (setdasa : Option Nat) (s : State), s.pwr.state ≠ .off →
    (setdasa = none ∨ s.side.address = none ∧ setdasa = some 0x4C) →
    exec (.dynamicAddressAssignment address setdasa) s = .next { s with side := { s.side with address := some address } })

/-! ### Resets, fetching and dispatch turns -/

/-- Everything that starts a full reset, the deassertion of PERST_N and the readiness after it complete (R353,
R491, R494 to R496, R499). A deassertion that comes before PWR_GOOD counts once PWR_GOOD has come; that the PWR_GOOD row
stands for the 100 ms as well is the model's choice (notes/assumptions/166.md). -/
def Obligations.FullResetsComplete : Prop :=
  (∀ (v : Word32) (s : State), regsReady s = true → bitsAt v.toNat 0 1 = 1 → bitsAt v.toNat 16 16 = 0xD1E0 →
    exec (.gblCtrlReset v) s = .next (fullReset s)) ∧
  (∀ (serial : Nat) (s : State), s.pwr.state = .on → serial % 2 ^ 64 = Config.serialNumber % 2 ^ 64 →
    exec (.mctpResetMessage serial) s = .next (fullReset s)) ∧
  (∀ s : State, s.pwr.state = .on →
    exec (.conventionalReset .hotReset) s = .next (fullReset s) ∧
    exec (.conventionalReset .dlDown) s = .next (fullReset s) ∧
    exec (.conventionalReset .perst) s = .next (fullReset { s with pwr := { s.pwr with perst := true } })) ∧
  (∀ s : State, s.pwr.state = .on → s.pwr.pwrGood = true → s.pwr.perst = true →
    exec .perstDeassert s = .next (beginBoot { s with pwr := { s.pwr with perst := false, perstEarly := false } })) ∧
  (∀ s : State, s.pwr.state = .on → s.pwr.pwrGood = false → s.pwr.perst = true →
    exec .perstDeassert s = .next { s with pwr := { s.pwr with perstEarly := true } }) ∧
  (∀ s : State, s.pwr.state = .on → s.pwr.perst = true → s.pwr.perstEarly = true →
    exec .pwrGood s = .next (beginBoot { s with pwr := { s.pwr with pwrGood := true, perst := false, perstEarly := false } })) ∧
  (∀ s : State, s.pwr.state = .on → s.pwr.pwrGood = true → s.pwr.perst = false → s.pwr.ready = false →
    s.fw.recovery = false →
    ∃ t : State, exec .fullResetReady s = .next t ∧ t.pwr = { s.pwr with ready := true } ∧
      t.cm.state = .running ∧ t.host.drsSent = true)

/-- COMMAND_FETCH, STAGED_PROMOTION, DISPATCH_TURN, GLOVE_RESET_REPLIES and SIDEBAND_PACKET complete (R22, R27 to R31, R33,
R341, R491): a ring whose next header is right yields its packet, one whose header fails halts its queue, a promoted
packet goes to the tail of class 0, a turn serves the work that continues and then up to 16 packets, and a sideband
packet is staged while the Cellarmaster runs and its buffer has room, and held while it restarts or boots. An empty slot
stands for a record of a Cuff that did not open, and halts its ring (R368). The model's choices: which packets STAGED_PROMOTION
moves (notes/assumptions/118.md), and how a held sideband packet is kept and fetched (13.md, 119.md). -/
def Obligations.FetchesAndTurnsComplete : Prop :=
  (∀ (queue cycle : Nat) (s : State) (q : Queue) (h : List Byte) (rest : List (List Byte)), queueOf s queue = some q →
    q.slots = h :: rest → s.pwr.state = .on → s.cm.state = .running → mayFetch s q = true →
    (h = [] → exec (.commandFetch queue cycle) s = .next (failCommandRing s q q.cons .cuffAuth)) ∧
    (∀ i : Nat, h ≠ [] → headerError h = 0 → headerSlots h ≤ q.slots.length → lostSlot q h = some i →
      exec (.commandFetch queue cycle) s = .next (failCommandRing s q i .cuffAuth)) ∧
    (h ≠ [] → headerError h ≠ 0 → exec (.commandFetch queue cycle) s = .next (failHeader s q h cycle)) ∧
    (h ≠ [] → headerError h = 0 → headerSlots h ≤ q.slots.length → lostSlot q h = none → q.flushTo = none → stagingRoom s q = true →
      exec (.commandFetch queue cycle) s =
        let p := packetOf h (q.slots.drop 1).flatten (routeOf q) q.id (contextStamp s q.owner cycle) cycle
          s.clock.order q.cons
        let s1 := setQueue (consumeSlots s q.id (headerSlots h)) q.bound (fun r => { r with reserved := r.reserved + 1 })
        .next (serialize s1 p (tickReaches s q p)))) ∧
  (∀ (order : Nat) (s : State) (p : Packet), s.staged.find? (fun p => p.order == order && p.priority != 0) = some p →
    exec (.stagedPromotion order) s = .next { s with
      staged := s.staged.filter (fun x => x.order != order) ++ [{ p with priority := 0 }] }) ∧
  (∀ (ctx : Nat) (s : State), s.cm.state = .running → ctx ≤ 16 →
    exec (.dispatchTurn ctx) s =
      let s1 := resumeServed (turnReplies s ctx) ctx
      .next (settleLedgers (turnLoop ctx (16 + s1.staged.length + 1) 16 s1))) ∧
  (∀ (g : Nat) (s : State), s.cm.state = .running → g < 16 →
    exec (.gloveResetReplies g) s = .next (resetReplies s g (namesGlove g))) ∧
  (∀ (bytes : List Byte) (cycle : Nat) (s : State), s.pwr.state = .on → s.fw.recovery = false →
    sidebandStaged s < 4 → headerError (padTo 64 bytes) = 0 → s.cm.state = .running →
    exec (.sidebandPacket bytes cycle) s = .next (serialize s (sidebandPacket s bytes cycle) false)) ∧
  (∀ (bytes : List Byte) (cycle : Nat) (s : State), s.pwr.state = .on → s.fw.recovery = false →
    sidebandStaged s < 4 → s.cm.state = .restarting ∨ s.cm.state = .boot →
    exec (.sidebandPacket bytes cycle) s = .next { s with side := { s.side with held := s.side.held ++ [bytes] } }) ∧
  (∀ (bytes : List Byte) (cycle : Nat) (s : State), s.pwr.state = .on → s.fw.recovery = false →
    4 ≤ sidebandStaged s →
    exec (.sidebandPacket bytes cycle) s = .next { s with side := { s.side with
      out := s.side.out ++ [.bufferFull], interrupt := true } })

/-- The Cellarmaster's events complete (R44 to R52, R70, R72): a fault restarts it, or halts it where two faults lie in
the 10 minutes before; a work descriptor that passes its four checks is none (which opcodes a class permits is the
implementation's); the end of a restart answers and performs again what waits; and a LIVE wait that reaches 10 ms ends
with its status. The model's choices: which faults of the last 600,000 ms count (notes/assumptions/80.md, 120.md), what
a restart performs again (18.md), and the opcodes of a class (1.md). -/
def Obligations.CellarmasterEventsComplete : Prop :=
  (∀ (s : State) (n : Nat) (i : Instr), ((i, n) ∈ [(Instr.cmFault .ecc, 1), (Instr.watchdogExpire, 2)] ∨
      n = 3 ∧ ∃ d : WorkDescriptor, i = .cmFault (.descriptor d) ∧ descriptorPasses s d = false) → s.cm.state = .running →
    let recent := s.cm.faults.filter (fun t => decide (s.cal.ms < t + 600000))
    let cm : Cm := { s.cm with
      restarts := satAdd 255 s.cm.restarts 1, lastCause := n, faults := recent ++ [s.cal.ms], faultPhase := calendarWord s }
    exec i s = .next (if 2 ≤ recent.length then haltCm (addRecord { s with cm := cm } { kind := 8, unit := 0x10, outcome := n })
      else addRecord { s with cm := { cm with state := .restarting } } { kind := 7, unit := 0x10, outcome := n })) ∧
  (∀ (s : State) (d : WorkDescriptor), d.glove = d.context →
    (∀ a ∈ d.granules, (gloveOf s d.glove).cfg.cellarBase ≤ a ∧
      a < (gloveOf s d.glove).cfg.cellarBase + (gloveOf s d.glove).cfg.cellar) →
    (∀ n ∈ d.channels, (gloveOf s d.glove).cfg.channels.testBit n = true) →
    (gloveOf s d.glove).cfg.slots.testBit d.slot = true →
    exec (.cmFault (.descriptor d)) s =
      .next (if Config.classPermitted d.cls (d.opcode / 256) = true then s else faultCm s 3)) ∧
  (∀ (us : Nat) (s : State), s.cm.state = .restarting →
    exec (.cmRestartDone us) s =
      let s1 := { s with cm := { s.cm with state := .running } }
      let ready := s.outstanding.filter (fun o => o.stored.isSome)
      let again := s.outstanding.filter (fun o => o.stored.isNone && !o.committed)
      let s2 := again.foldl performAgain (ready.foldl postStored s1)
      .next (releaseSideband (cmEvent s2 0x0D10 .ok ready.length (again.length + s.staged.length) us))) ∧
  (∀ s : State, s.pwr.state = .on →
    exec .cmEccCorrected s = .next { s with cm := { s.cm with eccCorr := satAdd 255 s.cm.eccCorr 1 } }) ∧
  (∀ (order : Nat) (s : State) (o : Outstanding) (a : Answer), s.outstanding.find? (fun o => o.pkt.order == order) = some o →
    timeoutAnswer o.wait = some a → waitsLive s o = true →
    exec (.liveWaitTimeout (.command order)) s = .next (endWaiting s o a)) ∧
  (∀ (queue : Nat) (s : State), exec (.liveWaitTimeout (.head queue)) s = .next (endTableWait s queue))

/-! ### Phase events and checkpoints -/

/-- The calendar millisecond and stall fallback complete (R55, R58, R59): the calendar and every CALENDAR Glove count,
milliseconds count toward every COORDINATOR Glove's limit, and in fallback the count rises by one with source
ID 0xFFFE. -/
def Obligations.ClockEventsComplete : Prop :=
  (∀ (cycle : Nat) (s : State), s.cal.stopped = false →
    exec (.calendarMsTick cycle) s = .next (tickCalendarGloves { s with
      cal := { s.cal with ms := (s.cal.ms + 1) % 2 ^ 48, elapsed := s.cal.elapsed + 1 }
      clock := { s.clock with cycle := cycle }
      gloves := s.gloves.map (fun x =>
        if x.phase.type = .coordinator then { x with phase := { x.phase with sinceTick := x.phase.sinceTick + 1 } }
        else x) } cycle)) ∧
  (∀ (g : Nat) (s : State), (gloveOf s g).phase.type = .coordinator → (gloveOf s g).phase.limit ≠ 0 →
    (gloveOf s g).phase.limit ≤ (gloveOf s g).phase.sinceTick → (gloveOf s g).phase.fallback = false →
    fallbackSuspended s g = false →
    exec (.stallFallbackEnter g) s =
      let ph := (gloveOf s g).phase
      .next (postEvent (setGlove s g (fun x => { x with phase := { x.phase with
          fallback := true, word := ⟨0xFFFE, x.phase.word.count⟩ } })) g
        (toLE 2 0x0C10 ++ toLE 2 0 ++ toLE 2 ph.source ++ toLE 2 ph.queue ++ toLE 4 ph.limit ++ zeros 4 ++
          phaseBytes ⟨0xFFFE, ph.word.count⟩ ++ phaseBytes ph.lastTick))) ∧
  (∀ (g cycle : Nat) (s : State), (gloveOf s g).phase.fallback = true → fallbackSuspended s g = false →
    exec (.stallFallbackTick g cycle) s = .next (countTick (applyTick { s with clock := { s.clock with cycle := cycle } } g
      0xFFFE ((gloveOf s g).phase.word.count + 1) cycle none) g))

/-- Due phase events complete (R17, R63 to R65, R104, R420): contribution close seals the Vintage once nothing stamped
at or below C waits, share close ends unmasking's ledger, a checkpoint marks its cuts, and a key rotation raises the
generation by one. -/
def Obligations.DueEventsComplete : Prop :=
  (∀ (g vid : Nat) (s : State) (e : DueEvent) (v : Vintage), dueFor s g .contributionClose vid = some e →
    needsPass s e.cycle = false → vintageOf s g vid = some v → v.state = .opened → closeWaits s g vid v.c = false →
    exec (.contributionCloseDue g vid) s = .next (sealVintage (dropDue s g) g vid e.tick)) ∧
  (∀ (g vid : Nat) (s : State) (e : DueEvent) (v : Vintage), dueFor s g .shareClose vid = some e →
    vintageOf s g vid = some v → v.state = .sealedV →
    exec (.shareCloseDue g vid) s =
      let s2 := shareClose (dropDue s g) g vid e.tick
      .next (if v.encrypted then tryReady s2 g vid else s2)) ∧
  (∀ (g vid : Nat) (s : State) (e : DueEvent) (v : Vintage), dueFor s g .checkpoint vid = some e →
    vintageOf s g vid = some v → v.state = .opened →
    exec (.checkpointDue g vid) s = .next ((accumulateCasks (dropDue s g) g vid).foldl (fun s c =>
      setCask s g c.id (fun c => { c with dueCuts := c.dueCuts ++ [(e.index, ⟨e.tick.src, e.phase⟩, false)] }))
      (dropDue s g))) ∧
  (∀ (g : Nat) (s : State) (e : DueEvent), dueFor s g .keyRotation 0 = some e →
    exec (.keyRotationDue g) s = .next (setGlove (dropDue s g) g (fun x => { x with
      generation := (x.generation + 1) % 2 ^ 32 })))

/-- Checkpoints, rollbacks and READY complete (R99 to R102, R104, R180, R181): a copy ends, its verification accepts
the checkpoint or starts a rollback, a restore ends the rollback, and a Vintage with nothing left enters READY. -/
def Obligations.CheckpointEventsComplete : Prop :=
  (∀ (g cask k : Nat) (s : State) (c : Cask) (v : Vintage) (word : PhaseWord) (sealCp : Bool)
    (rest : List (Nat × PhaseWord × Bool)), caskOf s g cask = some c → c.dueCuts = (k, word, sealCp) :: rest →
    vintageOf s g c.vintage = some v → c.inProgress = none → c.rollback = none → cutWaits s g cask word.count = false →
    (gloveOf s g).state = .active →
    exec (.checkpointCut g cask) s = .next (setCask s g cask (fun x => { x with
      dueCuts := rest, placersCut := [], rolled := false
      inProgress := some (withBlock x {
        index := k, sealCp := sealCp, phase := word, epoch := s.fw.epoch
        racked := (rackedClients s v).length, slot := freeSlot c, offset := Config.imageOffset g cask (freeSlot c) % 2 ^ 64
        image := c.data, tallies := c.tallies, digests := c.digests
        partials := c.partials, prints := c.prints, vats := c.vats
        conns := (s.conns.filter (fun x => x.owner == g && x.placedInto.contains cask)).map (fun x =>
          ({ conn := x.id, incarnation := x.incarnation, v := x.req.v, bitmap := settledBitmap x.req } : ConnRecord)) }) }))) ∧
  (∀ (g cask : Nat) (errors : List (Nat × Nat)) (s : State), exec (.checkpointCopyDone g cask errors) s =
    .next (setCask s g cask (fun c =>
      match c.inProgress with
      | some cp => if cp.copied then c
          else { c with inProgress := some { cp with copied := true, image := spoilImage c errors cp.image } }
      | none => c))) ∧
  (∀ (g cask : Nat) (s : State) (c : Cask) (cp : Checkpoint) (v : Vintage) (d : Nat), caskOf s g cask = some c →
    c.inProgress = some cp → vintageOf s g c.vintage = some v → cp.copied = true → (gloveOf s g).state = .active →
    printDiff (imagePrints v.printDraw { c with vats := cp.vats } cp.image) cp.prints = d →
    exec (.checkpointVerifyDone g cask) s =
      .next (unlessStalled s (if d = 0 then rebase (runCorrections (acceptCheckpoint s v c cp (baseBlocked s v c)) g v.id) g v.id
        else startRollback s g cask d cp.vats cp.sealCp))) ∧
  (∀ (g cask : Nat) (s : State) (c : Cask), caskOf s g cask = some c → c.rollback ≠ none → restoreWaits s g cask = false →
    (gloveOf s g).state = .active →
    exec (.rollbackRestoreDone g cask) s = .next (unlessStalled s (rebase (finishRollback s g cask) g c.vintage))) ∧
  (∀ (g vid : Nat) (s : State) (v : Vintage), vintageOf s g vid = some v → readyNow s v = true →
    exec (.vintageReady g vid) s = .next (unlessStalled s (enterReady s v)))

/-! ### Packets on the wire -/

/-- ACCUMULATE, WRITE, READ_REQ, ATOMIC, SEND, PARTIAL, SHARD, READ_RESP, ATOMIC_RESP, ACK, STATUS, CONNECT, CONNECT_ACK
and CLOSE complete (R119, R120, R123, R126, R129, R131, R149, R165, R166): an accepted packet with data takes its PSN
and is in progress until PACKET_PLACED shows its effect; a control packet of the connection's incarnation acts; a CONNECT
that matches establishes a CONNECTING connection, and any packet that passes steps 1 to 3 of R131 resumes a HELD one (R121).
That CONNECT and CLOSE take a PSN and are sequenced is the model's reading (notes/assumptions/84.md), and so is where
each operation takes effect (85.md, 86.md). -/
def Obligations.WirePacketsComplete : Prop :=
  (∀ (w w1 : WraPacket) (s : State) (op : Nat) (i : Instr) (c c1 k : Conn) (win : Option Window),
     (op, i) ∈ [(0x04, Instr.accumulate w), (0x01, .write w), (0x02, .readReq w), (0x05, .atomic w), (0x07, .send w),
       (0x0D, .partialPkt w), (0x0F, .shard w), (0x03, .readResp w), (0x06, .atomicResp w)] →
     Accepted op w s c c1 k w1 win →
     exec i s = .next (takePsn (touchConn (reached op w s c w1) c.id) k op w1
       (stampAt (reached op w s c w1) c.owner w1.cycle) win .place)) ∧
  (∀ (w w1 : WraPacket) (s : State) (c c1 : Conn), Delivered 0x08 w s c c1 w1 → c.state = .established →
    exec (.ack w) s = .next (ackPacket (reached 0x08 w s c w1) c1 w1)) ∧
  (∀ (w w1 : WraPacket) (s : State) (c c1 : Conn), Delivered 0x09 w s c c1 w1 → c.state = .established →
    exec (.status w) s = .next (statusPacket (reached 0x09 w s c w1) c1 w1)) ∧
  (∀ (w w1 : WraPacket) (s : State) (c c1 : Conn), arrives 0x0A w s = some (c, w1) → c.state = .established →
    ingressFull (injected 0x0A w s).2 c.owner 0x0A w1 = false →
    reachedConn 0x0A w s c w1 = some c1 → c1.resident = true → field w1.ext 4 2 = c1.peerConn →
    exec (.connect w) s =
      let s0 := reached 0x0A w s c w1
      let s1 := setConn s0 c.id (fun x => learnPeer x w1.ext)
      let s2 := sendControl s1 c.id 0x0B 0 (connectExt s1 c1)
      .next (sequencePacket s2 c.id 0x0A w1 (stampAt s0 c.owner w1.cycle) none)) ∧
  (∀ (w w1 : WraPacket) (s : State) (c c1 : Conn), arrives 0x0A w s = some (c, w1) → c.state = .connecting →
    ingressFull (injected 0x0A w s).2 c.owner 0x0A w1 = false →
    reachedConn 0x0A w s c w1 = some c1 → c1.resident = true → field w1.ext 4 2 = c1.peerConn →
    exec (.connect w) s =
      let s0 := reached 0x0A w s c w1
      let s1 := establishConn (setConn s0 c.id (fun x => learnPeer x w1.ext)) c1
      let s2 := sendControl s1 c.id 0x0B 0 (connectExt s1 c1)
      .next (sequencePacket s2 c.id 0x0A w1 (stampAt s0 c.owner w1.cycle) none)) ∧
  (∀ (w w1 : WraPacket) (s s0 : State) (op : Nat) (i : Instr) (c c1 : Conn),
    (op, i) ∈ [(0x04, Instr.accumulate w), (0x01, .write w), (0x02, .readReq w), (0x05, .atomic w), (0x07, .send w),
      (0x03, .readResp w), (0x06, .atomicResp w), (0x08, .ack w), (0x09, .status w), (0x0C, .close w)] →
    arrives op w s = some (c, w1) → c.state = .held → w1.incarnation = c.incarnation →
    ingressFull (injected op w s).2 c.owner op w1 = false →
    noteCe (setConn (injected op w s).2 c.id (fun x =>
      { x with sealRx := if x.sealedC then max x.sealRx w1.counter else x.sealRx })) c op w1 = s0 →
    connOf (resumeConn s0 c.id) c.id = some c1 → c1.resident = true →
    exec i s = .next (controlPacket (touchConn (resumeConn s0 c.id) c1.id) c1 op w1)) ∧
  (∀ (w w1 : WraPacket) (s : State) (c c1 : Conn), Delivered 0x0B w s c c1 w1 → c.state = .connecting →
    field w1.ext 4 2 = c1.peerConn →
    exec (.connectAck w) s = .next (establishConn
      (setConn (reached 0x0B w s c w1) c.id (fun x => learnPeer (stopConnect x) w1.ext)) c1)) ∧
  (∀ (w w1 : WraPacket) (s : State) (c c1 : Conn), Delivered 0x0C w s c c1 w1 → c.state = .established →
    ingressFull (injected 0x0C w s).2 c.owner 0x0C w1 = false →
    exec (.close w) s = .next (closeConn (sequencePacket (reached 0x0C w s c w1) c.id 0x0C w1
      (stampAt (reached 0x0C w s c w1) c.owner w1.cycle) none) c.id))

/-- Placement, triggered work and the send queues complete (R126, R127, R141 to R143, R166): a placed packet's effect
takes place and the visibility point advances; a request runs, or waits for its counter. A placed WRITE, an ATOMIC and a
READ_RESP store through `windowStore` at the packet's offset into their window (an ATOMIC_RESP and a READ_RESP of the
engine's own request at the request's), whose addresses WindowWriteStoresOnlyInWindow states; a placed ACCUMULATE or PARTIAL
changes the coordinates of its Cask from the window's base plus the offset on, and no other. That a placed effect takes
place at PACKET_PLACED is the model's choice (notes/assumptions/85.md). -/
def Obligations.PlacementAndWorkComplete : Prop :=
  (∀ (conn space psn : Nat) (s s1 : State) (c : Conn) (f : Inflight) (lees : Bool), connOf s conn = some c →
    (connRx c (space == 1)).flight.find? (fun f => f.psn == psn && !f.complete && placeable s c.owner f) = some f →
    f.verdict = .place →
    placeEffect s c f = (s1, lees) →
    exec (.packetPlaced conn space psn) s =
      let resp := space == 1
      let s2 := setConn s1 conn (fun c =>
        let c1 := setRx c resp (fun r => { r with
          flight := mapIf (fun x => x.psn == psn) (fun x => { x with complete := true, lees := lees }) r.flight })
        if lees then markMessage c1 resp f.pkt.msg true false else c1)
      let s3 := setConn (advance 4096 s2 conn resp) conn dropFences
      let due := f.pkt.ackReq || ((connOf s3 conn).map (fun c => decide (16 ≤ (connRx c resp).sinceAck))).getD false
      .next (unlessStalled s (settleEnds (settleRevokes (if due then sendAck s3 conn resp else s3))))) ∧
  (∀ (s s1 : State) (c : Conn) (f : Inflight) (w : Window), f.op = 0x01 → f.win = some w → plaintextBarred s w = false →
    windowStore s w f.pkt.offset f.pkt.payload = .ok s1 →
    placeEffect s c f = (countPlaced s1 w none, false) ∧ (countPlaced s1 w none).host = s1.host ∧
      (countPlaced s1 w none).casks = s1.casks) ∧
  (∀ (s s1 s2 : State) (c : Conn) (f : Inflight) (w : Window) (old : List Byte), plaintextBarred s w = false →
    windowBytes s w f.pkt.offset 8 = .ok (old, s1) →
    windowStore s1 w f.pkt.offset (toLE 8 (atomicResult f.pkt.ext (leNat old))) = .ok s2 →
    answerAtomic s c f w = submit (countPlaced s2 w none) c.id {
      psn := 0, op := 0x06, timerUs := c.minTimer
      pkt := { port := 0, conn := 0, incarnation := 0, first := true, last := true, msg := f.pkt.msg, ext := old } }) ∧
  (∀ (s s1 : State) (c : Conn) (f : Inflight) (w : Window) (i : Issued), f.op = 0x03 → f.win = some w →
    c.issued.find? (fun i => i.msg == f.pkt.msg) = some i → plaintextBarred s w = false →
    windowStore s w f.pkt.offset f.pkt.payload = .ok s1 →
    placeEffect s c f = (if i.left - f.pkt.payload.length = 0 then finishIssued (countPlaced s1 w none) c i 0 0
      else setConn (countPlaced s1 w none) c.id (fun c => { c with
        issued := mapIf (fun x => x.msg == i.msg) (fun x => { x with left := i.left - f.pkt.payload.length }) c.issued }),
      false)) ∧
  (∀ (s t : State) (cid : Nat) (w : WraPacket) (win : Window) (k : Cask), caskOf s win.owner win.object = some k →
    Memory.wf k.data = true →
    (t = (placeAccumulate s cid w win).1 ∨ t = placePartial s cid w win) →
    (∃ k1 : Cask, caskOf t win.owner win.object = some k1 ∧
      ∀ a : Nat, a < coordBytes k.ring * firstCoord k win w ∨
        coordBytes k.ring * (firstCoord k win w + (payloadValues k w.payload).length) ≤ a →
        Memory.read k1.data a = Memory.read k.data a) ∧
    ∀ g n : Nat, (g ≠ win.owner ∨ n ≠ win.object) → caskOf t g n = caskOf s g n) ∧
  (∀ (queue : Nat) (s : State) (q : Queue), readyHead s queue = some (q, []) →
    exec (.workRequestExecute queue) s = .next (failSendRing s q .cuffAuth)) ∧
  (∀ (queue : Nat) (s : State) (q : Queue) (e : List Byte), readyHead s queue = some (q, e) → e ≠ [] →
    (wrCounterWait e = false ∨ wrWellFormed s queue e = false ∨ counterReached s e = true) →
    exec (.workRequestExecute queue) s = .next (executeHead s q.owner queue e)) ∧
  (∀ (queue : Nat) (s : State) (q : Queue) (e : List Byte), readyHead s queue = some (q, e) → e ≠ [] →
    wrCounterWait e = true → wrWellFormed s queue e = true → counterReached s e = false → waitCount s < 16384 →
    exec (.workRequestExecute queue) s = .next (addWait s q.owner queue)) ∧
  (∀ (queue : Nat) (s : State) (q : Queue) (e : List Byte), readyHead s queue = some (q, e) →
    (gloveOf s q.owner).counterWaits.contains queue = true → counterReached s e = true →
    exec (.counterWaitRelease queue) s = .next (executeHead s q.owner queue e))

/-- The timers of a connection complete (R119, R124, R127, R129, R130, R145, R148): a transmission that is not acknowledged is
sent again, a connection that has spent its attempts or its counters gives up, a context read from its store serves what
waited, and a closed connection with nothing left goes. The model's choices: the rate's upper end (notes/assumptions/27.md),
and the free record of the context store that a spilled context takes (165.md). -/
def Obligations.ConnectionTimersComplete : Prop :=
  (∀ (id space g : Nat) (s : State) (c : Conn), connOf s id = some c → gapOf (connRx c (space == 1)) = some g →
    (connRx c (space == 1)).gapTold ≠ some g →
    exec (.ackGapTimer id space) s = .next (sendAck
      (setConn s id (fun c => setRx c (space == 1) (fun r => { r with gapTold := some g }))) id (space == 1))) ∧
  (∀ (id space : Nat) (s : State) (c : Conn), connOf s id = some c →
    ((connRx c (space == 1)).sinceAck ≠ 0 ∨ (connRx c (space == 1)).bitmap ≠ 0 ∨ (connRx c (space == 1)).again = true) →
    exec (.ackIdleTimer id space) s = .next (sendAck s id (space == 1))) ∧
  (∀ (id space psn : Nat) (s : State) (c : Conn) (x : TxPacket), connOf s id = some c → mayRetransmit c = true →
    x ∈ (connTx c (space == 1)).unacked → x.psn = psn → x.attempts < 16 →
    exec (.retransmitTimeout id space psn) s = .next (retransmit s id (space == 1) psn)) ∧
  (∀ (id : Nat) (s : State) (c : Conn), connOf s id = some c →
    (mayRetransmit c = true → limitReached c = true → exec (.attemptLimit id) s = .next (giveUp s c)) ∧
    (c.sealedC = true → (c.state = .connecting ∨ c.state = .established) → (2 ^ 48 ≤ c.sealTx ∨ 2 ^ 48 ≤ c.sealRx) →
      exec (.sealCounterExhausted id) s = .next (giveUp s c)) ∧
    (∀ s0 : State, c.fetching = true → readContext s c = .ok s0 → exec (.contextFetchDone id) s =
      let s1 := touchConn (setConn s0 id (fun c => { c with
        resident := true, fetching := false, store := none, parked := [] })) id
      .next (settleEnds (settleRevokes (retryFetches (pump (c.parked.foldl (unparkPacket id) s1) id) c.owner)))) ∧
    (∀ f : ReadFail, c.fetching = true → readContext s c = .error f →
      exec (.contextFetchDone id) s = .next (failFetch (dmaReport s c.owner f) c)) ∧
    (c.state = .closing → connBusy s c = false →
      ((gloveOf s c.owner).reset = none ∨ s.outstanding.any (fun o => o.wait == .connGone id) = true) →
      exec (.connRemove id) s = .next (removeConn s id))) ∧
  (∀ (id path : Nat) (s : State),
    exec (.pathHoldExpire id path) s = .next (pump (setConn s id (fun c => { c with
      pathHolds := c.pathHolds.filter (· != path) })) id) ∧
    exec (.rateIncreaseTick id) s = .next (setConn s id (fun c => { c with
      rateMbps := min (800000 * max 1 (popcount 8 c.ports)) (c.rateMbps + 1000) })))

/-- The ring's events complete (R154, R155): heartbeats pass on one hop further or complete a JOIN, a silent member
goes, and links rise and fall. -/
def Obligations.RingEventsComplete : Prop :=
  (∀ (w : WraPacket) (s s1 : State), portOpen s w.port = true → 8 ≤ w.port → isWra s w = true → w.intact = true →
    injectPort { s with clock := { s.clock with cycle := w.cycle } } true w.port { op := 0x0E, pkt := w } =
      ([{ op := 0x0E, pkt := w }], s1) →
    let origin := field w.ext 4 2
    let s2 := if s1.net.trellis.members.contains origin then s1
      else setMembers s1 (sortBy id (s1.net.trellis.members ++ [origin]))
    (origin ≠ s1.net.trellis.member → field w.ext 6 1 + 1 < 64 → exec (.heartbeat w) s =
      .next (emitRaw s2 0x0E (heartbeatPacket s2 (field w.ext 0 4) origin (field w.ext 6 1 + 1)))) ∧
    (origin = s1.net.trellis.member → s1.net.trellis.bypass = 1 → (portOf s1 8).linkUp = true → (portOf s1 9).linkUp = true →
      exec (.heartbeat w) s =
        let s3 := setTrellis s2 (fun t => { t with bypass := 2 })
        .next (endJoin s3 { status := .ok, r0 := s3.net.trellis.ringEpoch }))) ∧
  (∀ s : State, s.pwr.state = .on → s.net.trellis.bypass ≠ 0 →
    exec .heartbeatOriginate s = .next
      (emitRaw s 0x0E (heartbeatPacket s s.net.trellis.ringEpoch s.net.trellis.member 0))) ∧
  (∀ (m : Nat) (s : State), s.net.trellis.members.contains m = true →
    exec (.memberTimeout m) s = .next (memberGone (setMembers s (s.net.trellis.members.filter (· != m))) m)) ∧
  (∀ (port : Nat) (s : State),
    (portOpen s port = true → exec (.linkTrained port) s =
      .next (setPort s port (fun r => { r with linkUp := true, fecLock := true }))) ∧
    exec (.linkLost port) s =
      let s1 := setPort s port (fun r => { r with linkUp := false, fecLock := false })
      .next (if 8 ≤ port ∧ s.net.trellis.bypass = 1 then failJoin s1 else s1))

/-! ### Gloves, entropy, integrity and power -/

/-- The end of a Glove reset, its timeout, Function Level Resets and VF Enable complete (R341 to R343, R351, R374 to
R377). -/
def Obligations.GloveEventsComplete : Prop :=
  (∀ (g us : Nat) (s : State) (r : Reset), (gloveOf s g).reset = some r → committedDone s g = true →
    (s.ent.state ≠ .failed → s.keys.zeroized = false → (r.nonce = true ∨ s.ent.state ≠ .startup ∧ s.ent.reserve ≠ 0) →
      exec (.gloveResetEnd g us true) s = .next (finishReset (teardown s g) g us r)) ∧
    (s.ent.state ≠ .failed → s.keys.zeroized = false → r.nonce = false → (s.ent.state = .startup ∨ s.ent.reserve = 0) →
      exec (.gloveResetEnd g us true) s = .next (setGlove s g (fun x => { x with reset := x.reset.map (fun r =>
        { r with awaits := some (r.awaits.getD s.clock.order) }) }))) ∧
    exec (.gloveResetEnd g us false) s = .next (wedgeGlove (teardown s g) g 2 us r) ∧
    exec (.quiescenceTimeout g us) s = .next (wedgeGlove s g 1 us r)) ∧
  (∀ (fn cycle : Nat) (s : State), vfExists s fn = true →
    exec (.flrVf fn cycle) s = .next (flrFunction cycle { s with clock := { s.clock with cycle := cycle } } fn)) ∧
  (∀ (fn : Nat) (s : State), s.host.flr.contains fn = true →
    exec (.flrComplete fn) s = .next (setGlove { s with host := { s.host with
      vectors := s.host.vectors.filter (fun v => v.fn != fn), flr := s.host.flr.filter (· != fn)
      busMaster := s.host.busMaster.filter (· != fn), memorySpace := s.host.memorySpace.filter (· != fn) } } (fn - 1)
      (fun x => { x with flrEnded := isResetting x }))) ∧
  (∀ (cycle : Nat) (s : State), hostReady s = true →
    exec (.flrPf cycle) s =
      let s1 := clearVfEnable (dropVintner { s with clock := { s.clock with cycle := cycle } }) cycle
      .next (endFlr { s1 with host := { s1.host with numVfs := 0 } } 0)) ∧
  (∀ (cycle : Nat) (s : State),
    exec (.vfEnableClear cycle) s = .next (clearVfEnable { s with clock := { s.clock with cycle := cycle } } cycle)) ∧
  (∀ (n : Nat) (s : State), hostReady s = true → s.host.vfEnable = false → n ≤ 16 →
    exec (.vfEnableSet n) s = .next { s with host := { s.host with vfEnable := true, numVfs := n } })

/-- The Entropy Unit's events and the re-mask complete (R379, R381, R384, R386, R387, R391, R394, R413, R422). The model's
choices: the order of the events of a failure (notes/assumptions/8.md), what start-up counts (36.md), the measurements that
go with a conditioner boundary (113.md), and the blocks of a re-mask round (145.md). -/
def Obligations.EntropyEventsComplete : Prop :=
  (∀ s : State, delivering s.ent = true →
    exec (.entropyBlockRelease false) s =
      (let x := boundaryOf s.ent.main (blockInterval (inRole s.ent .active).length) (inRole s.ent .active)
       .next ((List.range x.2).foldl (fun s _ => mainBlock s)
        (measureSources (promoteSources { s with ent := { s.ent with main := x.1 } })))) ∧
    exec (.entropyBlockRelease true) s =
      (let x := boundaryOf s.ent.spare 480 (spareSources s.ent)
       .next ((List.range x.2).foldl (fun s _ => giveBlock s 16) { s with ent := { s.ent with spare := x.1 } }))) ∧
  (∀ (test : HealthTest) (a b window spareWindow : Nat) (s s1 s2 : State) (hit : List Nat) (moved : List (Nat × Nat)) (st : EntState),
    (dedup (if test = .notLocked then [min a b, max a b] else [a])).filter
      (fun i => tested (sourceOf s.ent i) && decide (i < 6)) = hit → hit ≠ [] →
    { s with ent := { s.ent with
      main := (discardFrom hit window s.ent.main).1, spare := (discardFrom hit spareWindow s.ent.spare).1
      discard := satAdd (2 ^ 32 - 1) s.ent.discard
        ((discardFrom hit window s.ent.main).2 + (discardFrom hit spareWindow s.ent.spare).2)
      promote := s.ent.promote.filter (fun i => !hit.contains i) } } = s1 →
    quarantine (testCode test) s1 hit = (s2, moved) →
    (if s2.ent.state = .startup then s2.ent.state else stateFor s2.ent.state (inRole s2.ent .active).length) = st →
    exec (.healthTestFail test a b window spareWindow) s = .next ((List.zip (List.range moved.length) moved).foldl (fun t x =>
      entropyEvent t 0x0A10 (st == .failed && s2.ent.state != .failed) x.2.1 (sourceCause (sourceOf t.ent x.2.1)) x.2.2
        (if x.1 = 0 then (discardFrom hit window s.ent.main).2 + (discardFrom hit spareWindow s.ent.spare).2 else 0))
        (setEntState s2 st (((moved.map (fun x => x.2)).filter (· != 0xFF)).headD 0xFF)))) ∧
  (∀ (s s1 : State) (passed : List Bool), s.ent.state = .startup → onTrial s.ent ≠ [] →
    (∀ i ∈ onTrial s.ent, passed.getD i false = true) →
    seatSources (measureSources
      ((onTrial s.ent).foldl (fun s i => setSource s i (fun x => { x with trial := 1 })) s)) = s1 →
    s1.ent.state = .startup → 4 ≤ (inRole s1.ent .active).length →
    exec (.entropyStartupDone passed) s = .next (setEntState s1 .ready)) ∧
  (∀ (late : Bool) (s : State),
    (s.ent.state = .ready ∨ s.ent.state = .degraded → exec (.keyRemask late) s =
      .next (takeReserve s.ent.reserve { s with keys := { s.keys with
        remask := satAdd (2 ^ 32 - 1) s.keys.remask 1, remaskLate := satAdd (2 ^ 32 - 1) s.keys.remaskLate (b2n late)
        remasking := s.keys.slots.map (fun k => k.slot) } })) ∧
    (s.ent.state = .failed → exec (.keyRemask late) s = .next { s with keys := { s.keys with
      slots := s.keys.slots.map (fun k => { k with state := .lost, share0 := zeros 32, share1 := zeros 32 })
      remasking := [] } }))

/-- The integrity controller's events complete (R447 to R457, R460, R464). The model's choices: tiles come before
their opcode's completion (notes/assumptions/72.md), shadow runs (73.md), a result is accepted where runs agree (75.md),
what a second failure is remembered by (78.md), outcomes as operands (115.md), and the restripe of Casks (130.md). -/
def Obligations.IntegrityEventsComplete : Prop :=
  (∀ (work : TastedWork) (primary tile n : Nat) (results : List (List Nat)) (vats : List Nat) (s s1 s2 : State),
    tasteApplies s work primary tile = true →
    tasteRuns primary (tasteOf s (workGlove work) (workClass work)).tasted (eligibleVats s (workGlove work) primary) = vats →
    fillBuffers (countTaste s (workGlove work) primary (workClass work) tile) (vats.take n) results = s1 →
    (arbitrate vats results).suspects.foldl (fun s v => suspectVat s (workGlove work) v) s1 = s2 →
    (arbitrate vats results).runs = n →
    exec (.tasteArbitration work primary ⟨tile, results⟩) s = .next (unlessStalled s (
      match (arbitrate vats results).agreed with
      | none => unresolvedTile s2 work primary tile (vats.take n)
      | some value =>
        let s3 := completePiece (pressMismatch (chargeRuns s2 (workGlove work) (workClass work) tile vats results n value) work
          ((wrongRuns vats results n value).map Prod.fst)) work
        (List.zip ((List.range 8).filter (fun v => (vatOf s3 v).state == .probation)) (results.drop 5)).foldl
          (runShadow (workGlove work) (workClass work) tile value) s3))) ∧
  (∀ (g vat cls : Nat) (s : State),
    exec (.chaseEnd g vat cls) s = .next { s with int := { s.int with
      chases := s.int.chases.filter (fun c => !(c.glove == g && c.vat == vat && c.cls == cls && c.left == 0)) } }) ∧
  (∀ (vat : Nat) (s : State), s.int.carrying = none → (waitingVats s).head? = some vat →
    exec (.vatLeaveService vat) s = .next (leaveService s vat)) ∧
  (∀ (vat misr : Nat) (pass : Bool) (s : State), (vatOf s vat).state = .testing → (vatOf s vat).out = true →
    exec (.scanDone vat pass misr) s =
      let s1 := addRecord s { kind := 4, unit := vat, outcome := b2n !pass, syndrome := misr }
      .next (startScan (reissueWaiting (if pass then
          changeVat (setVat s1 vat (fun v => { v with shadows := 0 })) vat 0xFF .probation
        else retireVat s1 vat 0xFF)))) ∧
  (∀ (vat : Nat) (s : State), (vatOf s vat).state = .probation → 10 ^ 9 ≤ (vatOf s vat).shadows →
    exec (.probationComplete vat) s =
      let s1 := changeVat (setVat s vat (fun v => { v with shadows := 0, out := false })) vat 0xFF .joining
      .next (restripeIdle (((List.range 16).filter (liveGlove s1)).foldl
        (fun s g => setGlove s g (fun x => { x with restripe := true })) s1))) ∧
  (∀ (g : Nat) (s : State), (gloveOf s g).restriping = true → s.int.waiting.any (moveOf g) = false →
    exec (.restripeDone g) s =
      let s1 := settleVats (restripeGlove s g)
      .next { s1 with int := { s1.int with reissued := s1.int.reissued.filter (fun w => !moveOf g w) } }) ∧
  (∀ (g cask i : Nat) (errors : List (Nat × Nat)) (eccGood : Bool) (s : State) (c : Cask),
    s.int.verifying.contains (g, cask) = true → caskOf s g cask = some c →
    posOf (fun v => some v == s.int.carrying) c.vats = some i →
    exec (.carryVerifyDone g cask ⟨errors, eccGood⟩) s =
      let s1 := { s with int := { s.int with verifying := s.int.verifying.filter (· != (g, cask)) } }
      .next (unlessStalled s (copyChecked s1 c i errors eccGood)))

/-- Throttling, the calendar second, trips, tamper, the power pins and the two supplies complete (R68, R399, R400, R472,
R476, R478 to R481, R493 to R495, R500, R501). The model's choices: the causes of TEL_THROTTLE (notes/assumptions/63.md), a
loss of the input in TRIPPED and a rise of the auxiliary supply (64.md), VBAT (65.md), PERST_N from the rise of PWR_EN (61.md),
and PWR_GOOD (166.md). -/
def Obligations.PowerEventsComplete : Prop :=
  (∀ (cond : ThrottleCond) (s : State), s.pwr.state = .on →
    exec (.throttleRaise cond) s = .next { s with pwr := { s.pwr with
      level := max s.pwr.level (throttleLevel cond).1, causes := addCause s.pwr.causes (throttleLevel cond).2
      throttled := true
      thrCount := satAdd (2 ^ 32 - 1) s.pwr.thrCount (if s.pwr.level < (throttleLevel cond).1 then 1 else 0) } }) ∧
  (∀ (r : SecondReadings) (s : State), s.pwr.auxPresent = true →
    exec (.calendarSecond r) s =
      let p := applyCap (lowerThrottle r s.pwr)
      .next { s with
        free := s.free + 1
        int := ageHistory s.free s.int
        pwr := { readSecond r s.free p with reported := s.pwr.throttled, throttled := p.level != 0 }
        cal := { s.cal with vbatLow := decide (r.vbatMv < 2700) } }) ∧
  (∀ (cause : TripCause) (s : State), s.pwr.state = .on →
    exec (.trip cause) s =
      let t := loseLogic { s with pwr := { s.pwr with state := .tripped, pwrGood := false } }
      .next { t with pwr := { t.pwr with tripCause := tripCode cause, thermtrip := true } }) ∧
  (∀ s : State, s.pwr.state = .tripped → s.pwr.pwrEn = false →
    exec .tripRecover s = .next { s with pwr := { s.pwr with
      state := if s.pwr.inputGood then .standby else .aux, thermtrip := false } }) ∧
  (∀ (src : TamperSource) (s : State), wired s src = true → s.cal.stopped = false →
    exec (.tamperTrip src) s =
      let s1 := { s with
        cal := { s.cal with tamperSeen := true }
        keys := { s.keys with
          roots := [], tenantRoot := none, zeroized := true, tamper := s.keys.tamper ||| (1#6 <<< tamperBit src) } }
      .next (if s.pwr.state = .on then fullReset s1 else s1)) ∧
  (∀ s : State, s.pwr.auxPresent = false →
    exec .vbatLoss s = .next { s with
      cal := { s.cal with stopped := true, ms := 0, valid := false, lost := true }
      keys := { s.keys with roots := [], tenantRoot := none, zeroized := true, tamper := s.keys.tamper ||| (1#6 <<< 5) } }) ∧
  (∀ s : State, s.pwr.state = .standby →
    exec .pwrEnRise s = .next (loseLogic { s with pwr := { s.pwr with
      pwrEn := true, state := .on, pwrGood := false, perst := true } })) ∧
  (∀ s : State, s.pwr.state = .on →
    (s.pwr.perst = false ∨ s.pwr.perstEarly = false →
      exec .pwrGood s = .next { s with pwr := { s.pwr with pwrGood := true } }) ∧
    exec .pwrEnFall s = .next (loseLogic { s with pwr := { s.pwr with pwrEn := false, state := .standby, pwrGood := false } }) ∧
    exec .inputPowerLoss s = .next (loseLogic { s with pwr := { s.pwr with
      inputGood := false, state := .aux, pwrGood := false } })) ∧
  (∀ s : State, s.pwr.state = .standby →
    exec .inputPowerLoss s = .next { s with pwr := { s.pwr with inputGood := false, state := .aux } }) ∧
  (∀ s : State, s.pwr.state = .tripped →
    exec .inputPowerLoss s = .next { s with pwr := { s.pwr with inputGood := false } } ∧
    exec .pwrEnFall s = .next { s with pwr := { s.pwr with pwrEn := false } }) ∧
  (∀ s : State, s.pwr.state = .aux →
    exec .inputPowerRise s = .next { s with pwr := { s.pwr with inputGood := true, state := .standby } }) ∧
  (∀ s : State, s.pwr.state = .off →
    exec .auxRise s = .next { s with
      pwr := { s.pwr with state := if s.pwr.inputGood then .standby else .aux, auxPresent := true }
      cal := { s.cal with stopped := false } }) ∧
  (∀ s : State, s.pwr.auxPresent = true →
    exec .auxLoss s =
      let t := loseLogic { s with pwr := { s.pwr with state := .off, pwrGood := false } }
      .next { t with
        pwr := { t.pwr with auxPresent := false, cap := 1900, capNext := none, tripCause := 0, thermtrip := false }
        side := { t.side with address := none } })
/-! ### The module as a whole -/

/-- After reset the queue of commands is empty, every Glove is FREE, the calendar counts from 0 and is not valid, the
power cap is 1,900 W, the ports' UDP destination is 0xC5A8 and their marking threshold 0x0800, the Trellis is
bypassed, the Entropy Unit is in start-up, the debug state is closed, and no queue, window, connection, Cask or
Vintage exists. That the module is ON with its boot not finished, DEPLOYED and in boot epoch 1 is the model's choice
(notes/assumptions/48.md to 50.md), as are the calendar's start (125.md) and that no queue exists (10.md). -/
def Obligations.ResetState : Prop :=
  State.reset.pending = [] ∧
  (State.reset.gloves.length = 16 ∧ ∀ g ∈ State.reset.gloves, g.state = .free ∧ g.phase.word = default ∧ g.phase.type = .none) ∧
  (State.reset.cal.ms = 0 ∧ State.reset.cal.valid = false ∧ State.reset.pwr.cap = 1900) ∧
  (State.reset.net.udp = 0xC5A8 ∧ State.reset.net.trellis.bypass = 0 ∧
    ∀ r ∈ State.reset.net.ports, r.markKib = 0x0800 ∧ r.inject.dir = 0) ∧
  (State.reset.ent.state = .startup ∧ State.reset.fw.debug = false ∧ State.reset.host.vfEnable = false) ∧
  (State.reset.queues = [] ∧ State.reset.windows = [] ∧ State.reset.conns = [] ∧ State.reset.casks = [] ∧
    State.reset.vintages = [] ∧ State.reset.keys.slots = []) ∧
  (State.reset.pwr.state = .on ∧ State.reset.pwr.ready = false ∧ State.reset.fw.lc = .deployed ∧ State.reset.fw.epoch = 1)

/-- The state after reset has the shape of the module: 16 Gloves, 8 Vats, 10 ports, 6 sources, every memory canonical. -/
def Obligations.ResetMeetsShape : Prop := ShapeOk State.reset

/-- Every step keeps the shape of the module: the fixed numbers of Gloves, Vats, ports and noise sources, and the
canonical form of host memory, of every Cask with its checkpoints, of both firmware slots, of the window
generations and of the connection incarnations. -/
def Obligations.StepKeepsShape : Prop := ∀ s t : State, ShapeOk s → step s = .next t → ShapeOk t

/-- No step lowers the roll-back counter, and none takes the fuses back to an earlier life-cycle state (R423, R435 to
R439): the counter only rises at a CONFIRM and a transition only goes forward, whatever the command and state. -/
def Obligations.StepNeverGoesBack : Prop :=
  ∀ s t : State, step s = .next t → s.fw.rollback ≤ t.fw.rollback ∧ lifeRank s.fw.lc ≤ lifeRank t.fw.lc

/-- Every command answers a next state in every state, and leaves the queue of waiting commands as it is: no row ends a
run (R24, R39). That an event row whose precondition does not hold answers the same state is the model's choice
(notes/assumptions/116.md), and so is every row of a list of events coming in the sender's order. -/
def Obligations.EveryCommandAnswers : Prop :=
  ∀ (i : Instr) (s : State), ∃ t : State, exec i s = .next t ∧ t.pending = s.pending

/-- The frame of every command: each part of the state that `mayChange` does not list for it is the same before and
after, host memory and every Cask among them. -/
def Obligations.CommandFrame : Prop :=
  ∀ (i : Instr) (s t : State), exec i s = .next t → Unchanged (mayChange i) s t

/-- Bytes written to a memory in canonical form are read back from where they were written, every other byte reads as
before, and the form is kept; a cleared range reads as zeros. -/
def Obligations.MemoryReadsWhatWasWritten : Prop :=
  ∀ (m : List (Nat × Byte)) (a : Nat), Memory.wf m = true →
    (∀ bs : List Byte, Memory.wf (Memory.writeN m a bs) = true ∧ Memory.readN (Memory.writeN m a bs) a bs.length = bs ∧
      ∀ x : Nat, x < a ∨ a + bs.length ≤ x → Memory.read (Memory.writeN m a bs) x = Memory.read m x) ∧
    (∀ n : Nat, Memory.wf (Memory.clear m a n) = true ∧
      ∀ x : Nat, Memory.read (Memory.clear m a n) x = if a ≤ x ∧ x < a + n then 0 else Memory.read m x)

/-- A command's write to a window on plain host memory stores its bytes at the window's base plus the offset, in the
memory of the function that owns the window, and changes nothing else (R140, R361): every other byte of host
memory, of that function or another, reads as before. An entry posted to a ring outside a Cuff is stored at the ring's
base plus the entry size times the producer index modulo the depth (R24, R359), and every other byte reads as before. A
write to a window on a Cask stores its bytes at the window's base plus the offset among the coordinates of that Cask, and
a write to a window in a Cuff seals the records it touches: only their 4,096 data bytes and 32 tag bytes change (R365). -/
def Obligations.WindowWriteStoresOnlyInWindow : Prop :=
  (∀ (s : State) (ctx key off : Nat) (bs : List Byte) (w : Window), Memory.wf s.host.mem = true →
    Sparse.wf s.host.rings = true →
    localWindow s ctx key rightWrite off bs.length = .ok w → w.target = 1 → w.cuff = false → dmaReaches s w.owner = true →
    w.base + off + bs.length ≤ 2 ^ 64 →
    ∃ t : State, writeWindow s ctx key off bs = .ok t ∧ Unchanged [.hostMem, .vectors] s t ∧
      t.host.vectors = s.host.vectors ∧ t.pending = s.pending ∧
      hostRead t (functionOf w.owner) (w.base + off) bs.length = bs ∧
      ∀ k : Nat, k < hostKey (functionOf w.owner) (w.base + off) ∨
        hostKey (functionOf w.owner) (w.base + off) + bs.length ≤ k →
        hostByte t k = hostByte s k) ∧
  (∀ (s : State) (w : Window) (off : Nat) (bs : List Byte) (k : Cask), w.target = 0 →
    caskOf s w.owner w.object = some k → Memory.wf k.data = true →
    ∃ (t : State) (k1 : Cask), windowStore s w off bs = .ok t ∧ caskOf t w.owner w.object = some k1 ∧
      Memory.readN k1.data (w.base + off) bs.length = bs ∧
      (∀ a : Nat, a < w.base + off ∨ w.base + off + bs.length ≤ a → Memory.read k1.data a = Memory.read k.data a) ∧
      (∀ g n : Nat, (g ≠ w.owner ∨ n ≠ w.object) → caskOf t g n = caskOf s g n) ∧ t.host = s.host) ∧
  (∀ (s t : State) (w : Window) (off : Nat) (bs : List Byte), Memory.wf s.host.mem = true →
    Sparse.wf s.host.rings = true → w.target = 1 → w.cuff = true → windowStore s w off bs = .ok t →
    t.casks = s.casks ∧
    ∀ k : Nat, (∀ j ∈ recordsOf (w.base + off) bs.length,
        let data := hostKey (functionOf w.owner) ((gloveOf s w.owner).session.dataBase + 4096 * j)
        let tag := hostKey (functionOf w.owner) ((gloveOf s w.owner).session.tagBase + 32 * j)
        (k < data ∨ data + 4096 ≤ k) ∧ (k < tag ∨ tag + 32 ≤ k)) →
      hostByte t k = hostByte s k) ∧
  (∀ (s : State) (q : Queue) (entry : List Byte), Sparse.wf s.host.rings = true → q.cuff = false →
    dmaReaches s q.owner = true →
    let addr := q.base + entryBytes q.kind * (q.prod % 2 ^ q.log2Depth)
    addr + entry.length ≤ 2 ^ 64 →
    hostRead (pushEntry s q entry) (functionOf q.owner) addr entry.length = entry ∧
      ∀ k : Nat, k < hostKey (functionOf q.owner) addr ∨ hostKey (functionOf q.owner) addr + entry.length ≤ k →
        hostByte (pushEntry s q entry) k = hostByte s k)

/-- A Chiwin command that fails one of steps 2 to 5 of R32 has no effect but its reply: the first check that fails gives
the answer, and only what carries the answer changes. A refused SESSION_OPEN alone also spends the key pair of its
session (R372; that it does so for these checks is the model's reading, notes/assumptions/143.md). -/
def Obligations.RefusedCommandHasNoEffect : Prop :=
  ∀ (i : Instr) (c : Cmd) (p : Packet) (s : State) (r : Refused), commandOf i = some (c, p) → served c p s = true →
    checks c p s = .error r → exec i s = .next (refuse (c.spent p s) p r) ∧
      (c.op ≠ 0x0011 → c.spent p s = s) ∧ (r.host = none → refuse s p r = reply s p r.answer) ∧
      Unchanged answering s (refuse (c.spent p s) p r)

/-- While the module is ON and not in RECOVERY, a halted Cellarmaster performs no command: each is answered
ST_ENGINE_HALTED and nothing else changes (R50); while it restarts or boots the packet stays staged (R48). In
RECOVERY the sideband gets ST_BAD_OPCODE but for the opcodes that the ROM serves (R440). -/
def Obligations.UnservedCommands : Prop :=
  ∀ (i : Instr) (c : Cmd) (p : Packet) (s : State), commandOf i = some (c, p) → s.pwr.state = .on →
    (s.fw.recovery = false → s.cm.state = .halted →
      exec i s = .next (deliver s p { status := .engineHalted }) ∧
        Unchanged answering s (deliver s p { status := .engineHalted })) ∧
    (s.fw.recovery = false → s.cm.state = .restarting ∨ s.cm.state = .boot →
      exec i s = .next { s with staged := s.staged ++ [p] }) ∧
    (s.fw.recovery = true → p.route = .sideband → c.op ∉ [0x0910, 0x0911, 0x0912, 0x0D01] →
      exec i s = .next (deliver s p { status := .badOpcode })) ∧
    (s.fw.recovery = true → p.route ≠ .sideband → exec i s = .next s)

/-- A sideband packet whose opcode is not sideband-capable is refused with ST_BAD_OPCODE, whatever context it names
(R505), and nothing else happens. -/
def Obligations.SidebandRefusesOpcodes : Prop :=
  ∀ (i : Instr) (c : Cmd) (p : Packet) (s : State), commandOf i = some (c, p) → served c p s = true →
    p.route = .sideband → c.sideband = false → exec i s = .next (reply s p { status := .badOpcode })

/-- A full reset returns every Glove to FREE (R327) and, unless PERST_N holds the boot back, takes the next boot epoch (R490,
R495; that the reset waits for PERST_N's release is the model's reading, notes/assumptions/61.md);
no Vintage, Cask, window, connection or queue is left (R107, R135, R496). -/
def Obligations.FullResetFreesGloves : Prop :=
  ∀ s : State, (fullReset s).gloves = State.reset.gloves ∧ (∀ g ∈ (fullReset s).gloves, g.state = .free) ∧
    (s.pwr.perst = false → (fullReset s).fw.epoch = (s.fw.epoch + 1) % 2 ^ 32) ∧
    (fullReset s).vintages = [] ∧ (fullReset s).casks = [] ∧ (fullReset s).windows = [] ∧ (fullReset s).conns = [] ∧
    (fullReset s).queues = []

/-- In AUX, STANDBY and TRIPPED the auxiliary domain performs MODULE_STATUS and POWER_CAP_SET and answers every other
sideband packet ST_BAD_STATE with detail 1, and the MCTP reset message is ignored; in ON the sideband carries the
sideband-capable opcodes (R492). -/
def Obligations.AuxiliaryDomainAnswers : Prop :=
  (∀ (i : Instr) (c : Cmd) (p : Packet) (s : State), commandOf i = some (c, p) → p.route = .sideband →
    s.pwr.state = .aux ∨ s.pwr.state = .standby ∨ s.pwr.state = .tripped →
    exec i s = .next (if i = .moduleStatus p ∨ i = .powerCapSet p then perform c p s
      else deliver s p { status := .badState, detail := 1 })) ∧
  (∀ (serial : Nat) (s : State), s.pwr.state = .aux ∨ s.pwr.state = .standby ∨ s.pwr.state = .tripped →
    exec (.mctpResetMessage serial) s = .next s) ∧
  (∀ (i : Instr) (c : Cmd) (p : Packet) (s : State), commandOf i = some (c, p) → p.route = .sideband →
    s.pwr.state = .on → s.fw.recovery = false → s.cm.state = .running → c.sideband = true → checkRoute c p s = .ok () ∧
      exec i s = .next (perform c p s))

/-- VINTAGE_OPEN is refused with ST_BAD_STATE while the Glove's phase source is NONE, and where its stamp is at or above
the contribution-close phase of its Vintage (R56): nothing but the reply happens. -/
def Obligations.VintageOpenRefusals : Prop :=
  ∀ (p : Packet) (s : State), served cmdVintageOpen p s = true → checkRoute cmdVintageOpen p s = .ok () →
    checkIssuer cmdVintageOpen p s = .ok () → cmdVintageOpen.form p s = none → checkGlove p s = .ok () →
    ((gloveOf s p.ctx).phase.type = .none ∨
      ∃ v : Vintage, vintageOf s p.ctx p.vintage = some v ∧ v.c ≤ p.stamp.count) →
    ∃ d : Nat, exec (.vintageOpen p) s = .next (reply s p { status := .badState, detail := d })

/-- Revoking a window removes it: no key of its index reaches it any more, neither the revoked key nor one of the next
generation, the generation of the index has risen by one, and every other window and generation is as before
(R135). -/
def Obligations.RevokedKeyReachesNothing : Prop :=
  ∀ (p : Packet) (s : State) (w : Window), Sparse.wf s.gens = true → Admitted cmdWindowRevoke p s →
    windowOf s (p.u32 0 / 256) = some w →
    ∃ t : State, exec (.windowRevoke p) s = .next t ∧ windowOf t (p.u32 0 / 256) = none ∧
      generationOf t (p.u32 0 / 256) = w.gen + 1 ∧
      (∀ ctx key right off n : Nat, key / 256 = p.u32 0 / 256 →
        ∃ r : Refused, localWindow t ctx key right off n = .error r ∧ r.answer.status = .accessViolation) ∧
      (∀ j : Nat, j ≠ p.u32 0 / 256 → windowOf t j = windowOf s j ∧ generationOf t j = generationOf s j)
end

