-- ==== Sys2Proof/Laws/Commands.lean ====
section
/-! SUPPORT. What a Chiwin command does, once for all commands: an admitted command runs its body, on the packet
and state after its draw where it draws, and its reply or its wait is the last step (R24, R32, R388). -/

set_option autoImplicit false
set_option Elab.async false

namespace Sys2Proof.Machine

/-! ### The fields of a packet after its draw -/

@[simp] theorem drawnOf_ctx (p : Packet) : (drawnOf p).ctx = p.ctx := rfl
@[simp] theorem drawnOf_vintage (p : Packet) : (drawnOf p).vintage = p.vintage := rfl
@[simp] theorem drawnOf_route (p : Packet) : (drawnOf p).route = p.route := rfl
@[simp] theorem drawnOf_queue (p : Packet) : (drawnOf p).queue = p.queue := rfl
@[simp] theorem drawnOf_params (p : Packet) : (drawnOf p).params = p.params := rfl
@[simp] theorem drawnOf_stamp (p : Packet) : (drawnOf p).stamp = p.stamp := rfl
@[simp] theorem drawnOf_order (p : Packet) : (drawnOf p).order = p.order := rfl
@[simp] theorem drawnOf_mark (p : Packet) : (drawnOf p).mark = p.mark := rfl
@[simp] theorem drawnOf_drawn (p : Packet) : (drawnOf p).drawn = true := rfl
@[simp] theorem drawnOf_len (p : Packet) : (drawnOf p).len = p.len := rfl
@[simp] theorem drawnOf_u8 (p : Packet) (i : Nat) : (drawnOf p).u8 i = p.u8 i := rfl
@[simp] theorem drawnOf_u16 (p : Packet) (i : Nat) : (drawnOf p).u16 i = p.u16 i := rfl
@[simp] theorem drawnOf_u32 (p : Packet) (i : Nat) : (drawnOf p).u32 i = p.u32 i := rfl
@[simp] theorem drawnOf_u64 (p : Packet) (i : Nat) : (drawnOf p).u64 i = p.u64 i := rfl
@[simp] theorem drawnOf_num (p : Packet) (i n : Nat) : (drawnOf p).num i n = p.num i n := rfl
@[simp] theorem drawnOf_bytes (p : Packet) (i n : Nat) : (drawnOf p).bytes i n = p.bytes i n := rfl

/-! ### Checks -/

theorem need_true {b : Bool} {st : Status} {d : Nat} (h : b = true) : need b st d = .ok () := by simp [need, h]

theorem want_some {α : Type} {o : Option α} {a : α} {st : Status} {d : Nat} (h : o = some a) :
    want o st d = .ok a := by simp [want, h]

theorem need_false {b : Bool} {st : Status} {d : Nat} (h : b = false) : need b st d = fail st d := by simp [need, h]

theorem want_none {α : Type} {o : Option α} {st : Status} {d : Nat} (h : o = none) : want o st d = fail st d := by
  simp [want, h]

theorem bind_fail {α β : Type} (st : Status) (d : Nat) (f : α → Except Refused β) :
    ((fail st d : Except Refused α) >>= f) = fail st d := rfl

theorem bind_ok {ε α β : Type} (a : α) (f : α → Except ε β) : (Except.ok a >>= f) = f a := by
  simp only [bind, Except.bind]

/-! ### From an admitted packet to its answer -/

variable {c : Cmd} {p : Packet} {s t : State}

theorem checks_of_passes (h : passes c p s = true) : checks c p s = .ok () := by
  unfold passes at h
  split at h
  · assumption
  · cases h

theorem dispatch_of_served (h : served c p s = true) : dispatch c p s = perform c p s := by
  unfold served at h
  unfold dispatch
  split at h
  · next h1 =>
    simp only [Bool.and_eq_true, beq_iff_eq, bne_iff_ne, ne_eq] at h
    simp [h1, h.1.1, h.1.2, h.2]
  · next h1 =>
    split at h
    · next h2 =>
      simp only [Bool.and_eq_true, beq_iff_eq] at h
      rw [if_neg h1, if_pos h2, if_pos h.1, if_pos h.2]
    · next h2 =>
      simp only [beq_iff_eq] at h
      simp [h1, h2, h]

theorem dispatch_of_admitted (h : Admitted c p s) : dispatch c p s = start c p s := by
  rw [dispatch_of_served h.1, perform, checks_of_passes h.2]

theorem start_of_no_draw (h : c.draw p s = none) : start c p s = runBody c p s := by
  simp [start, h]

theorem start_of_drawn (h : p.drawn = true) : start c p s = runBody c p s := by
  simp [start, h]

theorem ready_of_draw {n : Nat} (h : DrawReady c p s n) : c.ready p s = .ok () := by
  have h := h.2.1
  unfold readyToDraw at h
  split at h
  · assumption
  · cases h

/-- A command whose draw is ready takes all its blocks, those it draws later too. -/
theorem start_of_draw {rank n : Nat} (h : c.draw p s = some (rank, n)) (hr : DrawReady c p s (n + c.later p s)) :
    start c p s = runBody c (drawnOf p) (takeBlocks s p.ctx (n + c.later p s)) := by
  simp [start, h, hr.1, ready_of_draw hr, hr.2.2.1, hr.2.2.2, drawnOf]

theorem runBody_answer {a : Answer} (h : c.body p s = .ok (t, .answer a)) : runBody c p s = reply t p a := by
  simp [runBody, h, finish]

theorem runBody_waits {w : Wait} (h : c.body p s = .ok (t, .waits w)) : runBody c p s = finish c t p (.waits w) := by
  simp [runBody, h]

theorem runBody_silent (h : c.body p s = .ok (t, .silent)) : runBody c p s = t := by
  simp [runBody, h, finish]

theorem runBody_refused {r : Refused} (h : c.body p s = .error r) : runBody c p s = refuse (c.spent p s) p r := by
  simp [runBody, h]

/-- An admitted command without a draw whose body answers. -/
theorem runCmd_answer {a : Answer} (h : Admitted c p s) (hd : c.draw p s = none)
    (hb : c.body p s = .ok (t, .answer a)) : runCmd c p s = .next (reply t p a) := by
  rw [runCmd, dispatch_of_admitted h, start_of_no_draw hd, runBody_answer hb]

/-- An admitted command without a draw whose body leaves it waiting. -/
theorem runCmd_waits {w : Wait} (h : Admitted c p s) (hd : c.draw p s = none)
    (hb : c.body p s = .ok (t, .waits w)) : runCmd c p s = .next (finish c t p (.waits w)) := by
  rw [runCmd, dispatch_of_admitted h, start_of_no_draw hd, runBody_waits hb]

/-- An admitted command without a draw that ends without a reply. -/
theorem runCmd_silent (h : Admitted c p s) (hd : c.draw p s = none)
    (hb : c.body p s = .ok (t, .silent)) : runCmd c p s = .next t := by
  rw [runCmd, dispatch_of_admitted h, start_of_no_draw hd, runBody_silent hb]

/-- An admitted command whose draw is ready and whose body answers. -/
theorem runCmd_draw_answer {rank n : Nat} {a : Answer} (h : Admitted c p s) (hd : c.draw p s = some (rank, n))
    (hr : DrawReady c p s (n + c.later p s))
    (hb : c.body (drawnOf p) (takeBlocks s p.ctx (n + c.later p s)) = .ok (t, .answer a)) :
    runCmd c p s = .next (reply t (drawnOf p) a) := by
  rw [runCmd, dispatch_of_admitted h, start_of_draw hd hr, runBody_answer hb]

/-- An admitted command that draws once, at its own rank alone. -/
theorem runCmd_draws_once {rank n : Nat} {a : Answer} (h : Admitted c p s) (hd : c.draw p s = some (rank, n))
    (hl : c.later p s = 0) (hr : DrawReady c p s n) (hb : c.body (drawnOf p) (takeBlocks s p.ctx n) = .ok (t, .answer a)) :
    runCmd c p s = .next (reply t (drawnOf p) a) := by
  have hn : n + c.later p s = n := by rw [hl, Nat.add_zero]
  exact runCmd_draw_answer h hd (hn.symm ▸ hr) (hn.symm ▸ hb)

/-- An admitted command without a draw whose body refuses it. -/
theorem runCmd_refuses {r : Refused} (h : Admitted c p s) (hd : c.draw p s = none) (hb : c.body p s = .error r) :
    runCmd c p s = .next (refuse (c.spent p s) p r) := by
  rw [runCmd, dispatch_of_admitted h, start_of_no_draw hd, runBody_refused hb]

/-- An admitted command whose draw is ready and whose body refuses it: the entropy is spent. -/
theorem runCmd_draw_refuses {rank n : Nat} {r : Refused} (h : Admitted c p s) (hd : c.draw p s = some (rank, n))
    (hr : DrawReady c p s (n + c.later p s))
    (hb : c.body (drawnOf p) (takeBlocks s p.ctx (n + c.later p s)) = .error r) :
    runCmd c p s = .next (refuse (c.spent (drawnOf p) (takeBlocks s p.ctx (n + c.later p s))) (drawnOf p) r) := by
  rw [runCmd, dispatch_of_admitted h, start_of_draw hd hr, runBody_refused hb]

/-- A command that is not admitted for its checks is refused: it has no effect but its reply (R32, R39), and the end of
the key pair for a SESSION_OPEN (R372). -/
theorem runCmd_refused {r : Refused} (h : served c p s = true) (hc : checks c p s = .error r) :
    runCmd c p s = .next (refuse (c.spent p s) p r) := by
  rw [runCmd, dispatch_of_served h, perform, hc]

end Sys2Proof.Machine
end

