-- ==== Sys2Proof/Laws/Effects.lean ====
section
/-! SUPPORT. What each operation of the model does to the parts of the state (`Eff`): it leaves the queue of commands,
keeps the shape of the module, lowers neither the roll-back counter nor the life-cycle rank, and changes only the parts
listed. This file: `Eff` itself, the canonical forms of memories, and the rules that compose effects. -/

set_option autoImplicit false
set_option Elab.async false
set_option linter.unusedTactic false
set_option linter.unreachableTactic false
set_option linter.unusedSimpArgs false

namespace Sys2Proof.Machine

/-! ### Effects -/

/-- What is known of one operation: it leaves the queue of commands, keeps the shape of the module, never lowers
the roll-back version nor the life-cycle rank, and changes no part but those listed. -/
structure Eff (but : List Part) (s t : State) : Prop where
  pending : t.pending = s.pending
  shape : ShapeOk s → ShapeOk t
  rollback : s.fw.rollback ≤ t.fw.rollback
  life : lifeRank s.fw.lc ≤ lifeRank t.fw.lc
  unchanged : Unchanged but s t

theorem Part.same_refl (s : State) (k : Part) : Part.same s s k := by
  cases k <;> first | rfl | exact ⟨rfl, rfl⟩ | exact ⟨rfl, rfl, rfl⟩ | exact ⟨rfl, rfl, rfl, rfl⟩

theorem Part.same_trans {s t u : State} {k : Part} (h : Part.same s t k) (g : Part.same t u k) : Part.same s u k := by
  cases k
  case rootStore => exact ⟨g.1.trans h.1, g.2.1.trans h.2.1, g.2.2.1.trans h.2.2.1, g.2.2.2.trans h.2.2.2⟩
  case windows => exact ⟨g.1.trans h.1, g.2.1.trans h.2.1, g.2.2.trans h.2.2⟩
  case vectors => exact ⟨g.1.trans h.1, g.2.trans h.2⟩
  case casks => exact ⟨g.1.trans h.1, g.2.trans h.2⟩
  case conns => exact ⟨g.1.trans h.1, g.2.trans h.2⟩
  all_goals exact Eq.trans g h

theorem Eff.refl (but : List Part) (s : State) : Eff but s s :=
  ⟨rfl, id, Nat.le_refl _, Nat.le_refl _, fun k _ => Part.same_refl s k⟩

theorem Eff.step {a b : List Part} {s t u : State} (h : Eff b s t) (g : Eff a t u) (hab : a.all b.contains = true) :
    Eff b s u where
  pending := g.pending.trans h.pending
  shape x := g.shape (h.shape x)
  rollback := Nat.le_trans h.rollback g.rollback
  life := Nat.le_trans h.life g.life
  unchanged k hk := Part.same_trans (h.unchanged k hk) (g.unchanged k (fun hm => hk (by
    simpa using List.all_eq_true.mp hab k hm)))

theorem Eff.weaken {a b : List Part} {s t : State} (g : Eff a s t) (hab : a.all b.contains = true) : Eff b s t :=
  (Eff.refl b s).step g hab

theorem Eff.foldl {α : Type} {b : List Part} {s t : State} {l : List α} {f : State → α → State} (h : Eff b s t)
    (hf : ∀ s x, Eff b s (f s x)) : Eff b s (l.foldl f t) := by
  induction l generalizing t with
  | nil => exact h
  | cons x l ih => exact ih (h.step (hf t x) (by simp))

/-! ### Lists -/

theorem length_setAt {α : Type} (l : List α) (n : Nat) (f : α → α) : (setAt l n f).length = l.length := by
  induction l generalizing n with
  | nil => rfl
  | cons x l ih => cases n <;> simp [setAt, ih]

theorem length_mapIf {α : Type} (sel : α → Bool) (f : α → α) (l : List α) : (mapIf sel f l).length = l.length := by
  simp [mapIf]

/-! ### Canonical forms (State.lean) -/

section Cells
variable {α : Type} [DecidableEq α] {d : α}

theorem cellWfFrom_weaken {m : List (Nat × α)} {lo lo' : Nat} (h : lo' ≤ lo) (hm : cellWfFrom d lo m = true) :
    cellWfFrom d lo' m = true := by
  cases m with
  | nil => rfl
  | cons e m =>
    simp only [cellWfFrom, Bool.and_eq_true, decide_eq_true_eq] at hm ⊢
    exact ⟨⟨Nat.le_trans h hm.1.1, hm.1.2⟩, hm.2⟩

theorem cellWfFrom_cellSet (m : List (Nat × α)) (lo a : Nat) (x : α) (h : cellWfFrom d lo m = true) (ha : lo ≤ a) :
    cellWfFrom d lo (cellSet d m a x) = true := by
  induction m generalizing lo with
  | nil => by_cases hx : x = d <;> simp [cellSet, cellWfFrom, hx, ha]
  | cons e m ih =>
    obtain ⟨k, v⟩ := e
    simp only [cellWfFrom, Bool.and_eq_true, decide_eq_true_eq] at h
    unfold cellSet
    split
    · next hlt =>
      split
      · simpa [cellWfFrom] using h
      · next hx => simp [cellWfFrom, ha, hx, h.1.2, h.2]; omega
    · next hlt =>
      split
      · next he =>
        split
        · exact cellWfFrom_weaken (by omega) h.2
        · next hx => subst he; simp [cellWfFrom, ha, hx, h.2]
      · next hne =>
        simp only [cellWfFrom, Bool.and_eq_true, decide_eq_true_eq]
        exact ⟨h.1, ih (k + 1) h.2 (by omega)⟩

theorem cellWfFrom_filter (m : List (Nat × α)) (lo : Nat) (f : Nat × α → Bool) (h : cellWfFrom d lo m = true) :
    cellWfFrom d lo (m.filter f) = true := by
  induction m generalizing lo with
  | nil => rfl
  | cons e m ih =>
    simp only [cellWfFrom, Bool.and_eq_true, decide_eq_true_eq] at h
    simp only [List.filter_cons]
    split
    · simp only [cellWfFrom, Bool.and_eq_true, decide_eq_true_eq]; exact ⟨h.1, ih _ h.2⟩
    · exact cellWfFrom_weaken (by omega) (ih _ h.2)

theorem cellGet_below {m : List (Nat × α)} {lo a : Nat} (h : cellWfFrom d lo m = true) (ha : a < lo) : cellGet d m a = d := by
  cases m with
  | nil => rfl
  | cons e m =>
    simp only [cellWfFrom, Bool.and_eq_true, decide_eq_true_eq] at h
    have h1 : ¬ a = e.1 := by omega
    have h2 : a < e.1 := by omega
    simp [cellGet, h1, h2]

/-- A read after a write gives the value written, at its key, and what was there, elsewhere. -/
theorem cellGet_cellSet (m : List (Nat × α)) (lo a b : Nat) (x : α) (h : cellWfFrom d lo m = true) :
    cellGet d (cellSet d m a x) b = if b = a then x else cellGet d m b := by
  induction m generalizing lo with
  | nil =>
    by_cases hx : x = d
    · by_cases hb : b = a <;> simp [cellSet, cellGet, hx]
    · by_cases hb : b = a
      · simp [cellSet, cellGet, hx, hb]
      · simp [cellSet, cellGet, hx, hb]
  | cons e m ih =>
    obtain ⟨k, v⟩ := e
    simp only [cellWfFrom, Bool.and_eq_true, decide_eq_true_eq] at h
    unfold cellSet
    split
    · next hlt =>
      split
      · next hx =>
        split
        · next hb =>
          subst hb
          have h1 : ¬ b = k := by omega
          simp [cellGet, h1, hlt, hx]
        · rfl
      · by_cases hb : b = a
        · simp [cellGet, hb]
        · by_cases hba : b < a
          · have h1 : ¬ b = k := by omega
            have h2 : b < k := by omega
            simp [cellGet, hb, hba, h1, h2]
          · simp [cellGet, hb, hba]
    · next hlt =>
      split
      · next he =>
        subst he
        split
        · next hx =>
          by_cases hb : b = a
          · subst hb; simp only [if_true]; rw [hx]; exact cellGet_below h.2 (by omega)
          · by_cases hba : b < a
            · simp only [cellGet, hb, hba, if_true, if_false]; exact cellGet_below h.2 (by omega)
            · simp [cellGet, hb, hba]
        · by_cases hb : b = a
          · simp [cellGet, hb]
          · by_cases hba : b < a <;> simp [cellGet, hb, hba]
      · next hne =>
        simp only [cellGet]
        by_cases hb : b = k
        · have : ¬ b = a := by omega
          simp [hb]; intro hh; omega
        · by_cases hbk : b < k
          · have : ¬ b = a := by omega
            simp [hb, hbk, this]
          · simp only [hb, hbk, if_false]
            exact ih (k + 1) h.2

end Cells

theorem wf_write {m : List (Nat × Byte)} (h : Memory.wf m = true) (a : Nat) (b : Byte) : Memory.wf (Memory.write m a b) = true :=
  cellWfFrom_cellSet m 0 a b h (Nat.zero_le a)

theorem wf_writeN {m : List (Nat × Byte)} (h : Memory.wf m = true) (a : Nat) (bs : List Byte) :
    Memory.wf (Memory.writeN m a bs) = true := by
  induction bs generalizing m a with
  | nil => exact h
  | cons b bs ih => exact ih (wf_write h a b) (a + 1)

theorem wf_clear {m : List (Nat × Byte)} (h : Memory.wf m = true) (a n : Nat) : Memory.wf (Memory.clear m a n) = true :=
  cellWfFrom_filter m 0 _ h

theorem wf_set {m : List (Nat × Nat)} (h : Sparse.wf m = true) (a v : Nat) : Sparse.wf (Sparse.set m a v) = true :=
  cellWfFrom_cellSet m 0 a v h (Nat.zero_le a)

theorem read_write {m : List (Nat × Byte)} (h : Memory.wf m = true) (a x : Nat) (b : Byte) :
    Memory.read (Memory.write m a b) x = if x = a then b else Memory.read m x :=
  cellGet_cellSet m 0 a x b h

theorem Eff.foldl_snd {α β : Type} {b : List Part} {l : List α} {f : β × State → α → β × State} {s : State}
    {acc : β × State} (h : Eff b s acc.2) (hf : ∀ acc x, Eff b acc.2 (f acc x).2) : Eff b s (l.foldl f acc).2 := by
  induction l generalizing acc with
  | nil => exact h
  | cons x l ih => exact ih (h.step (hf acc x) (by simp))

theorem Eff.foldl_fst {α β : Type} {b : List Part} {l : List α} {f : State × β → α → State × β} {s : State}
    {acc : State × β} (h : Eff b s acc.1) (hf : ∀ acc x, Eff b acc.1 (f acc x).1) : Eff b s (l.foldl f acc).1 := by
  induction l generalizing acc with
  | nil => exact h
  | cons x l ih => exact ih (h.step (hf acc x) (by simp))

theorem Eff.mapGetD {α : Type} {b : List Part} {s t : State} {o : Option α} {f : α → State} (h : Eff b s t)
    (hf : ∀ k, Eff b t (f k)) : Eff b s ((o.map f).getD t) := by
  cases o with
  | none => exact h
  | some k => exact h.step (hf k) (by simp)

theorem ok_fst {ε α β : Type} {a a' : α} {b b' : β} (h : (Except.ok (a, b) : Except ε (α × β)) = .ok (a', b')) :
    a = a' := by
  cases h
  rfl

theorem of_bind_ok {ε α β : Type} {x : Except ε α} {f : α → Except ε β} {r : β} (h : (x >>= f) = .ok r) :
    ∃ a, x = .ok a ∧ f a = .ok r := by
  cases x with
  | error e => cases h
  | ok a => exact ⟨a, rfl, h⟩

/-! ### Updates of fields -/

/-- A firmware that lowers neither the roll-back version nor the life-cycle rank and keeps its images canonical. -/
def FwKeeps (f g : Firmware) : Prop :=
  f.rollback ≤ g.rollback ∧ lifeRank f.lc ≤ lifeRank g.lc ∧ (fwWf f = true → fwWf g = true)

/-- An update of any fields but the queue of commands. -/
theorem Eff.of_rec {b : List Part} {s0 s : State} {clock : Clock} {cm : Cm} {cal : Calendar} {pwr : Power}
    {host : HostPort} {side : SidebandSt} {net : Net} {ent : Entropy} {keys : Keys} {fw : Firmware} {int : Integrity}
    {gloves : List Glove} {queues : List Queue} {staged : List Packet} {outstanding : List Outstanding}
    {windows revokedWins : List Window} {gens : Sparse} {conns : List Conn} {incs : Sparse} {casks : List Cask}
    {spill : List (List SpillLine)} {vintages : List Vintage} {free : Nat} (h : Eff b s0 s)
    (h1 : clock = s.clock ∨ b.contains .clock = true) (h2 : cm = s.cm ∨ b.contains .cm = true)
    (h3 : cal = s.cal ∨ b.contains .cal = true) (h4 : pwr = s.pwr ∨ b.contains .pwr = true)
    (h5 : host.mem = s.host.mem ∨ (b.contains .hostMem = true ∧ (Memory.wf s.host.mem = true → Memory.wf host.mem = true)))
    (h6 : host.vectors = s.host.vectors ∨ b.contains .vectors = true)
    (h6r : host.rings = s.host.rings ∨ (b.contains .vectors = true ∧ (Sparse.wf s.host.rings = true → Sparse.wf host.rings = true)))
    (h7 : { host with mem := [], vectors := [], rings := [] } = { s.host with mem := [], vectors := [], rings := [] } ∨
      b.contains .hostPort = true)
    (h8 : side = s.side ∨ b.contains .side = true)
    (h9 : net.ports.map (fun r => { r with inject := {} }) = s.net.ports.map (fun r => { r with inject := {} }) ∨
      b.contains .ports = true)
    (h10 : net.ports.map (fun r => r.inject) = s.net.ports.map (fun r => r.inject) ∨ b.contains .inject = true)
    (h11 : net.ports.length = s.net.ports.length)
    (h12 : net.trellis = s.net.trellis ∨ b.contains .trellis = true)
    (h13 : { net with ports := [], trellis := {} } = { s.net with ports := [], trellis := {} } ∨ b.contains .wire = true)
    (h14 : ent = s.ent ∨ (b.contains .ent = true ∧ ent.sources.length = s.ent.sources.length))
    (h15 : (keys.roots = s.keys.roots ∧ keys.tenantRoot = s.keys.tenantRoot ∧ keys.zeroized = s.keys.zeroized ∧
      keys.tamper = s.keys.tamper) ∨ b.contains .rootStore = true)
    (h16 : { keys with roots := [], tenantRoot := none, zeroized := false, tamper := 0 } =
      { s.keys with roots := [], tenantRoot := none, zeroized := false, tamper := 0 } ∨ b.contains .keySlots = true)
    (h17 : fw = s.fw ∨ (b.contains .fw = true ∧ FwKeeps s.fw fw))
    (h18 : int = s.int ∨ (b.contains .int = true ∧ int.vats.length = s.int.vats.length))
    (h19 : gloves.map (fun x => { x with session := {} }) = s.gloves.map (fun x => { x with session := {} }) ∨
      b.contains .gloves = true)
    (h20 : gloves.map (fun x => x.session) = s.gloves.map (fun x => x.session) ∨ b.contains .sessions = true)
    (h21 : gloves.length = s.gloves.length)
    (h22 : queues = s.queues ∨ b.contains .queues = true) (h23 : staged = s.staged ∨ b.contains .staged = true)
    (h24 : outstanding = s.outstanding ∨ b.contains .outstanding = true)
    (h25 : windows = s.windows ∨ b.contains .windows = true)
    (h25r : revokedWins = s.revokedWins ∨ b.contains .windows = true)
    (h26 : gens = s.gens ∨ (b.contains .windows = true ∧ (Sparse.wf s.gens = true → Sparse.wf gens = true)))
    (h27 : conns = s.conns ∨ b.contains .conns = true)
    (h28 : incs = s.incs ∨ (b.contains .conns = true ∧ (Sparse.wf s.incs = true → Sparse.wf incs = true)))
    (h29 : casks = s.casks ∨ (b.contains .casks = true ∧ (s.casks.all caskWf = true → casks.all caskWf = true)))
    (h29s : spill = s.spill ∨ (b.contains .casks = true ∧ spill.length = s.spill.length))
    (h30 : vintages = s.vintages ∨ b.contains .vintages = true) (h31 : free = s.free ∨ b.contains .free = true) :
    Eff b s0 { pending := s.pending, clock := clock, cm := cm, cal := cal, pwr := pwr, host := host, side := side
               net := net, ent := ent, keys := keys, fw := fw, int := int, gloves := gloves, queues := queues
               staged := staged, outstanding := outstanding, windows := windows, revokedWins := revokedWins, gens := gens
               conns := conns, incs := incs, casks := casks, spill := spill, vintages := vintages, free := free } := by
  refine h.step (a := b) ⟨rfl, fun x => ShapeOk.mk ?_ ?_ ?_ ?_ ?_ ?_ ?_ ?_ ?_ ?_ ?_, ?_, ?_, fun k hk => ?_⟩ (by simp)
  · exact h21.trans x.gloves
  · rcases h18 with h | h
    · rw [h]; exact x.vats
    · exact h.2.trans x.vats
  · exact h11.trans x.ports
  · rcases h14 with h | h
    · rw [h]; exact x.sources
    · exact h.2.trans x.sources
  · rcases h5 with h | h
    · show Memory.wf host.mem = true; rw [h]; exact x.host
    · exact h.2 x.host
  · rcases h6r with h | h
    · show Sparse.wf host.rings = true; rw [h]; exact x.rings
    · exact h.2 x.rings
  · rcases h26 with h | h
    · show Sparse.wf gens = true; rw [h]; exact x.gens
    · exact h.2 x.gens
  · rcases h28 with h | h
    · show Sparse.wf incs = true; rw [h]; exact x.incs
    · exact h.2 x.incs
  · rcases h29 with h | h
    · show casks.all caskWf = true; rw [h]; exact x.casks
    · exact h.2 x.casks
  · rcases h29s with h | h
    · rw [h]; exact x.spill
    · exact h.2.trans x.spill
  · rcases h17 with h | h
    · rw [h]; exact x.images
    · exact h.2.2.2 x.images
  · rcases h17 with h | h
    · rw [h] <;> exact Nat.le_refl _
    · exact h.2.1
  · rcases h17 with h | h
    · rw [h] <;> exact Nat.le_refl _
    · exact h.2.2.1
  · have no : ∀ {p : Part}, b.contains p = true → p ∈ b := fun h => by simpa using h
    cases k
    case clock => exact h1.resolve_right (fun h => hk (no h))
    case cm => exact h2.resolve_right (fun h => hk (no h))
    case cal => exact h3.resolve_right (fun h => hk (no h))
    case pwr => exact h4.resolve_right (fun h => hk (no h))
    case hostMem => exact h5.resolve_right (fun h => hk (no h.1))
    case vectors => exact ⟨h6.resolve_right (fun h => hk (no h)), h6r.resolve_right (fun h => hk (no h.1))⟩
    case hostPort => exact h7.resolve_right (fun h => hk (no h))
    case side => exact h8.resolve_right (fun h => hk (no h))
    case ports => exact h9.resolve_right (fun h => hk (no h))
    case inject => exact h10.resolve_right (fun h => hk (no h))
    case trellis => exact h12.resolve_right (fun h => hk (no h))
    case wire => exact h13.resolve_right (fun h => hk (no h))
    case ent => exact h14.resolve_right (fun h => hk (no h.1))
    case rootStore => exact h15.resolve_right (fun h => hk (no h))
    case keySlots => exact h16.resolve_right (fun h => hk (no h))
    case fw => exact h17.resolve_right (fun h => hk (no h.1))
    case int => exact h18.resolve_right (fun h => hk (no h.1))
    case gloves => exact h19.resolve_right (fun h => hk (no h))
    case sessions => exact h20.resolve_right (fun h => hk (no h))
    case queues => exact h22.resolve_right (fun h => hk (no h))
    case staged => exact h23.resolve_right (fun h => hk (no h))
    case outstanding => exact h24.resolve_right (fun h => hk (no h))
    case windows => exact ⟨h25.resolve_right (fun h => hk (no h)), h25r.resolve_right (fun h => hk (no h)), h26.resolve_right (fun h => hk (no h.1))⟩
    case conns => exact ⟨h27.resolve_right (fun h => hk (no h)), h28.resolve_right (fun h => hk (no h.1))⟩
    case casks => exact ⟨h29.resolve_right (fun h => hk (no h.1)), h29s.resolve_right (fun h => hk (no h.1))⟩
    case vintages => exact h30.resolve_right (fun h => hk (no h))
    case free => exact h31.resolve_right (fun h => hk (no h))

theorem map_setAt {α β : Type} (π : α → β) (l : List α) (n : Nat) (f : α → α) (h : ∀ x, π (f x) = π x) :
    (setAt l n f).map π = l.map π := by
  induction l generalizing n with
  | nil => rfl
  | cons x l ih => cases n <;> simp [setAt, ih, h]

theorem map_map_keep {α β : Type} {π : α → β} {l : List α} {f : α → α} (h : ∀ x, π (f x) = π x) :
    (l.map f).map π = l.map π := by
  rw [List.map_map]
  exact List.map_congr_left (fun x _ => h x)

/-! ### Results in pairs -/

theorem Eff.fst_of {α : Type} {b : List Part} {s t : State} {x : α} {p : State × α} (h : p = (t, x)) (g : Eff b s p.1) :
    Eff b s t := by rw [h] at g; exact g

theorem Eff.snd_of {α : Type} {b : List Part} {s t : State} {x : α} {p : α × State} (h : p = (x, t)) (g : Eff b s p.2) :
    Eff b s t := by rw [h] at g; exact g

theorem setGlove_eff (s : State) (g : Nat) (f : Glove → Glove) : Eff [.gloves, .sessions] s (setGlove s g f) := by
  unfold setGlove
  apply Eff.of_rec (Eff.refl _ _)
  all_goals first | rfl | exact .inl rfl | exact .inr rfl | exact length_setAt _ _ _ | exact .inl ⟨rfl, rfl, rfl, rfl⟩

theorem setGlove_eff_g (s : State) (g : Nat) (f : Glove → Glove) (h : ∀ x, (f x).session = x.session) :
    Eff [.gloves] s (setGlove s g f) := by
  unfold setGlove
  apply Eff.of_rec (Eff.refl _ _)
  all_goals first | rfl | exact .inl (map_setAt _ _ _ _ h) | exact .inl rfl | exact .inr rfl | exact length_setAt _ _ _ | exact .inl ⟨rfl, rfl, rfl, rfl⟩

theorem setGlove_eff_s (s : State) (g : Nat) (f : Glove → Glove)
    (h : ∀ x : Glove, { f x with session := {} } = { x with session := {} }) : Eff [.sessions] s (setGlove s g f) := by
  unfold setGlove
  apply Eff.of_rec (Eff.refl _ _)
  all_goals first | rfl | exact .inl (map_setAt _ _ _ _ h) | exact .inl rfl | exact .inr rfl | exact length_setAt _ _ _ | exact .inl ⟨rfl, rfl, rfl, rfl⟩

theorem setPort_eff (s : State) (g : Nat) (f : PortRegs → PortRegs) : Eff [.ports, .inject] s (setPort s g f) := by
  unfold setPort
  apply Eff.of_rec (Eff.refl _ _)
  all_goals first | rfl | exact .inl rfl | exact .inr rfl | exact length_setAt _ _ _ | exact .inl ⟨rfl, rfl, rfl, rfl⟩

theorem setPort_eff_p (s : State) (g : Nat) (f : PortRegs → PortRegs) (h : ∀ x, (f x).inject = x.inject) :
    Eff [.ports] s (setPort s g f) := by
  unfold setPort
  apply Eff.of_rec (Eff.refl _ _)
  all_goals first | rfl | exact .inl (map_setAt _ _ _ _ h) | exact .inl rfl | exact .inr rfl | exact length_setAt _ _ _ | exact .inl ⟨rfl, rfl, rfl, rfl⟩

theorem setPort_eff_i (s : State) (g : Nat) (f : PortRegs → PortRegs)
    (h : ∀ x : PortRegs, { f x with inject := {} } = { x with inject := {} }) : Eff [.inject] s (setPort s g f) := by
  unfold setPort
  apply Eff.of_rec (Eff.refl _ _)
  all_goals first | rfl | exact .inl (map_setAt _ _ _ _ h) | exact .inl rfl | exact .inr rfl | exact length_setAt _ _ _ | exact .inl ⟨rfl, rfl, rfl, rfl⟩

theorem all_mapIf {sel : Cask → Bool} {f : Cask → Cask} {l : List Cask} (hf : ∀ x, caskWf x = true → caskWf (f x) = true)
    (h : l.all caskWf = true) : (mapIf sel f l).all caskWf = true := by
  rw [List.all_eq_true] at *
  intro x hx
  obtain ⟨y, hy, rfl⟩ := List.mem_map.mp hx
  split
  · exact hf y (h y hy)
  · exact h y hy

theorem setCask_eff (s : State) (g c : Nat) (f : Cask → Cask) (hf : ∀ x, caskWf x = true → caskWf (f x) = true) :
    Eff [.casks] s (setCask s g c f) := by
  unfold setCask
  apply Eff.of_rec (Eff.refl _ _)
  all_goals first | rfl | exact .inl rfl | exact .inr rfl | exact .inr ⟨rfl, all_mapIf hf⟩ | exact .inl ⟨rfl, rfl, rfl, rfl⟩

theorem setCask_eff_s (s : State) (g c : Nat) (f : Cask → Cask)
    (hf : ShapeOk s → ∀ x, caskWf x = true → caskWf (f x) = true) : Eff [.casks] s (setCask s g c f) where
  pending := rfl
  shape h := (setCask_eff s g c f (hf h)).shape h
  rollback := Nat.le_refl _
  life := Nat.le_refl _
  unchanged := by
    unfold setCask
    intro k hk
    cases k <;> first | rfl | exact ⟨rfl, rfl⟩ | exact ⟨rfl, rfl, rfl⟩ | exact ⟨rfl, rfl, rfl, rfl⟩ | exact absurd (by decide) hk

/-- A Cask update whose new Cask is canonical because of the shape of an earlier state. -/
theorem Eff.cask {b : List Part} {s0 s : State} (h0 : Eff b s0 s) {g c : Nat} {f : Cask → Cask}
    (hf : ShapeOk s0 → ∀ x, caskWf x = true → caskWf (f x) = true) (hb : [Part.casks].all b.contains = true) :
    Eff b s0 (setCask s g c f) where
  pending := h0.pending
  shape h := (setCask_eff s g c f (hf h)).shape (h0.shape h)
  rollback := h0.rollback
  life := h0.life
  unchanged k hk := Part.same_trans (h0.unchanged k hk) (by
    have hk' : k ≠ Part.casks := fun e => hk (by subst e; simpa using hb)
    unfold setCask
    cases k <;> first | rfl | exact ⟨rfl, rfl⟩ | exact ⟨rfl, rfl, rfl⟩ | exact ⟨rfl, rfl, rfl, rfl⟩ | exact absurd rfl hk')

theorem caskOf_wf {s : State} {g c : Nat} {k : Cask} (h : ShapeOk s) (hk : caskOf s g c = some k) : caskWf k = true :=
  List.all_eq_true.mp h.casks k (List.mem_of_find?_eq_some hk)

theorem caskWf_iff (c : Cask) : caskWf c = true ↔ Memory.wf c.data = true ∧
    (∀ x, c.verified = some x → Memory.wf x.image = true) ∧ (∀ x, c.inProgress = some x → Memory.wf x.image = true) := by
  unfold caskWf
  cases c.verified <;> cases c.inProgress <;> simp [and_assoc]

/-- A Cask with the data and the checkpoints of a canonical one is canonical. -/
theorem caskWf_of {c c' : Cask} (h : caskWf c = true) (hd : c'.data = c.data) (hv : c'.verified = c.verified)
    (hi : c'.inProgress = c.inProgress) : caskWf c' = true := by
  rw [caskWf_iff] at *
  rw [hd, hv, hi]
  exact h

theorem all_filter {α : Type} {p q : α → Bool} {l : List α} (h : l.all p = true) : (l.filter q).all p = true := by
  rw [List.all_eq_true] at *
  exact fun x hx => h x (List.mem_filter.mp hx).1

theorem all_snoc {α : Type} {p : α → Bool} {l : List α} {x : α} (h : l.all p = true) (hx : p x = true) :
    (l ++ [x]).all p = true := by
  rw [List.all_append, h]
  simpa using hx

/-! ### Operations on one Cask -/

theorem caskWf_data {c : Cask} {m : Mem} (h : caskWf c = true) (hm : Memory.wf m = true) :
    caskWf { c with data := m } = true :=
  (caskWf_iff _).mpr ⟨hm, ((caskWf_iff c).mp h).2⟩

theorem caskWf_writeN {c : Cask} (h : caskWf c = true) (a : Nat) (l : List Byte) :
    caskWf { c with data := Memory.writeN c.data a l } = true :=
  caskWf_data h (wf_writeN ((caskWf_iff c).mp h).1 _ _)

theorem caskWf_foldl {α : Type} {f : Cask → α → Cask} (hf : ∀ c x, caskWf c = true → caskWf (f c x) = true)
    (l : List α) {c : Cask} (h : caskWf c = true) : caskWf (l.foldl f c) = true := by
  induction l generalizing c with
  | nil => exact h
  | cons x l ih => exact ih (hf c x h)

end Sys2Proof.Machine
end

