-- ==== Sys2Proof/Laws/EffectsOps.lean ====
section
/-! SUPPORT. The effect of each operation of the shared operations, phase time and the objects of a Glove:
the parts of the state it may change (`Eff`, Laws/Effects.lean). -/

set_option autoImplicit false
set_option linter.unusedTactic false
set_option linter.unreachableTactic false
set_option linter.unusedSimpArgs false
set_option Elab.async false

namespace Sys2Proof.Machine

/-! ### Machine/Base.lean -/

theorem setQueue_eff (s : State) (q : Nat) (f : Queue → Queue) : Eff [.queues] s (setQueue s q f) := by
  unfold setQueue
  repeat' (first
    | (with_reducible exact Eff.refl _ _)
    | dsimp only
    | (with_reducible apply Eff.of_rec (s := _))
    | (with_reducible exact .inl rfl)
    | exact .inr rfl
    | (with_reducible exact .inl ⟨rfl, rfl, rfl, rfl⟩))

theorem setConn_eff (s : State) (c : Nat) (f : Conn → Conn) : Eff [.conns] s (setConn s c f) := by
  unfold setConn
  repeat' (first
    | (with_reducible exact Eff.refl _ _)
    | dsimp only
    | (with_reducible apply Eff.of_rec (s := _))
    | (with_reducible exact .inl rfl)
    | exact .inr rfl
    | (with_reducible exact .inl ⟨rfl, rfl, rfl, rfl⟩))

theorem setWindow_eff (s : State) (i : Nat) (f : Window → Window) : Eff [.windows] s (setWindow s i f) := by
  unfold setWindow
  repeat' (first
    | (with_reducible exact Eff.refl _ _)
    | dsimp only
    | (with_reducible apply Eff.of_rec (s := _))
    | (with_reducible exact .inl rfl)
    | exact .inr rfl
    | (with_reducible exact .inl ⟨rfl, rfl, rfl, rfl⟩))

theorem setVintage_eff (s : State) (g v : Nat) (f : Vintage → Vintage) : Eff [.vintages] s (setVintage s g v f) := by
  unfold setVintage
  repeat' (first
    | (with_reducible exact Eff.refl _ _)
    | dsimp only
    | (with_reducible apply Eff.of_rec (s := _))
    | (with_reducible exact .inl rfl)
    | exact .inr rfl
    | (with_reducible exact .inl ⟨rfl, rfl, rfl, rfl⟩))

theorem setKeySlot_eff (s : State) (k : Nat) (f : KeySlot → KeySlot) : Eff [.keySlots] s (setKeySlot s k f) := by
  unfold setKeySlot
  repeat' (first
    | (with_reducible assumption)
    | (with_reducible exact Eff.refl _ _)
    | (with_reducible apply Eff.of_rec (s := _))
    | (with_reducible exact .inl rfl)
    | (with_reducible rfl)
    | exact .inr rfl
    | (with_reducible exact .inl ⟨rfl, rfl, rfl, rfl⟩)
    | (with_reducible exact .inl (map_map_keep (fun _ => by first | rfl | ((try dsimp only); split <;> rfl))))
    | simp only [List.length_map, length_mapIf, length_setAt]
    | exact .inr ⟨rfl, by first | exact id | simp only [length_setAt, length_mapIf]⟩
    | exact .inr ⟨rfl, fun h => all_filter h⟩
    | exact .inr ⟨rfl, fun h => wf_set h _ _⟩
    | exact .inr ⟨rfl, fun h => wf_writeN h _ _⟩)

theorem drawFree_eff (s : State) : Eff [.free] s (drawFree s).2 := by
  unfold drawFree
  repeat' (first
    | (with_reducible assumption)
    | (with_reducible exact Eff.refl _ _)
    | (with_reducible apply Eff.of_rec (s := _))
    | (with_reducible exact .inl rfl)
    | (with_reducible rfl)
    | exact .inr rfl
    | (with_reducible exact .inl ⟨rfl, rfl, rfl, rfl⟩)
    | (with_reducible exact .inl (map_map_keep (fun _ => by first | rfl | ((try dsimp only); split <;> rfl))))
    | simp only [List.length_map, length_mapIf, length_setAt]
    | exact .inr ⟨rfl, by first | exact id | simp only [length_setAt, length_mapIf]⟩
    | exact .inr ⟨rfl, fun h => all_filter h⟩
    | exact .inr ⟨rfl, fun h => wf_set h _ _⟩
    | exact .inr ⟨rfl, fun h => wf_writeN h _ _⟩)

theorem drawBytes_eff (s : State) (n : Nat) : Eff [.free] s (drawBytes s n).2 := by
  unfold drawBytes
  repeat' (first
    | (with_reducible assumption)
    | (with_reducible exact Eff.refl _ _)
    | (with_reducible apply Eff.of_rec (s := _))
    | (with_reducible exact .inl rfl)
    | (with_reducible rfl)
    | exact .inr rfl
    | (with_reducible exact .inl ⟨rfl, rfl, rfl, rfl⟩)
    | (with_reducible exact .inl (map_map_keep (fun _ => by first | rfl | ((try dsimp only); split <;> rfl))))
    | simp only [List.length_map, length_mapIf, length_setAt]
    | exact .inr ⟨rfl, by first | exact id | simp only [length_setAt, length_mapIf]⟩
    | exact .inr ⟨rfl, fun h => all_filter h⟩
    | exact .inr ⟨rfl, fun h => wf_set h _ _⟩
    | exact .inr ⟨rfl, fun h => wf_writeN h _ _⟩)

theorem bumpVector_eff (s : State) (fn v : Nat) : Eff [.vectors] s (bumpVector s fn v) := by
  unfold bumpVector
  repeat' (first
    | (with_reducible assumption)
    | (with_reducible exact Eff.refl _ _)
    | (with_reducible apply Eff.of_rec (s := _))
    | (with_reducible exact .inl rfl)
    | (with_reducible rfl)
    | exact .inr rfl
    | (with_reducible exact .inl ⟨rfl, rfl, rfl, rfl⟩)
    | (with_reducible exact .inl (map_map_keep (fun _ => by first | rfl | ((try dsimp only); split <;> rfl))))
    | simp only [List.length_map, length_mapIf, length_setAt]
    | exact .inr ⟨rfl, by first | exact id | simp only [length_setAt, length_mapIf]⟩
    | exact .inr ⟨rfl, fun h => all_filter h⟩
    | exact .inr ⟨rfl, fun h => wf_set h _ _⟩
    | exact .inr ⟨rfl, fun h => wf_writeN h _ _⟩)

theorem sealRecord_eff (s : State) (g record : Nat) : Eff [.sessions] s (sealRecord s g record) := by
  unfold sealRecord
  repeat' (first
    | (with_reducible exact Eff.refl _ _)
    | ((with_reducible show Eff _ _ (setGlove ..)); (with_reducible refine Eff.step ?_ (setGlove_eff_s _ _ _ (fun _ => by first | (with_reducible rfl) | ((try dsimp only); split <;> (with_reducible rfl)))) ?hc); case hc => rfl)
    | ((with_reducible show Eff _ _ (setGlove ..)); (with_reducible refine Eff.step ?_ (setGlove_eff_g _ _ _ (fun _ => by first | (with_reducible rfl) | ((try dsimp only); split <;> (with_reducible rfl)))) ?hc); case hc => rfl)
    | ((with_reducible show Eff _ _ (setGlove ..)); (with_reducible refine Eff.step ?_ (setGlove_eff _ _ _) ?hc); case hc => rfl)
    | (with_reducible apply Eff.of_rec (s := _))
    | (with_reducible exact .inl rfl)
    | (with_reducible rfl)
    | exact .inr rfl
    | (with_reducible exact .inl ⟨rfl, rfl, rfl, rfl⟩)
    | (with_reducible exact .inl (map_map_keep (fun _ => by first | rfl | ((try dsimp only); split <;> rfl))))
    | simp only [List.length_map, length_mapIf, length_setAt]
    | exact .inr ⟨rfl, by first | exact id | simp only [length_setAt, length_mapIf]⟩
    | exact .inr ⟨rfl, fun h => all_filter h⟩
    | exact .inr ⟨rfl, fun h => wf_set h _ _⟩
    | exact .inr ⟨rfl, fun h => wf_writeN h _ _⟩)

theorem hostWrite_eff (s : State) (fn addr : Nat) (bs : List Byte) : Eff [.hostMem, .vectors] s (hostWrite s fn addr bs) := by
  unfold hostWrite
  apply Eff.of_rec (s := s) (Eff.refl _ _)
  all_goals first
    | (with_reducible exact .inl rfl)
    | (with_reducible rfl)
    | (with_reducible exact .inl ⟨rfl, rfl, rfl, rfl⟩)
    | exact .inr ⟨rfl, fun h => wf_writeN h _ _⟩
    | exact .inr ⟨rfl, fun h => cellWfFrom_filter _ 0 _ h⟩

theorem wf_setAll {m : List (Nat × Nat)} (l : List (Nat × Byte)) (k : Nat) (h : Sparse.wf m = true) :
    Sparse.wf (l.foldl (fun m x => Sparse.set m (k + x.1) (x.2.toNat + 1)) m) = true := by
  induction l generalizing m with
  | nil => exact h
  | cons x l ih => exact ih (wf_set h _ _)

theorem ringWrite_eff (s : State) (fn addr : Nat) (bs : List Byte) : Eff [.vectors] s (ringWrite s fn addr bs) := by
  unfold ringWrite
  apply Eff.of_rec (s := s) (Eff.refl _ _)
  all_goals first
    | (with_reducible exact .inl rfl)
    | (with_reducible rfl)
    | (with_reducible exact .inl ⟨rfl, rfl, rfl, rfl⟩)
    | exact .inr ⟨rfl, fun h => wf_setAll _ _ h⟩

theorem cuffSealBy_eff {b : List Part} {write : State → Nat → Nat → List Byte → State}
    (hw : ∀ s fn a l, Eff b s (write s fn a l)) (hb : [Part.sessions].all b.contains = true) (s : State) (g j : Nat)
    (plain : List Byte) : Eff b s (cuffSealBy write s g j plain) :=
  (((sealRecord_eff s g j).weaken hb).step (hw _ _ _ _) (by simp)).step (hw _ _ _ _) (by simp)

theorem cuffSeal_eff (s : State) (g j : Nat) (plain : List Byte) : Eff [.hostMem, .vectors, .sessions] s (cuffSeal s g j plain) :=
  cuffSealBy_eff (fun s fn a l => (hostWrite_eff s fn a l).weaken rfl) rfl s g j plain

theorem storeEntry_eff (s : State) (q : Queue) (entry : List Byte) : Eff [.vectors, .sessions, .queues] s (storeEntry s q entry) := by
  unfold storeEntry
  dsimp only
  split
  · exact Eff.refl _ _
  · split
    · exact Eff.step ((setQueue_eff ..).weaken rfl)
        (cuffSealBy_eff (b := [.vectors, .sessions]) (fun s fn a l => (ringWrite_eff s fn a l).weaken rfl) rfl _ _ _ _) rfl
    · exact (ringWrite_eff ..).weaken rfl

theorem pushEntry_eff (s : State) (q : Queue) (entry : List Byte) : Eff [.vectors, .sessions, .queues] s (pushEntry s q entry) := by
  unfold pushEntry
  repeat' (first
    | (with_reducible assumption)
    | (with_reducible exact Eff.refl _ _)
    | ((with_reducible show Eff _ _ (setQueue ..)); (with_reducible refine Eff.step ?_ (setQueue_eff ..) ?hc); case hc => rfl)
    | ((with_reducible show Eff _ _ (storeEntry ..)); (with_reducible refine Eff.step ?_ (storeEntry_eff ..) ?hc); case hc => rfl)
    | ((with_reducible show Eff _ _ (bumpVector ..)); (with_reducible refine Eff.step ?_ (bumpVector_eff ..) ?hc); case hc => rfl)
    | (with_reducible refine Eff.mapGetD ?_ (fun k => ?_))
    | (with_reducible refine Eff.foldl ?_ (fun s x => ?_))
    | dsimp only
    | dsimp only [Option.getD_some, Option.getD_none]
    | split
    | simp only [List.length_map, length_mapIf, length_setAt])

theorem postTo_eff (s : State) (id : Nat) (entry : List Byte) : Eff [.vectors, .sessions, .queues] s (postTo s id entry) := by
  unfold postTo
  repeat' (first
    | (with_reducible exact Eff.refl _ _)
    | ((with_reducible show Eff _ _ (pushEntry ..)); (with_reducible refine Eff.step ?_ (pushEntry_eff ..) ?hc); case hc => rfl)
    | ((with_reducible show Eff _ _ (setQueue ..)); (with_reducible refine Eff.step ?_ (setQueue_eff ..) ?hc); case hc => rfl)
    | split)

theorem postReserved_eff (s : State) (id : Nat) (entry : List Byte) : Eff [.vectors, .sessions, .queues] s (postReserved s id entry) := by
  unfold postReserved
  repeat' (first
    | (with_reducible assumption)
    | (with_reducible exact Eff.refl _ _)
    | ((with_reducible show Eff _ _ (postTo ..)); (with_reducible refine Eff.step ?_ (postTo_eff ..) ?hc); case hc => rfl)
    | ((with_reducible show Eff _ _ (setQueue ..)); (with_reducible refine Eff.step ?_ (setQueue_eff ..) ?hc); case hc => rfl)
    | ((with_reducible show Eff _ _ (pushEntry ..)); (with_reducible refine Eff.step ?_ (pushEntry_eff ..) ?hc); case hc => rfl)
    | (with_reducible refine Eff.mapGetD ?_ (fun k => ?_))
    | (with_reducible refine Eff.foldl ?_ (fun s x => ?_))
    | dsimp only
    | dsimp only [Option.getD_some, Option.getD_none]
    | split
    | simp only [List.length_map, length_mapIf, length_setAt])

theorem drainBacklog_eff (n : Nat) (s : State) (id : Nat) : Eff [.vectors, .sessions, .queues] s (drainBacklog n s id) := by
  induction n generalizing s with
  | zero => exact Eff.refl _ _
  | succ n ih =>
    unfold drainBacklog
    repeat' (first
      | (with_reducible exact Eff.refl _ _)
      | ((with_reducible refine Eff.step ?_ (ih ..) ?hc); case hc => rfl)
      | ((with_reducible refine Eff.step ?_ (pushEntry_eff ..) ?hc); case hc => rfl)
      | ((with_reducible refine Eff.step ?_ (setQueue_eff ..) ?hc); case hc => rfl)
      | split)

theorem unlessStalled_eff {b : List Part} {s0 s t : State} (hs : Eff b s0 s) (ht : Eff b s0 t) : Eff b s0 (unlessStalled s t) := by
  unfold unlessStalled
  split
  · exact hs
  · exact ht

theorem postEvent_eff (s : State) (ctx : Nat) (entry : List Byte) : Eff [.vectors, .sessions, .queues] s (postEvent s ctx entry) := by
  unfold postEvent
  repeat' (first
    | (with_reducible exact Eff.refl _ _)
    | ((with_reducible show Eff _ _ (postTo ..)); (with_reducible refine Eff.step ?_ (postTo_eff ..) ?hc); case hc => rfl)
    | split)

theorem setVat_eff (s : State) (v : Nat) (f : Vat → Vat) : Eff [.int] s (setVat s v f) := by
  unfold setVat
  repeat' (first
    | (with_reducible assumption)
    | (with_reducible exact Eff.refl _ _)
    | (with_reducible apply Eff.of_rec (s := _))
    | (with_reducible exact .inl rfl)
    | (with_reducible rfl)
    | exact .inr rfl
    | (with_reducible exact .inl ⟨rfl, rfl, rfl, rfl⟩)
    | (with_reducible exact .inl (map_map_keep (fun _ => by first | rfl | ((try dsimp only); split <;> rfl))))
    | simp only [List.length_map, length_mapIf, length_setAt]
    | exact .inr ⟨rfl, by first | exact id | simp only [length_setAt, length_mapIf]⟩
    | exact .inr ⟨rfl, fun h => all_filter h⟩
    | exact .inr ⟨rfl, fun h => wf_set h _ _⟩
    | exact .inr ⟨rfl, fun h => wf_writeN h _ _⟩)

theorem addRecord_eff (s : State) (r : Record) : Eff [.vectors, .int, .sessions, .queues] s (addRecord s r) := by
  unfold addRecord
  repeat' (first
    | (with_reducible assumption)
    | (with_reducible exact Eff.refl _ _)
    | ((with_reducible show Eff _ _ (postEvent ..)); (with_reducible refine Eff.step ?_ (postEvent_eff ..) ?hc); case hc => rfl)
    | (with_reducible apply Eff.of_rec (s := _))
    | (with_reducible exact .inl rfl)
    | (with_reducible rfl)
    | exact .inr rfl
    | (with_reducible exact .inl ⟨rfl, rfl, rfl, rfl⟩)
    | (with_reducible exact .inl (map_map_keep (fun _ => by first | rfl | ((try dsimp only); split <;> rfl))))
    | simp only [List.length_map, length_mapIf, length_setAt]
    | exact .inr ⟨rfl, by first | exact id | simp only [length_setAt, length_mapIf]⟩
    | exact .inr ⟨rfl, fun h => all_filter h⟩
    | exact .inr ⟨rfl, fun h => wf_set h _ _⟩
    | exact .inr ⟨rfl, fun h => wf_writeN h _ _⟩)

/-! ### Machine/Net.lean -/

theorem injectPort_eff (s : State) (rx : Bool) (port : Nat) (x : Framed) : Eff [.inject] s (injectPort s rx port x).2 :=
  setPort_eff_i s port _ (fun _ => rfl)

theorem injectAll_eff (s : State) (rx : Bool) (cid port : Nat) (x : Framed) :
    Eff [.inject, .conns] s (injectAll s rx cid port x).2 := by
  unfold injectAll
  refine Eff.foldl_snd ?_ (fun acc q => (injectPort_eff ..).weaken rfl)
  cases h : connOf s cid with
  | none => exact Eff.refl _ _
  | some c => exact (setConn_eff s cid _).weaken rfl

theorem transmit_eff (s : State) (ps : List Framed) : Eff [.wire] s (transmit s ps) := by
  unfold transmit
  repeat' (first
    | (with_reducible assumption)
    | (with_reducible exact Eff.refl _ _)
    | (with_reducible refine Eff.mapGetD ?_ (fun k => ?_))
    | (with_reducible refine Eff.foldl ?_ (fun s x => ?_))
    | dsimp only
    | dsimp only [Option.getD_some, Option.getD_none]
    | split
    | (with_reducible apply Eff.of_rec (s := _))
    | (with_reducible exact .inl rfl)
    | (with_reducible rfl)
    | exact .inr rfl
    | (with_reducible exact .inl ⟨rfl, rfl, rfl, rfl⟩)
    | (with_reducible exact .inl (map_map_keep (fun _ => by first | rfl | ((try dsimp only); split <;> rfl))))
    | simp only [List.length_map, length_mapIf, length_setAt]
    | exact .inr ⟨rfl, by first | exact id | simp only [length_setAt, length_mapIf]⟩
    | exact .inr ⟨rfl, fun h => all_filter h⟩
    | exact .inr ⟨rfl, fun h => wf_set h _ _⟩
    | exact .inr ⟨rfl, fun h => wf_writeN h _ _⟩)

theorem emitRaw_eff (s : State) (op : Nat) (p : WraPacket) : Eff [.inject, .wire] s (emitRaw s op p) := by
  unfold emitRaw
  repeat' (first
    | (with_reducible assumption)
    | (with_reducible exact Eff.refl _ _)
    | ((with_reducible refine Eff.step ?_ (Eff.snd_of (by assumption) (injectPort_eff ..)) ?hc); case hc => rfl)
    | ((with_reducible refine Eff.step ?_ (injectPort_eff ..) ?hc); case hc => rfl)
    | ((with_reducible show Eff _ _ (transmit ..)); (with_reducible refine Eff.step ?_ (transmit_eff ..) ?hc); case hc => rfl)
    | (with_reducible refine Eff.mapGetD ?_ (fun k => ?_))
    | (with_reducible refine Eff.foldl ?_ (fun s x => ?_))
    | dsimp only
    | dsimp only [Option.getD_some, Option.getD_none]
    | split
    | simp only [List.length_map, length_mapIf, length_setAt])



theorem touchConn_eff (s : State) (cid : Nat) : Eff [.conns] s (touchConn s cid) := setConn_eff ..

theorem putOnWire_eff (s : State) (cid op : Nat) (p : WraPacket) : Eff [.inject, .wire, .conns] s (putOnWire s cid op p) := by
  unfold putOnWire
  repeat' (first
    | (with_reducible exact Eff.refl _ _)
    | ((with_reducible show Eff _ _ (transmit ..)); (with_reducible refine Eff.step ?_ (transmit_eff ..) ?hc); case hc => rfl)
    | ((with_reducible show Eff _ _ (setConn ..)); (with_reducible refine Eff.step ?_ (setConn_eff ..) ?hc); case hc => rfl)
    | ((with_reducible show Eff _ _ (touchConn ..)); (with_reducible refine Eff.step ?_ (touchConn_eff ..) ?hc); case hc => rfl)
    | ((with_reducible refine Eff.step ?_ (injectAll_eff ..) ?hc); case hc => rfl)
    | dsimp only
    | split)

theorem sendControl_eff (s : State) (cid op psn : Nat) (ext : List Byte) : Eff [.inject, .wire, .conns] s (sendControl s cid op psn ext) := by
  unfold sendControl
  repeat' (first
    | (with_reducible exact Eff.refl _ _)
    | ((with_reducible show Eff _ _ (putOnWire ..)); (with_reducible refine Eff.step ?_ (putOnWire_eff ..) ?hc); case hc => rfl))

theorem undelivered_eff (s : State) (c : Conn) (t : TxPacket) : Eff [.vectors, .sessions, .queues] s (undelivered s c t) := by
  unfold undelivered
  repeat' (first
    | (with_reducible exact Eff.refl _ _)
    | ((with_reducible show Eff _ _ (postTo ..)); (with_reducible refine Eff.step ?_ (postTo_eff ..) ?hc); case hc => rfl)
    | split)

theorem spillContext_eff (s : State) (c : Conn) : Eff [.vectors, .sessions, .conns] s (spillContext s c) := by
  unfold spillContext
  split
  · dsimp only
    split
    · exact Eff.step ((setConn_eff ..).weaken rfl)
        (cuffSealBy_eff (b := [.vectors, .sessions]) (fun s fn a l => (ringWrite_eff s fn a l).weaken rfl) rfl _ _ _ _) rfl
    · exact (setConn_eff ..).weaken rfl
  · exact (setConn_eff ..).weaken rfl

theorem makeRoom_eff (s : State) (g : Nat) {t : State} (h : makeRoom s g = some t) : Eff [.vectors, .sessions, .conns] s t := by
  unfold makeRoom at h
  split at h
  · cases h; exact Eff.refl _ _
  · cases he : evictable s g with
    | none => rw [he] at h; cases h
    | some c => rw [he] at h; cases h; exact spillContext_eff s c

theorem startFetch_eff (s : State) (cid : Nat) : Eff [.vectors, .sessions, .conns] s (startFetch s cid) := by
  unfold startFetch
  repeat' (first
    | (with_reducible exact Eff.refl _ _)
    | ((with_reducible refine Eff.step ?_ (makeRoom_eff (h := by assumption) ..) ?hc); case hc => rfl)
    | ((with_reducible show Eff _ _ (setConn ..)); (with_reducible refine Eff.step ?_ (setConn_eff ..) ?hc); case hc => rfl)
    | split)

theorem retryFetches_eff (s : State) (g : Nat) : Eff [.vectors, .sessions, .conns] s (retryFetches s g) := by
  unfold retryFetches
  repeat' (first
    | (with_reducible assumption)
    | (with_reducible exact Eff.refl _ _)
    | ((with_reducible show Eff _ _ (startFetch ..)); (with_reducible refine Eff.step ?_ (startFetch_eff ..) ?hc); case hc => rfl)
    | (with_reducible refine Eff.mapGetD ?_ (fun k => ?_))
    | (with_reducible refine Eff.foldl ?_ (fun s x => ?_))
    | dsimp only
    | dsimp only [Option.getD_some, Option.getD_none]
    | split
    | simp only [List.length_map, length_mapIf, length_setAt])

theorem sendOne_eff (cid : Nat) (s : State) (t : TxPacket) : Eff [.inject, .wire, .conns] s (sendOne cid s t) := by
  unfold sendOne
  repeat' (first
    | (with_reducible exact Eff.refl _ _)
    | ((with_reducible show Eff _ _ (setConn ..)); (with_reducible refine Eff.step ?_ (setConn_eff ..) ?hc); case hc => rfl)
    | ((with_reducible show Eff _ _ (putOnWire ..)); (with_reducible refine Eff.step ?_ (putOnWire_eff ..) ?hc); case hc => rfl)
    | dsimp only
    | split)

theorem pump_eff (s : State) (cid : Nat) : Eff [.vectors, .inject, .wire, .sessions, .conns] s (pump s cid) := by
  unfold pump
  repeat' (first
    | (with_reducible exact Eff.refl _ _)
    | ((with_reducible show Eff _ _ (sendOne ..)); (with_reducible refine Eff.step ?_ (sendOne_eff ..) ?hc); case hc => rfl)
    | ((with_reducible show Eff _ _ (setConn ..)); (with_reducible refine Eff.step ?_ (setConn_eff ..) ?hc); case hc => rfl)
    | ((with_reducible show Eff _ _ (startFetch ..)); (with_reducible refine Eff.step ?_ (startFetch_eff ..) ?hc); case hc => rfl)
    | (with_reducible refine Eff.foldl ?_ (fun s x => ?_))
    | split)

theorem submit_eff (s : State) (cid : Nat) (t : TxPacket) : Eff [.vectors, .inject, .wire, .sessions, .queues, .conns] s (submit s cid t) := by
  unfold submit
  repeat' (first
    | (with_reducible exact Eff.refl _ _)
    | ((with_reducible show Eff _ _ (undelivered ..)); (with_reducible refine Eff.step ?_ (undelivered_eff ..) ?hc); case hc => rfl)
    | ((with_reducible show Eff _ _ (pump ..)); (with_reducible refine Eff.step ?_ (pump_eff ..) ?hc); case hc => rfl)
    | ((with_reducible show Eff _ _ (setConn ..)); (with_reducible refine Eff.step ?_ (setConn_eff ..) ?hc); case hc => rfl)
    | split)

theorem sendMessage_eff (s : State) (cid key : Nat) (payload : List Byte) (reply : Option (Nat × Nat × Nat × Nat)) (notice : Option (Nat × Nat)) : Eff [.vectors, .inject, .wire, .sessions, .queues, .conns] s (sendMessage s cid key payload reply notice) := by
  unfold sendMessage
  repeat' (first
    | (with_reducible exact Eff.refl _ _)
    | ((with_reducible show Eff _ _ (setConn ..)); (with_reducible refine Eff.step ?_ (setConn_eff ..) ?hc); case hc => rfl)
    | ((with_reducible show Eff _ _ (submit ..)); (with_reducible refine Eff.step ?_ (submit_eff ..) ?hc); case hc => rfl)
    | split)

theorem postCompletion_eff (s : State) (g wrId status detail op bytes conn : Nat) : Eff [.vectors, .sessions, .queues] s (postCompletion s g wrId status detail op bytes conn) := by
  unfold postCompletion
  repeat' (first
    | (with_reducible exact Eff.refl _ _)
    | ((with_reducible show Eff _ _ (postTo ..)); (with_reducible refine Eff.step ?_ (postTo_eff ..) ?hc); case hc => rfl)
    | split)

theorem completeRequest_eff (s : State) (g queue wrId : Nat) (signal : Bool) (status detail op bytes conn : Nat) : Eff [.vectors, .sessions, .queues] s (completeRequest s g queue wrId signal status detail op bytes conn) := by
  unfold completeRequest
  repeat' (first
    | (with_reducible exact Eff.refl _ _)
    | ((with_reducible show Eff _ _ (setQueue ..)); (with_reducible refine Eff.step ?_ (setQueue_eff ..) ?hc); case hc => rfl)
    | ((with_reducible show Eff _ _ (postCompletion ..)); (with_reducible refine Eff.step ?_ (postCompletion_eff ..) ?hc); case hc => rfl)
    | split)

theorem failSome_eff (s : State) (c : Conn) (st : Status) (sel : Nat → Bool) : Eff [.vectors, .sessions, .queues, .conns] s (failSome s c st sel) := by
  unfold failSome
  repeat' (first
    | (with_reducible assumption)
    | (with_reducible exact Eff.refl _ _)
    | ((with_reducible show Eff _ _ (completeRequest ..)); (with_reducible refine Eff.step ?_ (completeRequest_eff ..) ?hc); case hc => rfl)
    | ((with_reducible show Eff _ _ (setConn ..)); (with_reducible refine Eff.step ?_ (setConn_eff ..) ?hc); case hc => rfl)
    | (with_reducible refine Eff.mapGetD ?_ (fun k => ?_))
    | (with_reducible refine Eff.foldl ?_ (fun s x => ?_))
    | dsimp only
    | dsimp only [Option.getD_some, Option.getD_none]
    | split
    | simp only [List.length_map, length_mapIf, length_setAt])

theorem failRequests_eff (s : State) (c : Conn) (st : Status) : Eff [.vectors, .sessions, .queues, .conns] s (failRequests s c st) := by
  unfold failRequests
  repeat' (first
    | (with_reducible assumption)
    | (with_reducible exact Eff.refl _ _)
    | ((with_reducible show Eff _ _ (failSome ..)); (with_reducible refine Eff.step ?_ (failSome_eff ..) ?hc); case hc => rfl)
    | (with_reducible refine Eff.mapGetD ?_ (fun k => ?_))
    | (with_reducible refine Eff.foldl ?_ (fun s x => ?_))
    | dsimp only
    | dsimp only [Option.getD_some, Option.getD_none]
    | split
    | simp only [List.length_map, length_mapIf, length_setAt])

theorem undeliverAll_eff (s : State) (c : Conn) : Eff [.vectors, .sessions, .queues, .conns] s (undeliverAll s c) := by
  unfold undeliverAll
  repeat' (first
    | (with_reducible exact Eff.refl _ _)
    | ((with_reducible show Eff _ _ (undelivered ..)); (with_reducible refine Eff.step ?_ (undelivered_eff ..) ?hc); case hc => rfl)
    | ((with_reducible show Eff _ _ (setConn ..)); (with_reducible refine Eff.step ?_ (setConn_eff ..) ?hc); case hc => rfl)
    | (with_reducible refine Eff.foldl ?_ (fun s x => ?_)))

/-! ### Machine/Ops.lean -/

theorem deliverBy_eff {post : State → Nat → List Byte → State}
    (hp : ∀ s q e, Eff [.vectors, .sessions, .queues] s (post s q e)) (s : State) (p : Packet) (a : Answer) :
    Eff [.vectors, .side, .inject, .wire, .sessions, .queues, .conns] s (deliverBy post s p a) := by
  unfold deliverBy
  dsimp only
  split
  · apply Eff.of_rec (s := s) (Eff.refl _ _)
    all_goals first | (with_reducible exact .inl rfl) | (with_reducible rfl) | exact .inr rfl | (with_reducible exact .inl ⟨rfl, rfl, rfl, rfl⟩)
  · split
    · exact Eff.refl _ _
    · split
      · exact (sendMessage_eff ..).weaken rfl
      · exact (hp ..).weaken rfl

theorem releaseSend_eff (s : State) (p : Packet) : Eff [.queues] s (releaseSend s p) := by
  unfold releaseSend
  repeat' (first
    | (with_reducible assumption)
    | (with_reducible exact Eff.refl _ _)
    | ((with_reducible show Eff _ _ (setQueue ..)); (with_reducible refine Eff.step ?_ (setQueue_eff ..) ?hc); case hc => rfl)
    | (with_reducible refine Eff.mapGetD ?_ (fun k => ?_))
    | (with_reducible refine Eff.foldl ?_ (fun s x => ?_))
    | dsimp only
    | dsimp only [Option.getD_some, Option.getD_none]
    | split
    | simp only [List.length_map, length_mapIf, length_setAt])

theorem deliver_eff (s : State) (p : Packet) (a : Answer) :
    Eff [.vectors, .side, .inject, .wire, .sessions, .queues, .outstanding, .conns] s (deliver s p a) :=
  Eff.step ((releaseSend_eff s p).weaken rfl) (deliverBy_eff (fun s q e => postReserved_eff s q e) _ p a) rfl

theorem removeQueue_eff (s : State) (q : Nat) : Eff [.queues] s (removeQueue s q) := by
  unfold removeQueue
  repeat' (first
    | (with_reducible exact Eff.refl _ _)
    | dsimp only
    | (with_reducible apply Eff.of_rec (s := _))
    | (with_reducible exact .inl rfl)
    | exact .inr rfl
    | (with_reducible exact .inl ⟨rfl, rfl, rfl, rfl⟩))

theorem dropOutstanding_eff (s : State) (order : Nat) : Eff [.outstanding] s (dropOutstanding s order) := by
  unfold dropOutstanding
  repeat' (first
    | (with_reducible exact Eff.refl _ _)
    | dsimp only
    | (with_reducible apply Eff.of_rec (s := _))
    | (with_reducible exact .inl rfl)
    | exact .inr rfl
    | (with_reducible exact .inl ⟨rfl, rfl, rfl, rfl⟩))

theorem settleDestroys_eff (s : State) : Eff [.vectors, .side, .inject, .wire, .sessions, .queues, .outstanding, .conns] s (settleDestroys s) := by
  unfold settleDestroys
  repeat' (first
    | (with_reducible exact Eff.refl _ _)
    | ((with_reducible show Eff _ _ (deliver ..)); (with_reducible refine Eff.step ?_ (deliver_eff ..) ?hc); case hc => rfl)
    | ((with_reducible show Eff _ _ (removeQueue ..)); (with_reducible refine Eff.step ?_ (removeQueue_eff ..) ?hc); case hc => rfl)
    | ((with_reducible show Eff _ _ (dropOutstanding ..)); (with_reducible refine Eff.step ?_ (dropOutstanding_eff ..) ?hc); case hc => rfl)
    | (with_reducible refine Eff.foldl ?_ (fun s x => ?_))
    | split)

theorem reply_eff (s : State) (p : Packet) (a : Answer) : Eff [.vectors, .side, .inject, .wire, .sessions, .queues, .outstanding, .conns] s (reply s p a) := by
  unfold reply
  repeat' (first
    | (with_reducible exact Eff.refl _ _)
    | ((with_reducible show Eff _ _ (settleDestroys ..)); (with_reducible refine Eff.step ?_ (settleDestroys_eff ..) ?hc); case hc => rfl)
    | ((with_reducible show Eff _ _ (deliver ..)); (with_reducible refine Eff.step ?_ (deliver_eff ..) ?hc); case hc => rfl)
    | ((with_reducible show Eff _ _ (dropOutstanding ..)); (with_reducible refine Eff.step ?_ (dropOutstanding_eff ..) ?hc); case hc => rfl)
    | dsimp only
    | split
    | (with_reducible apply Eff.of_rec (s := _))
    | (with_reducible exact .inl rfl)
    | exact .inr rfl
    | (with_reducible exact .inl ⟨rfl, rfl, rfl, rfl⟩))

theorem cuffRefused_eff (s : State) (g record cause : Nat) : Eff [.vectors, .sessions, .queues] s (cuffRefused s g record cause) := by
  unfold cuffRefused
  repeat' (first
    | (with_reducible exact Eff.refl _ _)
    | ((with_reducible show Eff _ _ (setGlove ..)); (with_reducible refine Eff.step ?_ (setGlove_eff_s _ _ _ (fun _ => by first | (with_reducible rfl) | ((try dsimp only); split <;> (with_reducible rfl)))) ?hc); case hc => rfl)
    | ((with_reducible show Eff _ _ (postEvent ..)); (with_reducible refine Eff.step ?_ (postEvent_eff ..) ?hc); case hc => rfl)
    | dsimp only
    | split)

theorem keepRecords_eff (s : State) (g : Nat) (f : ReadFail) : Eff [.sessions] s (keepRecords s g f) :=
  setGlove_eff_s _ _ _ (fun _ => rfl)

theorem dmaReport_eff (s : State) (g : Nat) (f : ReadFail) : Eff [.vectors, .sessions, .queues] s (dmaReport s g f) := by
  unfold dmaReport
  split
  · exact Eff.refl _ _
  · exact Eff.step ((keepRecords_eff ..).weaken rfl) (cuffRefused_eff ..) rfl
  · exact Eff.step ((keepRecords_eff ..).weaken rfl) (cuffRefused_eff ..) rfl

theorem finish_eff (c : Cmd) (s : State) (p : Packet) (d : Done) : Eff [.vectors, .side, .inject, .wire, .sessions, .queues, .outstanding, .conns] s (finish c s p d) := by
  cases d with
  | answer a => exact (reply_eff s p a).weaken rfl
  | silent => exact Eff.refl _ _
  | waits w =>
    apply Eff.of_rec (s := s) (Eff.refl _ _)
    all_goals first | (with_reducible exact .inl rfl) | (with_reducible rfl) | exact .inr rfl | (with_reducible exact .inl ⟨rfl, rfl, rfl, rfl⟩)

theorem refuse_eff (s : State) (p : Packet) (r : Refused) :
    Eff [.vectors, .side, .inject, .wire, .sessions, .queues, .outstanding, .conns] s (refuse s p r) := by
  unfold refuse
  split
  · exact Eff.step ((dmaReport_eff ..).weaken rfl) (reply_eff ..) rfl
  · exact reply_eff ..

theorem runBody_eff1 {b : List Part} {c : Cmd} {p : Packet} {s : State}
    (hb : ∀ t d, c.body p s = .ok (t, d) → Eff b s t) (hr : ([.vectors, .side, .inject, .wire, .sessions, .queues, .outstanding, .conns] : List Part).all b.contains = true)
    (hs : ∀ p s, Eff b s (c.spent p s) := by exact fun _ _ => Eff.refl _ _) :
    Eff b s (runBody c p s) := by
  unfold runBody
  split
  · exact Eff.step (hs p s) (refuse_eff ..) hr
  · next h => exact Eff.step (hb _ _ h) (finish_eff ..) hr

theorem runBody_eff {b : List Part} {c : Cmd} (hb : ∀ p s t d, c.body p s = .ok (t, d) → Eff b s t) (hr : ([.vectors, .side, .inject, .wire, .sessions, .queues, .outstanding, .conns] : List Part).all b.contains = true) (p : Packet) (s : State)
    (hs : ∀ p s, Eff b s (c.spent p s) := by exact fun _ _ => Eff.refl _ _) :
    Eff b s (runBody c p s) := by
  exact runBody_eff1 (fun t d h => hb p s t d h) hr hs

theorem takeBlocks_eff (s : State) (ctx n : Nat) : Eff [.ent, .gloves] s (takeBlocks s ctx n) := by
  unfold takeBlocks
  repeat' (first
    | (with_reducible exact Eff.refl _ _)
    | ((with_reducible show Eff _ _ (setGlove ..)); (with_reducible refine Eff.step ?_ (setGlove_eff_g _ _ _ (fun _ => by first | (with_reducible rfl) | ((try dsimp only); split <;> (with_reducible rfl)))) ?hc); case hc => rfl)
    | dsimp only
    | split
    | (with_reducible apply Eff.of_rec (s := _))
    | (with_reducible exact .inl rfl)
    | (with_reducible exact .inl ⟨rfl, rfl, rfl, rfl⟩)
    | exact .inr ⟨rfl, by first | exact id | simp only [length_setAt, length_mapIf]⟩)

theorem start_eff {b : List Part} {c : Cmd} {p : Packet} {s : State}
    (hb : ∀ t d, c.body p s = .ok (t, d) → Eff b s t)
    (hb2 : ∀ n t d, c.body (drawnOf p) (takeBlocks s p.ctx n) = .ok (t, d) → Eff b (takeBlocks s p.ctx n) t)
    (hr : ([.vectors, .side, .inject, .wire, .sessions, .queues, .outstanding, .conns] : List Part).all b.contains = true)
    (hd : (∀ p s, c.draw p s = none) ∨ [Part.ent, .gloves].all b.contains = true)
    (hs : ∀ p s, Eff b s (c.spent p s) := by exact fun _ _ => Eff.refl _ _) :
    Eff b s (start c p s) := by
  unfold start
  rcases hd with hd | hd
  · simp only [hd, ite_self]
    exact runBody_eff1 hb hr hs
  · split
    · exact runBody_eff1 hb hr hs
    · split
      · exact (refuse_eff ..).weaken hr
      · dsimp only
        split
        · exact (reply_eff ..).weaken hr
        · split
          · exact Eff.step ((takeBlocks_eff ..).weaken hd) (runBody_eff1 (hb2 _) hr hs) (by simp)
          · exact Eff.step ((takeBlocks_eff ..).weaken hd) (finish_eff ..) hr

theorem perform_eff1 {b : List Part} {c : Cmd} {p : Packet} {s : State} (hb : checks c p s = .ok () → ∀ t d, c.body p s = .ok (t, d) → Eff b s t)
    (hb2 : checks c p s = .ok () → ∀ n t d, c.body (drawnOf p) (takeBlocks s p.ctx n) = .ok (t, d) → Eff b (takeBlocks s p.ctx n) t)
    (hr : ([.vectors, .side, .inject, .wire, .sessions, .queues, .outstanding, .conns] : List Part).all b.contains = true)
    (hd : (∀ p s, c.draw p s = none) ∨ [Part.ent, .gloves].all b.contains = true)
    (hs : ∀ p s, Eff b s (c.spent p s) := by exact fun _ _ => Eff.refl _ _) :
    Eff b s (perform c p s) := by
  unfold perform
  split
  · exact Eff.step (hs p s) (refuse_eff ..) hr
  · next h => exact start_eff (hb h) (hb2 h) hr hd hs

theorem perform_eff {b : List Part} {c : Cmd} (hb : ∀ p s t d, c.body p s = .ok (t, d) → Eff b s t) (hr : ([.vectors, .side, .inject, .wire, .sessions, .queues, .outstanding, .conns] : List Part).all b.contains = true)
    (hd : (∀ p s, c.draw p s = none) ∨ [Part.ent, .gloves].all b.contains = true) (p : Packet) (s : State)
    (hs : ∀ p s, Eff b s (c.spent p s) := by exact fun _ _ => Eff.refl _ _) :
    Eff b s (perform c p s) := by
  exact perform_eff1 (fun _ t d h => hb p s t d h) (fun _ n t d h => hb _ _ t d h) hr hd hs

theorem dispatch_eff1 {b : List Part} {c : Cmd} {p : Packet} {s : State} (hb : checks c p s = .ok () → ∀ t d, c.body p s = .ok (t, d) → Eff b s t)
    (hb2 : checks c p s = .ok () → ∀ n t d, c.body (drawnOf p) (takeBlocks s p.ctx n) = .ok (t, d) → Eff b (takeBlocks s p.ctx n) t)
    (hr : ([.staged, .vectors, .side, .inject, .wire, .sessions, .queues, .outstanding, .conns] : List Part).all b.contains = true)
    (hd : (∀ p s, c.draw p s = none) ∨ [Part.ent, .gloves].all b.contains = true)
    (hs : ∀ p s, Eff b s (c.spent p s) := by exact fun _ _ => Eff.refl _ _) :
    Eff b s (dispatch c p s) := by
  have hr' : ([.vectors, .side, .inject, .wire, .sessions, .queues, .outstanding, .conns] : List Part).all b.contains = true := by
    rw [List.all_eq_true] at *; intro x hx; exact hr x (by revert x; decide)
  have hdl : ∀ a, Eff b s (deliver s p a) := fun a => (deliver_eff s p a).weaken hr'
  unfold dispatch
  repeat' (first
    | exact Eff.refl _ _
    | exact perform_eff1 hb hb2 hr' hd hs
    | exact hdl _
    | split)
  refine Eff.step (a := [.staged]) (Eff.refl _ _) ?_ (by rw [List.all_eq_true] at *; intro x hx; exact hr x (by revert x; decide))
  apply Eff.of_rec (s := s) (Eff.refl _ _)
  all_goals first | (with_reducible exact .inl rfl) | (with_reducible rfl) | exact .inr rfl | (with_reducible exact .inl ⟨rfl, rfl, rfl, rfl⟩)

theorem dispatch_eff {b : List Part} {c : Cmd} (hb : ∀ p s t d, c.body p s = .ok (t, d) → Eff b s t) (hr : ([.staged, .vectors, .side, .inject, .wire, .sessions, .queues, .outstanding, .conns] : List Part).all b.contains = true)
    (hd : (∀ p s, c.draw p s = none) ∨ [Part.ent, .gloves].all b.contains = true) (p : Packet) (s : State)
    (hs : ∀ p s, Eff b s (c.spent p s) := by exact fun _ _ => Eff.refl _ _) :
    Eff b s (dispatch c p s) := by
  exact dispatch_eff1 (fun _ t d h => hb p s t d h) (fun _ n t d h => hb _ _ t d h) hr hd hs

theorem timed_eff {b : List Part} {c : Cmd} (hb : ∀ p s t d, c.body p s = .ok (t, d) → Eff b s t) {p : Packet} {s t : State}
    {x : Done} (h : (timed c).body p s = .ok (t, x)) : Eff b s t := by
  unfold timed at h
  split at h
  · dsimp only at h
    split at h
    · cases h
    · cases h; exact Eff.refl _ _
  · exact hb _ _ _ _ h

theorem runCmd_eff {b : List Part} {c : Cmd} (hb : ∀ p s t d, c.body p s = .ok (t, d) → Eff b s t) (hr : ([.staged, .vectors, .side, .inject, .wire, .sessions, .queues, .outstanding, .conns] : List Part).all b.contains = true)
    (hd : (∀ p s, c.draw p s = none) ∨ [Part.ent, .gloves].all b.contains = true) {p : Packet} {s t : State}
    (h : runCmd c p s = .next t) (hs : ∀ p s, Eff b s (c.spent p s) := by exact fun _ _ => Eff.refl _ _) : Eff b s t := by
  cases h
  exact dispatch_eff hb hr hd p s hs

theorem cuffOpen_eff (s : State) (g j : Nat) {l : List Byte} {t : State} (h : cuffOpen s g j = .ok (l, t)) : Eff [.sessions] s t := by
  unfold cuffOpen at h
  try dsimp only [bind, Except.bind, Except.map, pure, Except.pure, Option.map] at h
  repeat' (first
    | (split at h)
    | cases h)
  all_goals repeat' (first
    | (with_reducible exact Eff.refl _ _)
    | ((with_reducible show Eff _ _ (setGlove ..)); (with_reducible refine Eff.step ?_ (setGlove_eff_s _ _ _ (fun _ => by first | (with_reducible rfl) | ((try dsimp only); split <;> (with_reducible rfl)))) ?hc); case hc => rfl))

theorem foldlM_eff {α ε β : Type} {b : List Part} (π : β → State) (l : List α) (f : β → α → Except ε β)
    (hf : ∀ a x r, f a x = .ok r → Eff b (π a) (π r)) (a r : β) (h : l.foldlM f a = .ok r) : Eff b (π a) (π r) := by
  induction l generalizing a with
  | nil => cases h; exact Eff.refl _ _
  | cons x l ih =>
    rw [List.foldlM_cons] at h
    cases hx : f a x with
    | error e => rw [hx] at h; cases h
    | ok a' => rw [hx] at h; exact (hf a x a' hx).step (ih a' h) (by simp)

theorem cuffRead_eff (s : State) (g off n : Nat) {l : List Byte} {t : State} (h : cuffRead s g off n = .ok (l, t)) : Eff [.sessions] s t := by
  obtain ⟨r, hr, h⟩ := of_bind_ok h
  cases h
  refine foldlM_eff (fun x : List Byte × State => x.2) _ _ ?_ _ _ hr
  intro a x r h
  obtain ⟨y, hy, h⟩ := of_bind_ok h
  cases h
  exact cuffOpen_eff (h := hy) ..

theorem cuffPlain_eff (s : State) (g off : Nat) (bs : List Byte) (j : Nat) {l : List Byte} {t : State}
    (h : cuffPlain s g off bs j = .ok (l, t)) : Eff [.sessions] s t := by
  unfold cuffPlain at h
  dsimp only at h
  generalize (if off ≤ 4096 * j then List.take 4096 (List.drop (4096 * j - off) bs)
    else List.take (4096 - (off - 4096 * j)) bs) = part at h
  by_cases hp : part.length = 4096
  · rw [if_pos hp] at h; cases h; exact Eff.refl _ _
  · rw [if_neg hp] at h
    obtain ⟨y, hy, h⟩ := of_bind_ok h
    cases h
    exact cuffOpen_eff (h := hy) ..

theorem cuffWrite_eff (s : State) (g off : Nat) (bs : List Byte) {t : State} (h : cuffWrite s g off bs = .ok t) : Eff [.hostMem, .vectors, .sessions] s t := by
  obtain ⟨r, hr, h⟩ := of_bind_ok h
  cases h
  refine Eff.foldl ?_ (fun s x => cuffSeal_eff ..)
  refine (foldlM_eff (b := [.sessions]) (fun x : List (Nat × List Byte) × State => x.2) _ _ ?_ _ _ hr).weaken rfl
  intro a x r h
  obtain ⟨y, hy, h⟩ := of_bind_ok h
  cases h
  exact cuffPlain_eff (h := hy) ..

theorem windowBytes_eff (s : State) (w : Window) (off n : Nat) {l : List Byte} {t : State} (h : windowBytes s w off n = .ok (l, t)) : Eff [.sessions] s t := by
  unfold windowBytes at h
  repeat' (first
    | (split at h)
    | cases h)
  all_goals repeat' (first
    | (with_reducible exact Eff.refl _ _)
    | ((with_reducible refine Eff.step ?_ (cuffRead_eff (h := by assumption) ..) ?hc); case hc => rfl))

theorem caskWf_storeCask (off : Nat) (bs : List Byte) (c : Cask) (h : caskWf c = true) : caskWf (storeCask off bs c) = true := by
  have hd : Memory.wf c.data = true := by simp only [caskWf, Bool.and_eq_true] at h; exact h.1.1
  have h1 := caskWf_data h (wf_writeN hd off bs)
  unfold storeCask spoilHeaders
  dsimp only
  split
  · exact h1
  · exact h1

theorem touchOpcodes_eff (s : State) (g cask off n : Nat) : Eff [.outstanding] s (touchOpcodes s g cask off n) := by
  unfold touchOpcodes
  repeat' (first
    | (with_reducible assumption)
    | (with_reducible exact Eff.refl _ _)
    | (with_reducible refine Eff.mapGetD ?_ (fun k => ?_))
    | (with_reducible refine Eff.foldl ?_ (fun s x => ?_))
    | dsimp only
    | dsimp only [Option.getD_some, Option.getD_none]
    | split
    | (with_reducible apply Eff.of_rec (s := _))
    | (with_reducible exact .inl rfl)
    | (with_reducible rfl)
    | exact .inr rfl
    | (with_reducible exact .inl ⟨rfl, rfl, rfl, rfl⟩)
    | (with_reducible exact .inl (map_map_keep (fun _ => by first | rfl | ((try dsimp only); split <;> rfl))))
    | simp only [List.length_map, length_mapIf, length_setAt]
    | exact .inr ⟨rfl, by first | exact id | simp only [length_setAt, length_mapIf]⟩
    | exact .inr ⟨rfl, fun h => all_filter h⟩
    | exact .inr ⟨rfl, fun h => wf_set h _ _⟩
    | exact .inr ⟨rfl, fun h => wf_writeN h _ _⟩)

theorem windowStore_eff (s : State) (w : Window) (off : Nat) (bs : List Byte) {t : State}
    (h : windowStore s w off bs = .ok t) : Eff [.hostMem, .vectors, .sessions, .outstanding, .casks] s t := by
  unfold windowStore at h
  split at h
  · cases h; exact Eff.step ((setCask_eff _ _ _ _ (caskWf_storeCask _ _)).weaken rfl) (touchOpcodes_eff ..) rfl
  · split at h
    · cases h; exact Eff.refl _ _
    · split at h
      · exact (cuffWrite_eff (h := h) ..).weaken rfl
      · cases h; exact (hostWrite_eff ..).weaken rfl
  · cases h; exact Eff.refl _ _

theorem countAccess_eff (s : State) (w : Window) : Eff [.windows] s (countAccess s w) := by
  unfold countAccess
  repeat' (first
    | (with_reducible exact Eff.refl _ _)
    | ((with_reducible show Eff _ _ (setWindow ..)); (with_reducible refine Eff.step ?_ (setWindow_eff ..) ?hc); case hc => rfl))

theorem of_hostRefused {α : Type} {x : Except ReadFail α} {r : α} (h : hostRefused x = .ok r) : x = .ok r := by
  cases x with
  | ok a => cases h; rfl
  | error e => cases h

theorem readWindow_eff (s : State) (ctx key off n : Nat) {l : List Byte} {t : State} (h : readWindow s ctx key off n = .ok (l, t)) : Eff [.sessions] s t := by
  obtain ⟨w, _, h⟩ := of_bind_ok h
  obtain ⟨_, _, h⟩ := of_bind_ok h
  exact windowBytes_eff (h := of_hostRefused h) ..

theorem writeWindow_eff (s : State) (ctx key off : Nat) (bs : List Byte) {t : State} (h : writeWindow s ctx key off bs = .ok t) : Eff [.hostMem, .vectors, .sessions, .outstanding, .casks] s t := by
  obtain ⟨w, _, h⟩ := of_bind_ok h
  obtain ⟨_, _, h⟩ := of_bind_ok h
  exact windowStore_eff (h := of_hostRefused h) ..

/-! ### Machine/Casks.lean -/

theorem caskWf_setCoord {c : Cask} (h : caskWf c = true) (i v : Nat) : caskWf (setCoord c i v) = true :=
  caskWf_writeN h _ _

theorem caskWf_adjustCoord {c : Cask} (h : caskWf c = true) (minus : Bool) (i x : Nat) :
    caskWf (adjustCoord c minus i x) = true := caskWf_setCoord h _ _

theorem caskWf_printCoord {c : Cask} (h : caskWf c = true) (draw : Nat) (minus : Bool) (u : Option Nat)
    (i x : Nat) : caskWf (printCoord draw c minus u i x) = true := by
  unfold printCoord
  dsimp only
  refine caskWf_foldl (fun c x h => ?_) _ h
  exact (caskWf_iff _).mpr ((caskWf_iff c).mp h)

theorem caskWf_placeValues {c : Cask} (h : caskWf c = true) (draw : Nat) (minus : Bool) (u : Option Nat) (i : Nat)
    (l : List Nat) : caskWf (placeValues draw minus u c i l) = true := by
  induction l generalizing c i with
  | nil => exact h
  | cons x l ih =>
    rw [placeValues]
    exact ih (caskWf_printCoord (caskWf_adjustCoord h _ _ _) ..) _

theorem vintageEvent_eff (s : State) (v : Vintage) (code : Nat) (st : Status) (cask cause a : Nat) (w : PhaseWord) (b c : Nat) : Eff [.vectors, .sessions, .queues] s (vintageEvent s v code st cask cause a w b c) := by
  unfold vintageEvent
  repeat' (first
    | (with_reducible exact Eff.refl _ _)
    | ((with_reducible show Eff _ _ (postEvent ..)); (with_reducible refine Eff.step ?_ (postEvent_eff ..) ?hc); case hc => rfl))

theorem spillTouch_eff (s : State) (c : Cask) (first n : Nat) : Eff [.casks] s (spillTouch s c first n) := by
  unfold spillTouch
  repeat' (first
    | (with_reducible assumption)
    | (with_reducible exact Eff.refl _ _)
    | (with_reducible refine Eff.mapGetD ?_ (fun k => ?_))
    | (with_reducible refine Eff.foldl ?_ (fun s x => ?_))
    | dsimp only
    | dsimp only [Option.getD_some, Option.getD_none]
    | split
    | (with_reducible apply Eff.of_rec (s := _))
    | (with_reducible exact .inl rfl)
    | (with_reducible rfl)
    | exact .inr rfl
    | (with_reducible exact .inl ⟨rfl, rfl, rfl, rfl⟩)
    | (with_reducible exact .inl (map_map_keep (fun _ => by first | rfl | ((try dsimp only); split <;> rfl))))
    | simp only [List.length_map, length_mapIf, length_setAt]
    | exact .inr ⟨rfl, by first | exact id | simp only [length_setAt, length_mapIf]⟩
    | exact .inr ⟨rfl, fun h => all_filter h⟩
    | exact .inr ⟨rfl, fun h => wf_set h _ _⟩
    | exact .inr ⟨rfl, fun h => wf_writeN h _ _⟩)

theorem dropLines_eff (s : State) (sel : SpillLine → Bool) : Eff [.casks] s (dropLines s sel) := by
  unfold dropLines
  repeat' (first
    | (with_reducible assumption)
    | (with_reducible exact Eff.refl _ _)
    | (with_reducible refine Eff.mapGetD ?_ (fun k => ?_))
    | (with_reducible refine Eff.foldl ?_ (fun s x => ?_))
    | dsimp only
    | dsimp only [Option.getD_some, Option.getD_none]
    | split
    | (with_reducible apply Eff.of_rec (s := _))
    | (with_reducible exact .inl rfl)
    | (with_reducible rfl)
    | exact .inr rfl
    | (with_reducible exact .inl ⟨rfl, rfl, rfl, rfl⟩)
    | (with_reducible exact .inl (map_map_keep (fun _ => by first | rfl | ((try dsimp only); split <;> rfl))))
    | simp only [List.length_map, length_mapIf, length_setAt]
    | exact .inr ⟨rfl, by first | exact id | simp only [length_setAt, length_mapIf]⟩
    | exact .inr ⟨rfl, fun h => all_filter h⟩
    | exact .inr ⟨rfl, fun h => wf_set h _ _⟩
    | exact .inr ⟨rfl, fun h => wf_writeN h _ _⟩)

theorem sendNotice_eff (s : State) (conn vintage kind : Nat) (payload : List Byte) : Eff [.vectors, .inject, .wire, .sessions, .queues, .conns] s (sendNotice s conn vintage kind payload) := by
  unfold sendNotice
  repeat' (first
    | (with_reducible exact Eff.refl _ _)
    | ((with_reducible show Eff _ _ (sendMessage ..)); (with_reducible refine Eff.step ?_ (sendMessage_eff ..) ?hc); case hc => rfl))

theorem sendRemoves_eff (s : State) (v : Vintage) (rollback : Bool) (clients : List Nat) (w : PhaseWord) : Eff [.vectors, .inject, .wire, .sessions, .queues, .conns] s (sendRemoves s v rollback clients w) := by
  unfold sendRemoves
  repeat' (first
    | (with_reducible exact Eff.refl _ _)
    | ((with_reducible show Eff _ _ (sendNotice ..)); (with_reducible refine Eff.step ?_ (sendNotice_eff ..) ?hc); case hc => rfl)
    | (with_reducible refine Eff.foldl ?_ (fun s x => ?_)))

theorem changeVat_eff (s : State) (vat glove : Nat) (st : VatState) : Eff [.vectors, .int, .sessions, .queues] s (changeVat s vat glove st) := by
  unfold changeVat
  repeat' (first
    | (with_reducible exact Eff.refl _ _)
    | ((with_reducible show Eff _ _ (addRecord ..)); (with_reducible refine Eff.step ?_ (addRecord_eff ..) ?hc); case hc => rfl)
    | ((with_reducible show Eff _ _ (setVat ..)); (with_reducible refine Eff.step ?_ (setVat_eff ..) ?hc); case hc => rfl)
    | split)

theorem retireVat_eff (s : State) (vat glove : Nat) : Eff [.vectors, .int, .sessions, .queues] s (retireVat s vat glove) := by
  unfold retireVat
  repeat' (first
    | (with_reducible exact Eff.refl _ _)
    | ((with_reducible show Eff _ _ (changeVat ..)); (with_reducible refine Eff.step ?_ (changeVat_eff ..) ?hc); case hc => rfl)
    | ((with_reducible show Eff _ _ (setVat ..)); (with_reducible refine Eff.step ?_ (setVat_eff ..) ?hc); case hc => rfl))

theorem chargeVat_eff (s : State) (vat cls outcome glove : Nat) (runs : List Nat) (syndrome tile : Nat) : Eff [.vectors, .int, .sessions, .queues] s (chargeVat s vat cls outcome glove runs syndrome tile) := by
  unfold chargeVat
  repeat' (first
    | (with_reducible exact Eff.refl _ _)
    | ((with_reducible show Eff _ _ (addRecord ..)); (with_reducible refine Eff.step ?_ (addRecord_eff ..) ?hc); case hc => rfl)
    | ((with_reducible show Eff _ _ (retireVat ..)); (with_reducible refine Eff.step ?_ (retireVat_eff ..) ?hc); case hc => rfl)
    | dsimp only
    | split)

theorem recordMismatch_eff (s : State) (g stripes : Nat) (vats : List Nat) : Eff [.vectors, .int, .sessions, .queues] s (recordMismatch s g stripes vats) := by
  unfold recordMismatch
  repeat' (first
    | (with_reducible assumption)
    | (with_reducible exact Eff.refl _ _)
    | ((with_reducible show Eff _ _ (addRecord ..)); (with_reducible refine Eff.step ?_ (addRecord_eff ..) ?hc); case hc => rfl)
    | ((with_reducible show Eff _ _ (chargeVat ..)); (with_reducible refine Eff.step ?_ (chargeVat_eff ..) ?hc); case hc => rfl)
    | (with_reducible refine Eff.mapGetD ?_ (fun k => ?_))
    | (with_reducible refine Eff.foldl ?_ (fun s x => ?_))
    | dsimp only
    | dsimp only [Option.getD_some, Option.getD_none]
    | split
    | simp only [List.length_map, length_mapIf, length_setAt])

theorem startRollback_eff (s : State) (g cask stripes : Nat) (vats : List Nat) (sealedR : Bool) : Eff [.vectors, .int, .sessions, .queues, .conns, .casks] s (startRollback s g cask stripes vats sealedR) := by
  unfold startRollback
  repeat' (first
    | (with_reducible assumption)
    | (with_reducible exact Eff.refl _ _)
    | ((with_reducible show Eff _ _ (setConn ..)); (with_reducible refine Eff.step ?_ (setConn_eff ..) ?hc); case hc => rfl)
    | ((with_reducible show Eff _ _ (setCask ..)); (with_reducible refine Eff.step ?_ (setCask_eff _ _ _ _ (fun _ hx => by first | (with_reducible exact caskWf_of hx rfl rfl rfl) | (with_reducible exact caskWf_of (caskWf_placeValues hx _ _ _ _ _) rfl rfl rfl) | ((try dsimp only); split <;> (with_reducible exact caskWf_of hx rfl rfl rfl)) | (simp only [caskWf, Bool.and_eq_true, Option.map_none, Option.getD_none, and_true] at hx ⊢; exact hx.1) | exact (caskWf_iff _).mpr ⟨rfl, ((caskWf_iff _).mp hx).2⟩)) ?hc); case hc => rfl)
    | ((with_reducible show Eff _ _ (recordMismatch ..)); (with_reducible refine Eff.step ?_ (recordMismatch_eff ..) ?hc); case hc => rfl)
    | (with_reducible refine Eff.mapGetD ?_ (fun k => ?_))
    | (with_reducible refine Eff.foldl ?_ (fun s x => ?_))
    | dsimp only
    | dsimp only [Option.getD_some, Option.getD_none]
    | split
    | simp only [List.length_map, length_mapIf, length_setAt])

theorem undoRemovals_eff (s : State) (v : Vintage) (c : Cask) : Eff [.casks, .vintages] s (undoRemovals s v c).1 := by
  unfold undoRemovals
  repeat' (first
    | (with_reducible exact Eff.refl _ _)
    | ((with_reducible show Eff _ _ (setVintage ..)); (with_reducible refine Eff.step ?_ (setVintage_eff ..) ?hc); case hc => rfl)
    | ((with_reducible show Eff _ _ (setCask ..)); (with_reducible refine Eff.step ?_ (setCask_eff _ _ _ _ (fun _ hx => by first | (with_reducible exact caskWf_of hx rfl rfl rfl) | (with_reducible exact caskWf_of (caskWf_placeValues hx _ _ _ _ _) rfl rfl rfl) | ((try dsimp only); split <;> (with_reducible exact caskWf_of hx rfl rfl rfl)) | (simp only [caskWf, Bool.and_eq_true, Option.map_none, Option.getD_none, and_true] at hx ⊢; exact hx.1) | exact (caskWf_iff _).mpr ⟨rfl, ((caskWf_iff _).mp hx).2⟩)) ?hc); case hc => rfl))

theorem settleRemovals_eff (s : State) (g vid : Nat) : Eff [.vintages] s (settleRemovals s g vid) := by
  unfold settleRemovals
  repeat' (first
    | (with_reducible assumption)
    | (with_reducible exact Eff.refl _ _)
    | ((with_reducible show Eff _ _ (setVintage ..)); (with_reducible refine Eff.step ?_ (setVintage_eff ..) ?hc); case hc => rfl)
    | (with_reducible refine Eff.mapGetD ?_ (fun k => ?_))
    | (with_reducible refine Eff.foldl ?_ (fun s x => ?_))
    | dsimp only
    | dsimp only [Option.getD_some, Option.getD_none]
    | split
    | simp only [List.length_map, length_mapIf, length_setAt])

theorem finishRollback_eff (s : State) (g cask : Nat) : Eff [.vectors, .inject, .wire, .sessions, .queues, .conns, .casks, .vintages] s (finishRollback s g cask) := by
  unfold finishRollback
  split
  · exact Eff.refl _ _
  · next c hc =>
    dsimp only
    split
    · next r v hr hv =>
      have h1 := setCask_eff_s s g cask (fun k => { k with
        data := (c.verified.map (fun x => x.image)).getD []
        tallies := (c.verified.map (fun x => x.tallies)).getD []
        digests := (c.verified.map (fun x => x.digests)).getD []
        partials := (c.verified.map (fun x => x.partials)).getD []
        prints := imagePrints v.printDraw k ((c.verified.map (fun x => x.image)).getD [])
        placersCut := []
        rollback := none }) (fun hs x hx => by
          have hw := (caskWf_iff c).mp (caskOf_wf hs hc)
          have hx' := (caskWf_iff x).mp hx
          refine (caskWf_iff _).mpr ⟨?_, hx'.2⟩
          cases hv : c.verified with
          | none => rfl
          | some y => exact hw.2.1 y hv)
      generalize setCask s g cask (fun k => { k with
        data := (c.verified.map (fun x => x.image)).getD []
        tallies := (c.verified.map (fun x => x.tallies)).getD []
        digests := (c.verified.map (fun x => x.digests)).getD []
        partials := (c.verified.map (fun x => x.partials)).getD []
        prints := imagePrints v.printDraw k ((c.verified.map (fun x => x.image)).getD [])
        placersCut := []
        rollback := none }) = s1 at h1 ⊢
      have h2 := (h1.weaken (b := [.vectors, .inject, .wire, .sessions, .queues, .conns, .casks, .vintages]) rfl).step (undoRemovals_eff s1 v c) rfl
      generalize undoRemovals s1 v c = u at h2 ⊢
      repeat' (first
        | exact h2
        | ((with_reducible refine Eff.step ?_ (settleRemovals_eff ..) ?hc); case hc => rfl)
        | ((with_reducible refine Eff.step ?_ (sendNotice_eff ..) ?hc); case hc => rfl)
        | ((with_reducible refine Eff.step ?_ (sendRemoves_eff ..) ?hc); case hc => rfl)
        | ((with_reducible refine Eff.step ?_ (postEvent_eff ..) ?hc); case hc => rfl)
        | (with_reducible refine Eff.foldl ?_ (fun s x => ?_))
        | (with_reducible exact Eff.refl _ _)
        | split)
    · refine (setCask_eff _ _ _ _ ?_).weaken rfl
      exact fun _ hx => hx

theorem takeCut_eff (s : State) (g cask : Nat) : Eff [.casks] s (takeCut s g cask) := by
  unfold takeCut
  split
  · exact Eff.refl _ _
  · next c hc =>
    split
    · split
      · exact Eff.refl _ _
      · refine (setCask_eff_s _ _ _ _ (fun hs x hx => ?_)).weaken rfl
        have hw := (caskWf_iff c).mp (caskOf_wf hs hc)
        have hx' := (caskWf_iff x).mp hx
        exact (caskWf_iff _).mpr ⟨hx'.1, hx'.2.1, fun y hy => by cases hy; exact hw.1⟩
    · exact Eff.refl _ _

theorem sendRackSafe_eff (s : State) (v : Vintage) (cask : Nat) (cp : Checkpoint) : Eff [.vectors, .inject, .wire, .sessions, .queues, .conns] s (sendRackSafe s v cask cp) := by
  unfold sendRackSafe
  repeat' (first
    | (with_reducible exact Eff.refl _ _)
    | ((with_reducible show Eff _ _ (sendNotice ..)); (with_reducible refine Eff.step ?_ (sendNotice_eff ..) ?hc); case hc => rfl)
    | (with_reducible refine Eff.foldl ?_ (fun s x => ?_))
    | split)

theorem acceptCheckpoint_eff (s : State) (v : Vintage) (c : Cask) (cp : Checkpoint) (removalsPending : Bool)
    (h : ShapeOk s → Memory.wf cp.image = true) : Eff [.vectors, .inject, .wire, .sessions, .queues, .conns, .casks, .vintages] s (acceptCheckpoint s v c cp removalsPending) := by
  unfold acceptCheckpoint
  refine Eff.step ?_ (sendRackSafe_eff ..) rfl
  refine Eff.step ?_ (vintageEvent_eff ..) rfl
  refine Eff.step ?_ (setVintage_eff ..) rfl
  refine (setCask_eff_s _ _ _ _ (fun hs x hx => ?_)).weaken rfl
  have hx' := (caskWf_iff x).mp hx
  exact (caskWf_iff _).mpr ⟨hx'.1, fun y hy => by cases hy; exact h hs, fun y hy => by cases hy⟩

/-! ### Machine/Phase.lean -/

theorem addDue_eff (s : State) (g : Nat) (l : List DueEvent) : Eff [.gloves] s (addDue s g l) := by
  unfold addDue
  repeat' (first
    | (with_reducible assumption)
    | (with_reducible exact Eff.refl _ _)
    | ((with_reducible show Eff _ _ (setGlove ..)); (with_reducible refine Eff.step ?_ (setGlove_eff_s _ _ _ (fun _ => by first | (with_reducible rfl) | ((try dsimp only); split <;> (with_reducible rfl)))) ?hc); case hc => rfl)
    | ((with_reducible show Eff _ _ (setGlove ..)); (with_reducible refine Eff.step ?_ (setGlove_eff_g _ _ _ (fun _ => by first | (with_reducible rfl) | ((try dsimp only); split <;> (with_reducible rfl)))) ?hc); case hc => rfl)
    | ((with_reducible show Eff _ _ (setGlove ..)); (with_reducible refine Eff.step ?_ (setGlove_eff _ _ _) ?hc); case hc => rfl)
    | (with_reducible refine Eff.mapGetD ?_ (fun k => ?_))
    | (with_reducible refine Eff.foldl ?_ (fun s x => ?_))
    | dsimp only
    | dsimp only [Option.getD_some, Option.getD_none]
    | split
    | simp only [List.length_map, length_mapIf, length_setAt])

theorem applyTick_eff (s : State) (g src target cycle : Nat) (byTick : Option (Nat × Nat × Nat)) : Eff [.gloves, .vintages] s (applyTick s g src target cycle byTick) := by
  unfold applyTick
  repeat' (first
    | (with_reducible assumption)
    | (with_reducible exact Eff.refl _ _)
    | ((with_reducible show Eff _ _ (setGlove ..)); (with_reducible refine Eff.step ?_ (setGlove_eff_s _ _ _ (fun _ => by first | (with_reducible rfl) | ((try dsimp only); split <;> (with_reducible rfl)))) ?hc); case hc => rfl)
    | ((with_reducible show Eff _ _ (setGlove ..)); (with_reducible refine Eff.step ?_ (setGlove_eff_g _ _ _ (fun _ => by first | (with_reducible rfl) | ((try dsimp only); split <;> (with_reducible rfl)))) ?hc); case hc => rfl)
    | ((with_reducible show Eff _ _ (setGlove ..)); (with_reducible refine Eff.step ?_ (setGlove_eff _ _ _) ?hc); case hc => rfl)
    | ((with_reducible show Eff _ _ (addDue ..)); (with_reducible refine Eff.step ?_ (addDue_eff ..) ?hc); case hc => rfl)
    | (with_reducible refine Eff.mapGetD ?_ (fun k => ?_))
    | (with_reducible refine Eff.foldl ?_ (fun s x => ?_))
    | dsimp only
    | dsimp only [Option.getD_some, Option.getD_none]
    | split
    | (with_reducible apply Eff.of_rec (s := _))
    | (with_reducible exact .inl rfl)
    | (with_reducible rfl)
    | exact .inr rfl
    | (with_reducible exact .inl ⟨rfl, rfl, rfl, rfl⟩)
    | (with_reducible exact .inl (map_map_keep (fun _ => by first | rfl | ((try dsimp only); split <;> rfl))))
    | simp only [List.length_map, length_mapIf, length_setAt]
    | exact .inr ⟨rfl, by first | exact id | simp only [length_setAt, length_mapIf]⟩
    | exact .inr ⟨rfl, fun h => all_filter h⟩
    | exact .inr ⟨rfl, fun h => wf_set h _ _⟩
    | exact .inr ⟨rfl, fun h => wf_writeN h _ _⟩)

theorem countTick_eff (s : State) (g : Nat) : Eff [.gloves] s (countTick s g) := by
  unfold countTick
  repeat' (first
    | (with_reducible exact Eff.refl _ _)
    | ((with_reducible show Eff _ _ (setGlove ..)); (with_reducible refine Eff.step ?_ (setGlove_eff_g _ _ _ (fun _ => by first | (with_reducible rfl) | ((try dsimp only); split <;> (with_reducible rfl)))) ?hc); case hc => rfl))

theorem tickAccept_eff (p : Packet) (s : State) : Eff [.gloves, .vintages] s (tickAccept p s).2 := by
  unfold tickAccept
  repeat' (first
    | (with_reducible assumption)
    | (with_reducible exact Eff.refl _ _)
    | ((with_reducible show Eff _ _ (applyTick ..)); (with_reducible refine Eff.step ?_ (applyTick_eff ..) ?hc); case hc => rfl)
    | ((with_reducible show Eff _ _ (setGlove ..)); (with_reducible refine Eff.step ?_ (setGlove_eff_s _ _ _ (fun _ => by first | (with_reducible rfl) | ((try dsimp only); split <;> (with_reducible rfl)))) ?hc); case hc => rfl)
    | ((with_reducible show Eff _ _ (setGlove ..)); (with_reducible refine Eff.step ?_ (setGlove_eff_g _ _ _ (fun _ => by first | (with_reducible rfl) | ((try dsimp only); split <;> (with_reducible rfl)))) ?hc); case hc => rfl)
    | ((with_reducible show Eff _ _ (setGlove ..)); (with_reducible refine Eff.step ?_ (setGlove_eff _ _ _) ?hc); case hc => rfl)
    | ((with_reducible show Eff _ _ (countTick ..)); (with_reducible refine Eff.step ?_ (countTick_eff ..) ?hc); case hc => rfl)
    | (with_reducible refine Eff.mapGetD ?_ (fun k => ?_))
    | (with_reducible refine Eff.foldl ?_ (fun s x => ?_))
    | dsimp only
    | dsimp only [Option.getD_some, Option.getD_none]
    | split
    | simp only [List.length_map, length_mapIf, length_setAt])

theorem serializeTick_eff (p : Packet) (s : State) : Eff [.gloves, .vintages] s (serializeTick p s).2 := by
  unfold serializeTick
  repeat' (first
    | (with_reducible exact Eff.refl _ _)
    | ((with_reducible refine Eff.step ?_ (tickAccept_eff ..) ?hc); case hc => rfl)
    | ((with_reducible show Eff _ _ (setGlove ..)); (with_reducible refine Eff.step ?_ (setGlove_eff_g _ _ _ (fun _ => by first | (with_reducible rfl) | ((try dsimp only); split <;> (with_reducible rfl)))) ?hc); case hc => rfl)
    | split)

theorem cmdPhaseTick_eff {p : Packet} {s t : State} {x : Done} (h : (cmdPhaseTick).body p s = .ok (t, x)) : Eff [.gloves, .vintages] s t := by
  unfold cmdPhaseTick at h
  try dsimp only [bind, Except.bind, Except.map, pure, Except.pure, Option.map] at h
  repeat' (first
    | (split at h)
    | (replace h := ok_fst h; subst h))
  all_goals repeat' (first
    | (with_reducible exact Eff.refl _ _)
    | ((with_reducible refine Eff.step ?_ (serializeTick_eff ..) ?hc); case hc => rfl))

theorem execPhaseTick_eff (p : Packet) (s : State) {t : State} (h : execPhaseTick p s = .next t) : Eff (.gloves :: .vintages :: answering) s t := by
  exact runCmd_eff (fun _ _ _ _ h => (cmdPhaseTick_eff (h := h) ..).weaken rfl) rfl (by first | exact .inl (fun _ _ => rfl) | exact .inr rfl) h

theorem cmdPhaseSourceSet_eff {p : Packet} {s t : State} {x : Done} (h : (cmdPhaseSourceSet).body p s = .ok (t, x)) : Eff [.gloves, .vintages] s t := by
  unfold cmdPhaseSourceSet at h
  try dsimp only [bind, Except.bind, Except.map, pure, Except.pure, Option.map] at h
  repeat' (first
    | (split at h)
    | (replace h := ok_fst h; subst h)
    | (replace h := Except.ok.inj h; subst h)
    | (replace h := Host.Outcome.next.inj h; subst h)
    | (replace h := Option.some.inj h; subst h)
    | cases h
    | (dsimp only at h))
  all_goals repeat' (first
    | (with_reducible assumption)
    | (with_reducible exact Eff.refl _ _)
    | ((with_reducible show Eff _ _ (setGlove ..)); (with_reducible refine Eff.step ?_ (setGlove_eff_s _ _ _ (fun _ => by first | (with_reducible rfl) | ((try dsimp only); split <;> (with_reducible rfl)))) ?hc); case hc => rfl)
    | ((with_reducible show Eff _ _ (setGlove ..)); (with_reducible refine Eff.step ?_ (setGlove_eff_g _ _ _ (fun _ => by first | (with_reducible rfl) | ((try dsimp only); split <;> (with_reducible rfl)))) ?hc); case hc => rfl)
    | ((with_reducible show Eff _ _ (setGlove ..)); (with_reducible refine Eff.step ?_ (setGlove_eff _ _ _) ?hc); case hc => rfl)
    | ((with_reducible show Eff _ _ (applyTick ..)); (with_reducible refine Eff.step ?_ (applyTick_eff ..) ?hc); case hc => rfl)
    | (with_reducible refine Eff.mapGetD ?_ (fun k => ?_))
    | (with_reducible refine Eff.foldl ?_ (fun s x => ?_))
    | dsimp only
    | dsimp only [Option.getD_some, Option.getD_none]
    | split
    | simp only [List.length_map, length_mapIf, length_setAt])

theorem execPhaseSourceSet_eff (p : Packet) (s : State) {t : State} (h : execPhaseSourceSet p s = .next t) : Eff (.gloves :: .vintages :: answering) s t := by
  exact runCmd_eff (fun _ _ _ _ h => (cmdPhaseSourceSet_eff (h := h) ..).weaken rfl) rfl (by first | exact .inl (fun _ _ => rfl) | exact .inr rfl) h

theorem tickCalendarGloves_eff (s : State) (cycle : Nat) : Eff [.gloves, .vintages] s (tickCalendarGloves s cycle) := by
  unfold tickCalendarGloves
  repeat' (first
    | (with_reducible assumption)
    | (with_reducible exact Eff.refl _ _)
    | ((with_reducible show Eff _ _ (countTick ..)); (with_reducible refine Eff.step ?_ (countTick_eff ..) ?hc); case hc => rfl)
    | ((with_reducible show Eff _ _ (applyTick ..)); (with_reducible refine Eff.step ?_ (applyTick_eff ..) ?hc); case hc => rfl)
    | (with_reducible refine Eff.mapGetD ?_ (fun k => ?_))
    | (with_reducible refine Eff.foldl ?_ (fun s x => ?_))
    | dsimp only
    | dsimp only [Option.getD_some, Option.getD_none]
    | split
    | simp only [List.length_map, length_mapIf, length_setAt])

theorem cmdCalSet_eff {p : Packet} {s t : State} {x : Done} (h : (cmdCalSet).body p s = .ok (t, x)) : Eff [.cal, .gloves, .vintages] s t := by
  unfold cmdCalSet at h
  repeat' (first
    | (replace h := ok_fst h; subst h))
  all_goals repeat' (first
    | (with_reducible exact Eff.refl _ _)
    | ((with_reducible show Eff _ _ (tickCalendarGloves ..)); (with_reducible refine Eff.step ?_ (tickCalendarGloves_eff ..) ?hc); case hc => rfl)
    | dsimp only
    | (with_reducible apply Eff.of_rec (s := _))
    | (with_reducible exact .inl rfl)
    | exact .inr rfl
    | (with_reducible exact .inl ⟨rfl, rfl, rfl, rfl⟩))

theorem execCalSet_eff (p : Packet) (s : State) {t : State} (h : execCalSet p s = .next t) : Eff (.cal :: .gloves :: .vintages :: answering) s t := by
  exact runCmd_eff (fun _ _ _ _ h => (cmdCalSet_eff (h := h) ..).weaken rfl) rfl (by first | exact .inl (fun _ _ => rfl) | exact .inr rfl) h

theorem cmdPhaseQuery_eff {p : Packet} {s t : State} {x : Done} (h : (cmdPhaseQuery).body p s = .ok (t, x)) : Eff [] s t := by
  unfold cmdPhaseQuery at h
  try dsimp only [bind, Except.bind, Except.map, pure, Except.pure, Option.map] at h
  repeat' (first
    | (split at h)
    | (replace h := ok_fst h; subst h))
  all_goals repeat' (first
    | (with_reducible exact Eff.refl _ _))

theorem execPhaseQuery_eff (p : Packet) (s : State) {t : State} (h : execPhaseQuery p s = .next t) : Eff answering s t := by
  exact runCmd_eff (fun _ _ _ _ h => (cmdPhaseQuery_eff (h := h) ..).weaken rfl) rfl (by first | exact .inl (fun _ _ => rfl) | exact .inr rfl) h

theorem execCalendarMsTick_eff (cycle : Nat) (s : State) {t : State} (h : execCalendarMsTick cycle s = .next t) : Eff [.clock, .cal, .gloves, .vintages] s t := by
  unfold execCalendarMsTick at h
  repeat' (first
    | (split at h)
    | (replace h := Host.Outcome.next.inj h; subst h))
  all_goals repeat' (first
    | (with_reducible exact Eff.refl _ _)
    | ((with_reducible show Eff _ _ (tickCalendarGloves ..)); (with_reducible refine Eff.step ?_ (tickCalendarGloves_eff ..) ?hc); case hc => rfl)
    | (with_reducible apply Eff.of_rec (s := _))
    | (with_reducible exact .inl rfl)
    | exact .inr rfl
    | (with_reducible exact .inl ⟨rfl, rfl, rfl, rfl⟩)
    | (with_reducible exact .inl (map_map_keep (fun _ => by first | rfl | ((try dsimp only); split <;> rfl))))
    | simp only [List.length_map, length_mapIf, length_setAt])

theorem execStallFallbackEnter_eff (glove : Nat) (s : State) {t : State} (h : execStallFallbackEnter glove s = .next t) : Eff [.vectors, .gloves, .sessions, .queues] s t := by
  unfold execStallFallbackEnter at h
  try dsimp only [bind, Except.bind, Except.map, pure, Except.pure, Option.map] at h
  repeat' (first
    | (split at h)
    | (replace h := Host.Outcome.next.inj h; subst h))
  all_goals repeat' (first
    | (with_reducible exact Eff.refl _ _)
    | ((with_reducible show Eff _ _ (setGlove ..)); (with_reducible refine Eff.step ?_ (setGlove_eff_g _ _ _ (fun _ => by first | (with_reducible rfl) | ((try dsimp only); split <;> (with_reducible rfl)))) ?hc); case hc => rfl)
    | ((with_reducible show Eff _ _ (postEvent ..)); (with_reducible refine Eff.step ?_ (postEvent_eff ..) ?hc); case hc => rfl))

theorem execStallFallbackTick_eff (glove cycle : Nat) (s : State) {t : State} (h : execStallFallbackTick glove cycle s = .next t) : Eff [.clock, .gloves, .vintages] s t := by
  unfold execStallFallbackTick at h
  try dsimp only [bind, Except.bind, Except.map, pure, Except.pure, Option.map] at h
  repeat' (first
    | (split at h)
    | (replace h := ok_fst h; subst h)
    | (replace h := Except.ok.inj h; subst h)
    | (replace h := Host.Outcome.next.inj h; subst h)
    | (replace h := Option.some.inj h; subst h)
    | cases h
    | (dsimp only at h))
  all_goals repeat' (first
    | (with_reducible assumption)
    | (with_reducible exact Eff.refl _ _)
    | ((with_reducible show Eff _ _ (countTick ..)); (with_reducible refine Eff.step ?_ (countTick_eff ..) ?hc); case hc => rfl)
    | ((with_reducible show Eff _ _ (applyTick ..)); (with_reducible refine Eff.step ?_ (applyTick_eff ..) ?hc); case hc => rfl)
    | (with_reducible refine Eff.mapGetD ?_ (fun k => ?_))
    | (with_reducible refine Eff.foldl ?_ (fun s x => ?_))
    | dsimp only
    | dsimp only [Option.getD_some, Option.getD_none]
    | split
    | (with_reducible apply Eff.of_rec (s := _))
    | (with_reducible exact .inl rfl)
    | (with_reducible rfl)
    | exact .inr rfl
    | (with_reducible exact .inl ⟨rfl, rfl, rfl, rfl⟩)
    | (with_reducible exact .inl (map_map_keep (fun _ => by first | rfl | ((try dsimp only); split <;> rfl))))
    | simp only [List.length_map, length_mapIf, length_setAt]
    | exact .inr ⟨rfl, by first | exact id | simp only [length_setAt, length_mapIf]⟩
    | exact .inr ⟨rfl, fun h => all_filter h⟩
    | exact .inr ⟨rfl, fun h => wf_set h _ _⟩
    | exact .inr ⟨rfl, fun h => wf_writeN h _ _⟩)

/-! ### Machine/Service.lean -/

theorem closeConn_eff (s : State) (cid : Nat) : Eff [.vectors, .inject, .wire, .sessions, .conns] s (closeConn s cid) := by
  unfold closeConn
  repeat' (first
    | (with_reducible exact Eff.refl _ _)
    | ((with_reducible show Eff _ _ (pump ..)); (with_reducible refine Eff.step ?_ (pump_eff ..) ?hc); case hc => rfl)
    | ((with_reducible show Eff _ _ (setConn ..)); (with_reducible refine Eff.step ?_ (setConn_eff ..) ?hc); case hc => rfl))

theorem sendClose_eff (s : State) (cid : Nat) : Eff [.vectors, .inject, .wire, .sessions, .queues, .conns] s (sendClose s cid) := by
  unfold sendClose
  repeat' (first
    | (with_reducible exact Eff.refl _ _)
    | ((with_reducible show Eff _ _ (submit ..)); (with_reducible refine Eff.step ?_ (submit_eff ..) ?hc); case hc => rfl)
    | split)

theorem evictSlot_eff (s : State) (k : Nat) : Eff [.vectors, .inject, .wire, .keySlots, .sessions, .conns] s (evictSlot s k).1 := by
  unfold evictSlot
  repeat' (first
    | (with_reducible exact Eff.refl _ _)
    | ((with_reducible show Eff _ _ (closeConn ..)); (with_reducible refine Eff.step ?_ (closeConn_eff ..) ?hc); case hc => rfl)
    | (with_reducible refine Eff.foldl ?_ (fun s x => ?_))
    | dsimp only
    | (with_reducible apply Eff.of_rec (s := _))
    | (with_reducible exact .inl rfl)
    | exact .inr rfl
    | (with_reducible exact .inl ⟨rfl, rfl, rfl, rfl⟩))

theorem loadSlot_eff (s : State) (k : KeySlot) (key : List Byte) : Eff [.keySlots, .free] s (loadSlot s k key) := by
  unfold loadSlot
  dsimp only [drawFree, drawBytes]
  repeat' (first
    | (with_reducible exact Eff.refl _ _)
    | dsimp only
    | (with_reducible apply Eff.of_rec (s := _))
    | (with_reducible exact .inl rfl)
    | exact .inr rfl
    | (with_reducible exact .inl ⟨rfl, rfl, rfl, rfl⟩))

theorem remaskNext_eff (s : State) : Eff [.keySlots, .free] s (remaskNext s) := by
  unfold remaskNext
  dsimp only [drawFree, drawBytes]
  repeat' (first
    | (with_reducible assumption)
    | (with_reducible exact Eff.refl _ _)
    | ((with_reducible refine Eff.step ?_ (Eff.snd_of (by assumption) (drawBytes_eff ..)) ?hc); case hc => rfl)
    | ((with_reducible refine Eff.step ?_ (drawBytes_eff ..) ?hc); case hc => rfl)
    | ((with_reducible show Eff _ _ (setKeySlot ..)); (with_reducible refine Eff.step ?_ (setKeySlot_eff ..) ?hc); case hc => rfl)
    | (with_reducible refine Eff.mapGetD ?_ (fun k => ?_))
    | (with_reducible refine Eff.foldl ?_ (fun s x => ?_))
    | dsimp only
    | dsimp only [Option.getD_some, Option.getD_none]
    | split
    | (with_reducible apply Eff.of_rec (s := _))
    | (with_reducible exact .inl rfl)
    | (with_reducible rfl)
    | exact .inr rfl
    | (with_reducible exact .inl ⟨rfl, rfl, rfl, rfl⟩)
    | (with_reducible exact .inl (map_map_keep (fun _ => by first | rfl | ((try dsimp only); split <;> rfl))))
    | simp only [List.length_map, length_mapIf, length_setAt]
    | exact .inr ⟨rfl, by first | exact id | simp only [length_setAt, length_mapIf]⟩
    | exact .inr ⟨rfl, fun h => all_filter h⟩
    | exact .inr ⟨rfl, fun h => wf_set h _ _⟩
    | exact .inr ⟨rfl, fun h => wf_writeN h _ _⟩)

theorem revokeWindow_eff (s : State) (i : Nat) : Eff [.windows] s (revokeWindow s i) := by
  unfold revokeWindow
  repeat' (first
    | (with_reducible exact Eff.refl _ _)
    | dsimp only
    | split
    | (with_reducible apply Eff.of_rec (s := _))
    | (with_reducible exact .inl rfl)
    | exact .inr rfl
    | (with_reducible exact .inl ⟨rfl, rfl, rfl, rfl⟩)
    | exact .inr ⟨rfl, fun h => wf_set h _ _⟩)

theorem zeroScratch_eff (s : State) (g : Nat) (cask : Option Nat) : Eff [.casks] s (zeroScratch s g cask) := by
  unfold zeroScratch
  repeat' (first
    | (with_reducible assumption)
    | (with_reducible exact Eff.refl _ _)
    | ((with_reducible show Eff _ _ (setCask ..)); (with_reducible refine Eff.step ?_ (setCask_eff _ _ _ _ (fun _ hx => by first | (with_reducible exact caskWf_of hx rfl rfl rfl) | (with_reducible exact caskWf_of (caskWf_placeValues hx _ _ _ _ _) rfl rfl rfl) | ((try dsimp only); split <;> (with_reducible exact caskWf_of hx rfl rfl rfl)) | (simp only [caskWf, Bool.and_eq_true, Option.map_none, Option.getD_none, and_true] at hx ⊢; exact hx.1) | exact (caskWf_iff _).mpr ⟨rfl, ((caskWf_iff _).mp hx).2⟩)) ?hc); case hc => rfl)
    | (with_reducible refine Eff.mapGetD ?_ (fun k => ?_))
    | (with_reducible refine Eff.foldl ?_ (fun s x => ?_))
    | dsimp only
    | dsimp only [Option.getD_some, Option.getD_none]
    | split
    | simp only [List.length_map, length_mapIf, length_setAt])

theorem abandon_eff (s : State) (o : Outstanding) : Eff [.gloves, .casks, .vintages] s (abandon s o) := by
  unfold abandon
  repeat' (first
    | (with_reducible assumption)
    | (with_reducible exact Eff.refl _ _)
    | ((with_reducible show Eff _ _ (setVintage ..)); (with_reducible refine Eff.step ?_ (setVintage_eff ..) ?hc); case hc => rfl)
    | ((with_reducible show Eff _ _ (setGlove ..)); (with_reducible refine Eff.step ?_ (setGlove_eff_s _ _ _ (fun _ => by first | (with_reducible rfl) | ((try dsimp only); split <;> (with_reducible rfl)))) ?hc); case hc => rfl)
    | ((with_reducible show Eff _ _ (setGlove ..)); (with_reducible refine Eff.step ?_ (setGlove_eff_g _ _ _ (fun _ => by first | (with_reducible rfl) | ((try dsimp only); split <;> (with_reducible rfl)))) ?hc); case hc => rfl)
    | ((with_reducible show Eff _ _ (setGlove ..)); (with_reducible refine Eff.step ?_ (setGlove_eff _ _ _) ?hc); case hc => rfl)
    | ((with_reducible show Eff _ _ (zeroScratch ..)); (with_reducible refine Eff.step ?_ (zeroScratch_eff ..) ?hc); case hc => rfl)
    | (with_reducible refine Eff.mapGetD ?_ (fun k => ?_))
    | (with_reducible refine Eff.foldl ?_ (fun s x => ?_))
    | dsimp only
    | dsimp only [Option.getD_some, Option.getD_none]
    | split
    | simp only [List.length_map, length_mapIf, length_setAt])

theorem endWaiting_eff (s : State) (o : Outstanding) (a : Answer) : Eff [.vectors, .side, .inject, .wire, .gloves, .sessions, .queues, .outstanding, .conns, .casks, .vintages] s (endWaiting s o a) := by
  unfold endWaiting
  repeat' (first
    | (with_reducible exact Eff.refl _ _)
    | ((with_reducible show Eff _ _ (reply ..)); (with_reducible refine Eff.step ?_ (reply_eff ..) ?hc); case hc => rfl)
    | ((with_reducible show Eff _ _ (abandon ..)); (with_reducible refine Eff.step ?_ (abandon_eff ..) ?hc); case hc => rfl))

theorem preempt_eff (s : State) (rank opcode : Nat) (inScope : Outstanding → Bool) : Eff [.vectors, .side, .inject, .wire, .gloves, .sessions, .queues, .outstanding, .conns, .casks, .vintages] s (preempt s rank opcode inScope).1 := by
  unfold preempt
  repeat' (first
    | (with_reducible exact Eff.refl _ _)
    | ((with_reducible show Eff _ _ (endWaiting ..)); (with_reducible refine Eff.step ?_ (endWaiting_eff ..) ?hc); case hc => rfl)
    | (with_reducible refine Eff.foldl ?_ (fun s x => ?_)))

theorem relayout_eff (s : State) (g cask : Nat) (vats : List Nat) : Eff [.vectors, .int, .sessions, .queues, .conns, .casks] s (relayout s g cask vats) := by
  unfold relayout
  repeat' (first
    | (with_reducible assumption)
    | (with_reducible exact Eff.refl _ _)
    | ((with_reducible show Eff _ _ (dropLines ..)); (with_reducible refine Eff.step ?_ (dropLines_eff ..) ?hc); case hc => rfl)
    | ((with_reducible show Eff _ _ (setCask ..)); (with_reducible refine Eff.step ?_ (setCask_eff _ _ _ _ (fun _ hx => by first | (with_reducible exact caskWf_of hx rfl rfl rfl) | (with_reducible exact caskWf_of (caskWf_placeValues hx _ _ _ _ _) rfl rfl rfl) | ((try dsimp only); split <;> (with_reducible exact caskWf_of hx rfl rfl rfl)) | (simp only [caskWf, Bool.and_eq_true, Option.map_none, Option.getD_none, and_true] at hx ⊢; exact hx.1) | exact (caskWf_iff _).mpr ⟨rfl, ((caskWf_iff _).mp hx).2⟩)) ?hc); case hc => rfl)
    | ((with_reducible show Eff _ _ (startRollback ..)); (with_reducible refine Eff.step ?_ (startRollback_eff ..) ?hc); case hc => rfl)
    | (with_reducible refine Eff.mapGetD ?_ (fun k => ?_))
    | (with_reducible refine Eff.foldl ?_ (fun s x => ?_))
    | dsimp only
    | dsimp only [Option.getD_some, Option.getD_none]
    | split
    | simp only [List.length_map, length_mapIf, length_setAt])

theorem spillEvent_eff (s : State) (c : Cask) : Eff [.vectors, .sessions, .queues] s (spillEvent s c) := by
  unfold spillEvent
  repeat' (first
    | (with_reducible exact Eff.refl _ _)
    | ((with_reducible show Eff _ _ (postEvent ..)); (with_reducible refine Eff.step ?_ (postEvent_eff ..) ?hc); case hc => rfl))

theorem restripeGlove_eff (s : State) (g : Nat) : Eff [.vectors, .int, .gloves, .sessions, .queues, .conns, .casks] s (restripeGlove s g) := by
  unfold restripeGlove
  repeat' (first
    | (with_reducible assumption)
    | (with_reducible exact Eff.refl _ _)
    | ((with_reducible show Eff _ _ (setCask ..)); (with_reducible refine Eff.step ?_ (setCask_eff _ _ _ _ (fun _ hx => by first | (with_reducible exact caskWf_of hx rfl rfl rfl) | (with_reducible exact caskWf_of (caskWf_placeValues hx _ _ _ _ _) rfl rfl rfl) | ((try dsimp only); split <;> (with_reducible exact caskWf_of hx rfl rfl rfl)) | (simp only [caskWf, Bool.and_eq_true, Option.map_none, Option.getD_none, and_true] at hx ⊢; exact hx.1) | exact (caskWf_iff _).mpr ⟨rfl, ((caskWf_iff _).mp hx).2⟩)) ?hc); case hc => rfl)
    | ((with_reducible show Eff _ _ (spillEvent ..)); (with_reducible refine Eff.step ?_ (spillEvent_eff ..) ?hc); case hc => rfl)
    | ((with_reducible show Eff _ _ (relayout ..)); (with_reducible refine Eff.step ?_ (relayout_eff ..) ?hc); case hc => rfl)
    | ((with_reducible show Eff _ _ (setGlove ..)); (with_reducible refine Eff.step ?_ (setGlove_eff_s _ _ _ (fun _ => by first | (with_reducible rfl) | ((try dsimp only); split <;> (with_reducible rfl)))) ?hc); case hc => rfl)
    | ((with_reducible show Eff _ _ (setGlove ..)); (with_reducible refine Eff.step ?_ (setGlove_eff_g _ _ _ (fun _ => by first | (with_reducible rfl) | ((try dsimp only); split <;> (with_reducible rfl)))) ?hc); case hc => rfl)
    | ((with_reducible show Eff _ _ (setGlove ..)); (with_reducible refine Eff.step ?_ (setGlove_eff _ _ _) ?hc); case hc => rfl)
    | (with_reducible refine Eff.mapGetD ?_ (fun k => ?_))
    | (with_reducible refine Eff.foldl ?_ (fun s x => ?_))
    | dsimp only
    | dsimp only [Option.getD_some, Option.getD_none]
    | split
    | (with_reducible apply Eff.of_rec (s := _))
    | (with_reducible exact .inl rfl)
    | (with_reducible rfl)
    | exact .inr rfl
    | (with_reducible exact .inl ⟨rfl, rfl, rfl, rfl⟩)
    | (with_reducible exact .inl (map_map_keep (fun _ => by first | rfl | ((try dsimp only); split <;> rfl))))
    | simp only [List.length_map, length_mapIf, length_setAt]
    | exact .inr ⟨rfl, by first | exact id | simp only [length_setAt, length_mapIf]⟩
    | exact .inr ⟨rfl, fun h => all_filter h⟩
    | exact .inr ⟨rfl, fun h => wf_set h _ _⟩
    | exact .inr ⟨rfl, fun h => wf_writeN h _ _⟩)

theorem settleVats_eff (s : State) : Eff [.vectors, .int, .sessions, .queues] s (settleVats s) := by
  unfold settleVats
  repeat' (first
    | (with_reducible exact Eff.refl _ _)
    | ((with_reducible show Eff _ _ (changeVat ..)); (with_reducible refine Eff.step ?_ (changeVat_eff ..) ?hc); case hc => rfl)
    | (with_reducible refine Eff.foldl ?_ (fun s x => ?_))
    | dsimp only
    | split
    | (with_reducible apply Eff.of_rec (s := _))
    | (with_reducible exact .inl rfl)
    | (with_reducible exact .inl ⟨rfl, rfl, rfl, rfl⟩)
    | exact .inr ⟨rfl, by first | exact id | simp only [length_setAt, length_mapIf]⟩)

theorem beginRestripe_eff (s : State) (g : Nat) : Eff [.gloves] s (beginRestripe s g) := by
  unfold beginRestripe
  repeat' (first
    | (with_reducible exact Eff.refl _ _)
    | ((with_reducible show Eff _ _ (setGlove ..)); (with_reducible refine Eff.step ?_ (setGlove_eff_g _ _ _ (fun _ => by first | (with_reducible rfl) | ((try dsimp only); split <;> (with_reducible rfl)))) ?hc); case hc => rfl))

theorem restripeIdle_eff (s : State) : Eff [.vectors, .int, .gloves, .sessions, .queues] s (restripeIdle s) := by
  unfold restripeIdle
  repeat' (first
    | (with_reducible exact Eff.refl _ _)
    | ((with_reducible show Eff _ _ (settleVats ..)); (with_reducible refine Eff.step ?_ (settleVats_eff ..) ?hc); case hc => rfl)
    | ((with_reducible show Eff _ _ (beginRestripe ..)); (with_reducible refine Eff.step ?_ (beginRestripe_eff ..) ?hc); case hc => rfl)
    | (with_reducible refine Eff.foldl ?_ (fun s x => ?_))
    | split)

theorem evictShares_eff (s : State) (g : Nat) (sel : ThrShare → Bool) : Eff [.gloves] s (evictShares s g sel) := by
  unfold evictShares
  repeat' (first
    | (with_reducible exact Eff.refl _ _)
    | ((with_reducible show Eff _ _ (setGlove ..)); (with_reducible refine Eff.step ?_ (setGlove_eff_g _ _ _ (fun _ => by first | (with_reducible rfl) | ((try dsimp only); split <;> (with_reducible rfl)))) ?hc); case hc => rfl))

theorem boundary_eff (s : State) (g : Nat) : Eff [.vectors, .inject, .wire, .keySlots, .gloves, .sessions, .conns] s (boundary s g) := by
  unfold boundary
  repeat' (first
    | (with_reducible exact Eff.refl _ _)
    | ((with_reducible show Eff _ _ (evictShares ..)); (with_reducible refine Eff.step ?_ (evictShares_eff ..) ?hc); case hc => rfl)
    | ((with_reducible refine Eff.step ?_ (evictSlot_eff ..) ?hc); case hc => rfl)
    | ((with_reducible show Eff _ _ (beginRestripe ..)); (with_reducible refine Eff.step ?_ (beginRestripe_eff ..) ?hc); case hc => rfl)
    | (with_reducible refine Eff.foldl ?_ (fun s x => ?_)))

theorem withholdCask_eff (s : State) (g cask : Nat) : Eff [.vectors, .sessions, .queues, .casks] s (withholdCask s g cask) := by
  unfold withholdCask
  repeat' (first
    | (with_reducible exact Eff.refl _ _)
    | ((with_reducible show Eff _ _ (setCask ..)); (with_reducible refine Eff.step ?_ (setCask_eff _ _ _ _ (fun _ hx => by first | (with_reducible exact caskWf_of hx rfl rfl rfl) | (with_reducible exact caskWf_of (caskWf_placeValues hx _ _ _ _ _) rfl rfl rfl) | ((try dsimp only); split <;> (with_reducible exact caskWf_of hx rfl rfl rfl)) | (simp only [caskWf, Bool.and_eq_true, Option.map_none, Option.getD_none, and_true] at hx ⊢; exact hx.1) | exact (caskWf_iff _).mpr ⟨rfl, ((caskWf_iff _).mp hx).2⟩)) ?hc); case hc => rfl)
    | ((with_reducible show Eff _ _ (postEvent ..)); (with_reducible refine Eff.step ?_ (postEvent_eff ..) ?hc); case hc => rfl))

end Sys2Proof.Machine
end

