-- ==== Sys2Proof/Laws/EffectsWork.lean ====
section
/-! SUPPORT. The effect of each operation of masks, shares and the lattice engine:
the parts of the state it may change (`Eff`, Laws/Effects.lean). -/

set_option autoImplicit false
set_option linter.unusedTactic false
set_option linter.unreachableTactic false
set_option linter.unusedSimpArgs false
set_option Elab.async false

namespace Sys2Proof.Machine

/-! ### Machine/Ledger.lean -/

theorem caskWf_expandInto {c : Cask} (h : caskWf c = true) (minus : Bool) (salt key : List Byte) (n base : Nat) :
    caskWf (expandInto c minus salt key n base) = true := by
  unfold expandInto
  dsimp only
  exact caskWf_foldl (fun _ _ h => caskWf_adjustCoord h _ _ _) _ h

theorem caskWf_applySecret {c : Cask} (h : caskWf c = true) (v : Vintage) (m : Masking) (owner kind value : Nat)
    (reverse : Bool) : caskWf (applySecret v m owner kind value reverse c) = true := by
  unfold applySecret
  split
  · exact caskWf_expandInto h _ _ _ _ _
  · refine caskWf_foldl (fun c u h => ?_) _ h
    split
    · exact caskWf_expandInto h _ _ _ _ _
    · exact h

theorem runCorrections_eff (s : State) (g vid : Nat) : Eff [.casks, .vintages] s (runCorrections s g vid) := by
  unfold runCorrections
  split
  · exact Eff.refl _ _
  split
  · exact Eff.refl _ _
  dsimp only
  split
  · exact Eff.refl _ _
  refine Eff.step (a := [.vintages]) ?_ (setVintage_eff ..) rfl
  refine Eff.foldl (Eff.refl _ _) (fun s c => (setCask_eff _ _ _ _ (fun c h => ?_)).weaken rfl)
  refine caskWf_foldl (fun c x h => ?_) _ h
  try dsimp only
  split
  · exact caskWf_applySecret (caskWf_applySecret h _ _ _ _ _ _) _ _ _ _ _ _
  · exact caskWf_applySecret h _ _ _ _ _ _

theorem redoStripes_eff (s : State) (g cask : Nat) (stripes : List Nat) : Eff [.casks] s (redoStripes s g cask stripes) := by
  unfold redoStripes
  dsimp only
  repeat' (first
    | (with_reducible exact Eff.refl _ _)
    | split)
  refine setCask_eff _ _ _ _ (fun k hk => ?_)
  refine caskWf_of (caskWf_foldl (fun k i hk => ?_) _ hk) rfl rfl rfl
  split
  · exact caskWf_setCoord hk _ _
  · exact hk

theorem closeLedger_eff (s : State) (g vid : Nat) (extra : Nat) : Eff [.vectors, .sessions, .queues, .casks, .vintages] s (closeLedger s g vid extra) := by
  unfold closeLedger
  repeat' (first
    | (with_reducible exact Eff.refl _ _)
    | ((with_reducible show Eff _ _ (setVintage ..)); (with_reducible refine Eff.step ?_ (setVintage_eff ..) ?hc); case hc => rfl)
    | ((with_reducible show Eff _ _ (postEvent ..)); (with_reducible refine Eff.step ?_ (postEvent_eff ..) ?hc); case hc => rfl)
    | ((with_reducible show Eff _ _ (runCorrections ..)); (with_reducible refine Eff.step ?_ (runCorrections_eff ..) ?hc); case hc => rfl)
    | dsimp only
    | split)

theorem settleLedgers_eff (s : State) : Eff [.vectors, .sessions, .queues, .casks, .vintages] s (settleLedgers s) := by
  unfold settleLedgers
  repeat' (first
    | (with_reducible assumption)
    | (with_reducible exact Eff.refl _ _)
    | ((with_reducible show Eff _ _ (closeLedger ..)); (with_reducible refine Eff.step ?_ (closeLedger_eff ..) ?hc); case hc => rfl)
    | (with_reducible refine Eff.mapGetD ?_ (fun k => ?_))
    | (with_reducible refine Eff.foldl ?_ (fun s x => ?_))
    | dsimp only
    | dsimp only [Option.getD_some, Option.getD_none]
    | split
    | simp only [List.length_map, length_mapIf, length_setAt])

/-! ### Machine/Shares.lean -/

theorem judgeShares_eff (p : Packet) (s : State) (v : Vintage) (m : Masking) (records : List (List Byte)) : Eff [.casks, .vintages] s (judgeShares p s v m records).1 := by
  unfold judgeShares
  repeat' (first
    | (with_reducible exact Eff.refl _ _)
    | ((with_reducible show Eff _ _ (setVintage ..)); (with_reducible refine Eff.step ?_ (setVintage_eff ..) ?hc); case hc => rfl)
    | ((with_reducible show Eff _ _ (runCorrections ..)); (with_reducible refine Eff.step ?_ (runCorrections_eff ..) ?hc); case hc => rfl)
    | dsimp only
    | split)

theorem submitShares_eff (p : Packet) (s : State) {x : Done} {t : State} (h : submitShares p s = .ok (t, x)) : Eff [.vectors, .sessions, .queues, .casks, .vintages] s t := by
  unfold submitShares at h
  try dsimp only [bind, Except.bind, Except.map, pure, Except.pure, Option.map] at h
  repeat' (first
    | (split at h)
    | cases h)
  all_goals repeat' (first
    | (with_reducible exact Eff.refl _ _)
    | ((with_reducible refine Eff.step ?_ (readWindow_eff (h := by assumption) ..) ?hc); case hc => rfl)
    | ((with_reducible refine Eff.step ?_ (judgeShares_eff ..) ?hc); case hc => rfl)
    | ((with_reducible show Eff _ _ (closeLedger ..)); (with_reducible refine Eff.step ?_ (closeLedger_eff ..) ?hc); case hc => rfl))

theorem cmdShareSubmit_eff {p : Packet} {s t : State} {x : Done} (h : (cmdShareSubmit).body p s = .ok (t, x)) : Eff [.vectors, .sessions, .queues, .casks, .vintages] s t := by
  unfold cmdShareSubmit at h
  all_goals repeat' (first
    | (with_reducible exact Eff.refl _ _)
    | ((with_reducible refine Eff.step ?_ (submitShares_eff (h := by assumption) ..) ?hc); case hc => rfl))

theorem execShareSubmit_eff (p : Packet) (s : State) {t : State} (h : execShareSubmit p s = .next t) : Eff (.casks :: .vintages :: answering) s t := by
  exact runCmd_eff (fun _ _ _ _ h => (cmdShareSubmit_eff (h := h) ..).weaken rfl) rfl (by first | exact .inl (fun _ _ => rfl) | exact .inr rfl) h

theorem releaseShares_eff (s : State) (g vid : Nat) : Eff [.vectors, .side, .inject, .wire, .sessions, .queues, .outstanding, .conns, .casks, .vintages] s (releaseShares s g vid) := by
  unfold releaseShares
  exact Eff.foldl (Eff.refl _ _) (fun s x => runBody_eff (fun _ _ _ _ h => (cmdShareSubmit_eff (h := h) ..).weaken rfl) rfl _ _)

theorem cmdLedgerQuery_eff {p : Packet} {s t : State} {x : Done} (h : (cmdLedgerQuery).body p s = .ok (t, x)) : Eff [] s t := by
  unfold cmdLedgerQuery at h
  try dsimp only [bind, Except.bind, Except.map, pure, Except.pure, Option.map] at h
  repeat' (first
    | (split at h)
    | cases h)
  all_goals repeat' (first
    | (with_reducible exact Eff.refl _ _))

theorem execLedgerQuery_eff (p : Packet) (s : State) {t : State} (h : execLedgerQuery p s = .next t) : Eff answering s t := by
  exact runCmd_eff (fun _ _ _ _ h => (cmdLedgerQuery_eff (h := h) ..).weaken rfl) rfl (by first | exact .inl (fun _ _ => rfl) | exact .inr rfl) h

/-! ### Machine/Masks.lean -/

theorem want_ok {α : Type} {o : Option α} {st : Status} {d : Nat} {x : α} (h : want o st d = .ok x) : o = some x := by
  cases o with
  | none => cases h
  | some y => cases h; rfl

theorem cmdMaskSetup_eff {p : Packet} {s t : State} {x : Done} (h : (cmdMaskSetup).body p s = .ok (t, x)) : Eff [.hostMem, .vectors, .sessions, .outstanding, .casks, .vintages, .free] s t := by
  unfold cmdMaskSetup at h
  dsimp only at h
  obtain ⟨v, hv, h⟩ := of_bind_ok h
  obtain ⟨_, hv, h⟩ := of_bind_ok h
  revert h
  generalize hr : (if setupSealed p = true then drawBytes s 32 else ([], s)) = r
  intro h
  have h1 : Eff [.hostMem, .vectors, .sessions, .outstanding, .casks, .vintages, .free] s r.2 := by
    rw [← hr]
    split
    · exact (drawBytes_eff ..).weaken rfl
    · exact Eff.refl _ _
  obtain ⟨key, s1⟩ := r
  dsimp only at h h1
  split at h
  · obtain ⟨s3, hw, h⟩ := of_bind_ok h
    cases h
    exact Eff.step (h1.step (setVintage_eff ..) rfl) (writeWindow_eff (h := hw) ..) rfl
  · cases h
    exact h1.step (setVintage_eff ..) rfl

theorem execMaskSetup_eff (p : Packet) (s : State) {t : State} (h : execMaskSetup p s = .next t) : Eff (.hostMem :: .ent :: .gloves :: .casks :: .vintages :: .free :: answering) s t := by
  exact runCmd_eff (fun _ _ _ _ h => (cmdMaskSetup_eff (h := h) ..).weaken rfl) rfl (by first | exact .inl (fun _ _ => rfl) | exact .inr rfl) h

theorem cmdGraphLoad_eff {p : Packet} {s t : State} {x : Done} (h : (cmdGraphLoad).body p s = .ok (t, x)) : Eff [.sessions, .vintages] s t := by
  unfold cmdGraphLoad at h
  try dsimp only [bind, Except.bind, Except.map, pure, Except.pure, Option.map] at h
  repeat' (first
    | (split at h)
    | cases h)
  all_goals repeat' (first
    | (with_reducible exact Eff.refl _ _)
    | ((with_reducible refine Eff.step ?_ (readWindow_eff (h := by assumption) ..) ?hc); case hc => rfl)
    | ((with_reducible show Eff _ _ (setVintage ..)); (with_reducible refine Eff.step ?_ (setVintage_eff ..) ?hc); case hc => rfl))

theorem execGraphLoad_eff (p : Packet) (s : State) {t : State} (h : execGraphLoad p s = .next t) : Eff (.vintages :: answering) s t := by
  exact runCmd_eff (fun _ _ _ _ h => (cmdGraphLoad_eff (h := h) ..).weaken rfl) rfl (by first | exact .inl (fun _ _ => rfl) | exact .inr rfl) h

theorem cmdPubkeyLoad_eff {p : Packet} {s t : State} {x : Done} (h : (cmdPubkeyLoad).body p s = .ok (t, x)) : Eff [.sessions, .vintages] s t := by
  unfold cmdPubkeyLoad at h
  try dsimp only [bind, Except.bind, Except.map, pure, Except.pure, Option.map] at h
  repeat' (first
    | (split at h)
    | cases h)
  all_goals repeat' (first
    | (with_reducible exact Eff.refl _ _)
    | ((with_reducible refine Eff.step ?_ (readWindow_eff (h := by assumption) ..) ?hc); case hc => rfl)
    | ((with_reducible show Eff _ _ (setVintage ..)); (with_reducible refine Eff.step ?_ (setVintage_eff ..) ?hc); case hc => rfl))

theorem execPubkeyLoad_eff (p : Packet) (s : State) {t : State} (h : execPubkeyLoad p s = .next t) : Eff (.vintages :: answering) s t := by
  exact runCmd_eff (fun _ _ _ _ h => (cmdPubkeyLoad_eff (h := h) ..).weaken rfl) rfl (by first | exact .inl (fun _ _ => rfl) | exact .inr rfl) h

theorem cmdMaskKeygen_eff {p : Packet} {s t : State} {x : Done} (h : (cmdMaskKeygen).body p s = .ok (t, x)) : Eff [.hostMem, .vectors, .keySlots, .sessions, .outstanding, .casks, .free] s t := by
  unfold cmdMaskKeygen at h
  try dsimp only [bind, Except.bind, Except.map, pure, Except.pure, Option.map] at h
  repeat' (first
    | (split at h)
    | cases h)
  all_goals repeat' (first
    | (with_reducible exact Eff.refl _ _)
    | ((with_reducible refine Eff.step ?_ (drawBytes_eff ..) ?hc); case hc => rfl)
    | ((with_reducible show Eff _ _ (loadSlot ..)); (with_reducible refine Eff.step ?_ (loadSlot_eff ..) ?hc); case hc => rfl)
    | ((with_reducible refine Eff.step ?_ (writeWindow_eff (h := by assumption) ..) ?hc); case hc => rfl))

theorem execMaskKeygen_eff (p : Packet) (s : State) {t : State} (h : execMaskKeygen p s = .next t) : Eff (.hostMem :: .ent :: .keySlots :: .gloves :: .casks :: .free :: answering) s t := by
  exact runCmd_eff (fun _ _ _ _ h => (cmdMaskKeygen_eff (h := h) ..).weaken rfl) rfl (by first | exact .inl (fun _ _ => rfl) | exact .inr rfl) h

theorem cmdMaskApply_eff {p : Packet} {s t : State} {x : Done} (h : (cmdMaskApply).body p s = .ok (t, x)) : Eff [.keySlots, .sessions, .casks] s t := by
  unfold cmdMaskApply at h
  try dsimp only [bind, Except.bind] at h
  split at h
  · cases h
  next c hc =>
  repeat' (first
    | (split at h)
    | cases h)
  next r hr _ _ =>
  refine Eff.step ?_ (setKeySlot_eff ..) rfl
  refine Eff.cask ((readWindow_eff (h := hr) ..).weaken rfl) (fun hs x hx => ?_) rfl
  refine caskWf_foldl (fun c x h => caskWf_expandInto h ..) _ (caskWf_expandInto (caskOf_wf hs (want_ok hc)) ..)

theorem execMaskApply_eff (p : Packet) (s : State) {t : State} (h : execMaskApply p s = .next t) : Eff (.keySlots :: .casks :: answering) s t := by
  exact runCmd_eff (fun _ _ _ _ h => (cmdMaskApply_eff (h := h) ..).weaken rfl) rfl (by first | exact .inl (fun _ _ => rfl) | exact .inr rfl) h

theorem cmdShareSplit_eff {p : Packet} {s t : State} {x : Done} (h : (cmdShareSplit).body p s = .ok (t, x)) : Eff [.hostMem, .vectors, .keySlots, .sessions, .outstanding, .casks, .free] s t := by
  unfold cmdShareSplit at h
  try dsimp only [bind, Except.bind, Except.map, pure, Except.pure, Option.map] at h
  repeat' (first
    | (split at h)
    | cases h)
  all_goals repeat' (first
    | (with_reducible exact Eff.refl _ _)
    | ((with_reducible refine Eff.step ?_ (readWindow_eff (h := by assumption) ..) ?hc); case hc => rfl)
    | ((with_reducible refine Eff.step ?_ (drawBytes_eff ..) ?hc); case hc => rfl)
    | ((with_reducible refine Eff.step ?_ (writeWindow_eff (h := by assumption) ..) ?hc); case hc => rfl)
    | ((with_reducible show Eff _ _ (setKeySlot ..)); (with_reducible refine Eff.step ?_ (setKeySlot_eff ..) ?hc); case hc => rfl))

theorem execShareSplit_eff (p : Packet) (s : State) {t : State} (h : execShareSplit p s = .next t) : Eff (.hostMem :: .ent :: .keySlots :: .gloves :: .casks :: .free :: answering) s t := by
  exact runCmd_eff (fun _ _ _ _ h => (cmdShareSplit_eff (h := h) ..).weaken rfl) rfl (by first | exact .inl (fun _ _ => rfl) | exact .inr rfl) h

/-! ### Machine/LatticeOps.lean -/

theorem caskWf_empty {c : Cask} (h : caskWf c = true) : caskWf { c with data := [] } = true := caskWf_data h rfl

theorem caskWf_putPoly {c : Cask} (h : caskWf c = true) (size limb i : Nat) (l : List Nat) :
    caskWf (putPoly c size limb i l) = true := caskWf_writeN h _ _

theorem caskWf_putHeader {c : Cask} (h : caskWf c = true) (i : Nat) (x : CtHeader) : caskWf (putHeader c i x) = true := h

theorem caskWf_latWrite (o : LatOp) (p : Packet) (s : State) (set : ParamSet) {d : Cask} (a b : Cask)
    (as bs : List CtHeader) (plan : List (Nat × Nat)) (h : caskWf d = true) :
    caskWf (latWrite o p s set d a b as bs plan) = true := by
  unfold latWrite
  exact caskWf_foldl (fun c i hc =>
    caskWf_putHeader (caskWf_foldl (fun c l hc => caskWf_putPoly hc _ _ _ _) _ hc) _ _) _ h

theorem ctCask_ok {s : State} {g c : Nat} {k : Cask} (h : ctCask s g c = .ok k) : caskOf s g c = some k := by
  exact (Option.filter_eq_some_iff.mp (want_ok h)).1

theorem latCasks_ok {o : LatOp} {p : Packet} {s : State} {x : Cask × Cask × Cask} (h : latCasks o p s = .ok x) :
    ctCask s p.ctx (latDst p) = .ok x.1 := by
  unfold latCasks at h
  obtain ⟨d, hd, h⟩ := of_bind_ok h
  dsimp only [bind, Except.bind] at h
  repeat' split at h
  all_goals first | (cases h; exact hd) | cases h

theorem setKeySet_eff (s : State) (g ks : Nat) (f : KeySet → KeySet) : Eff [.gloves] s (setKeySet s g ks f) := by
  unfold setKeySet
  repeat' (first
    | (with_reducible exact Eff.refl _ _)
    | ((with_reducible show Eff _ _ (setGlove ..)); (with_reducible refine Eff.step ?_ (setGlove_eff_g _ _ _ (fun _ => by first | (with_reducible rfl) | ((try dsimp only); split <;> (with_reducible rfl)))) ?hc); case hc => rfl))

theorem invalidate_eff (s : State) (g cask first n : Nat) : Eff [.casks] s (invalidate s g cask first n) := by
  unfold invalidate
  repeat' (first
    | (with_reducible assumption)
    | (with_reducible exact Eff.refl _ _)
    | ((with_reducible show Eff _ _ (setCask ..)); (with_reducible refine Eff.step ?_ (setCask_eff _ _ _ _ (fun _ hx => by first | (with_reducible exact caskWf_of hx rfl rfl rfl) | (with_reducible exact caskWf_of (caskWf_placeValues hx _ _ _ _ _) rfl rfl rfl) | ((try dsimp only); split <;> (with_reducible exact caskWf_of hx rfl rfl rfl)) | (simp only [caskWf, Bool.and_eq_true, Option.map_none, Option.getD_none, and_true] at hx ⊢; exact hx.1) | exact (caskWf_iff _).mpr ⟨rfl, ((caskWf_iff _).mp hx).2⟩)) ?hc); case hc => rfl)
    | (with_reducible refine Eff.mapGetD ?_ (fun k => ?_))
    | (with_reducible refine Eff.foldl ?_ (fun s x => ?_))
    | dsimp only
    | dsimp only [Option.getD_some, Option.getD_none]
    | split
    | simp only [List.length_map, length_mapIf, length_setAt])

theorem latFaulted_eff (s : State) (g cask first n : Nat) (scratch : Option Nat) : Eff [.int, .casks] s (latFaulted s g cask first n scratch) := by
  unfold latFaulted
  repeat' (first
    | (with_reducible assumption)
    | (with_reducible exact Eff.refl _ _)
    | ((with_reducible show Eff _ _ (zeroScratch ..)); (with_reducible refine Eff.step ?_ (zeroScratch_eff ..) ?hc); case hc => rfl)
    | ((with_reducible show Eff _ _ (invalidate ..)); (with_reducible refine Eff.step ?_ (invalidate_eff ..) ?hc); case hc => rfl)
    | (with_reducible refine Eff.mapGetD ?_ (fun k => ?_))
    | (with_reducible refine Eff.foldl ?_ (fun s x => ?_))
    | dsimp only
    | dsimp only [Option.getD_some, Option.getD_none]
    | split
    | (with_reducible apply Eff.of_rec (s := _))
    | (with_reducible exact .inl rfl)
    | (with_reducible rfl)
    | exact .inr rfl
    | (with_reducible exact .inl ⟨rfl, rfl, rfl, rfl⟩)
    | (with_reducible exact .inl (map_map_keep (fun _ => by first | rfl | ((try dsimp only); split <;> rfl))))
    | simp only [List.length_map, length_mapIf, length_setAt]
    | exact .inr ⟨rfl, by first | exact id | simp only [length_setAt, length_mapIf]⟩
    | exact .inr ⟨rfl, fun h => all_filter h⟩
    | exact .inr ⟨rfl, fun h => wf_set h _ _⟩
    | exact .inr ⟨rfl, fun h => wf_writeN h _ _⟩)

theorem endTouched_eff (s : State) (o : Outstanding) : Eff [.vectors, .side, .inject, .wire, .gloves, .sessions, .queues, .outstanding, .conns, .casks, .vintages] s (endTouched s o) := by
  unfold endTouched
  repeat' (first
    | (with_reducible assumption)
    | (with_reducible exact Eff.refl _ _)
    | ((with_reducible show Eff _ _ (invalidate ..)); (with_reducible refine Eff.step ?_ (invalidate_eff ..) ?hc); case hc => rfl)
    | ((with_reducible show Eff _ _ (endWaiting ..)); (with_reducible refine Eff.step ?_ (endWaiting_eff ..) ?hc); case hc => rfl)
    | (with_reducible refine Eff.mapGetD ?_ (fun k => ?_))
    | (with_reducible refine Eff.foldl ?_ (fun s x => ?_))
    | dsimp only
    | dsimp only [Option.getD_some, Option.getD_none]
    | split
    | simp only [List.length_map, length_mapIf, length_setAt])

theorem latEffect_eff (o : LatOp) (p : Packet) (s : State) (set : ParamSet) {d : Cask} (a b : Cask)
    (plan : List (Nat × Nat)) (hd : ShapeOk s → caskWf d = true) : Eff [.gloves, .casks, .free] s (latEffect o p s set d a b plan).1 := by
  have h1 : Eff [.gloves, .casks, .free] s (setCask s p.ctx d.id fun _ => latWrite o p s set d a b (latAs o p a) (latBs o p b) plan) :=
    Eff.cask (Eff.refl _ _) (fun hs _ _ => caskWf_latWrite o p s set a b _ _ plan (hd hs)) rfl
  unfold latEffect
  dsimp only
  refine Eff.step ?_ (setGlove_eff_g _ _ _ (fun _ => rfl)) rfl
  have h2 : ∀ {u : State}, Eff [.gloves, .casks, .free] s u → Eff [.gloves, .casks, .free] s { u with free := u.free + 2 } := fun {u} hu => by
    apply Eff.of_rec (s := u) hu
    all_goals first | (with_reducible exact .inl rfl) | (with_reducible rfl) | exact .inr rfl | (with_reducible exact .inl ⟨rfl, rfl, rfl, rfl⟩)
  refine h2 ?_
  split
  · exact h1.step (setCask_eff _ _ _ _ fun _ h => caskWf_empty h) rfl
  · exact h1

theorem latChecks_ok {o : LatOp} {p : Packet} {s : State} {d a b : Cask} {set : ParamSet} {plan : List (Nat × Nat)}
    (h : latChecks o p s = .ok ((d, a, b), set, plan)) : caskOf s p.ctx (latDst p) = some d := by
  unfold latChecks at h
  obtain ⟨c, hc, h⟩ := of_bind_ok h
  obtain ⟨k, hk, h⟩ := of_bind_ok h
  obtain ⟨ps, hps, h⟩ := of_bind_ok h
  obtain ⟨_, _, h⟩ := of_bind_ok h
  obtain ⟨_, _, h⟩ := of_bind_ok h
  obtain ⟨_, _, h⟩ := of_bind_ok h
  obtain ⟨_, _, h⟩ := of_bind_ok h
  obtain ⟨plan, hp, h⟩ := of_bind_ok h
  cases h
  exact ctCask_ok (latCasks_ok hc)

theorem latWork_eff (o : LatOp) (p : Packet) (s : State) (set : ParamSet) {d : Cask} (a b : Cask) (plan : List (Nat × Nat))
    (scratch : Option Nat) (hd : ShapeOk s → caskWf d = true) :
    Eff [.int, .gloves, .casks, .free] s (latWork o p s set d a b plan scratch).1 := by
  unfold latWork
  split
  · exact (latFaulted_eff ..).weaken rfl
  · exact (latEffect_eff o p s set a b plan hd).weaken rfl

theorem latBody_eff (o : LatOp) (p : Packet) (s : State) {x : Done} {t : State} (h : latBody o p s = .ok (t, x)) : Eff [.int, .gloves, .casks, .free] s t := by
  unfold latBody at h
  obtain ⟨⟨⟨d, a, b⟩, set, plan⟩, hc, h⟩ := of_bind_ok h
  have h := ok_fst h
  subst h
  exact latWork_eff o p s set a b plan _ (fun hs => caskOf_wf hs (latChecks_ok hc))

theorem latComplete_eff (o : LatOp) (w : Outstanding) (p : Packet) (s : State) {x : Done} {t : State} (h : latComplete o w p s = .ok (t, x)) : Eff [.int, .gloves, .casks, .free] s t := by
  unfold latComplete at h
  obtain ⟨d, hd, h⟩ := of_bind_ok h
  obtain ⟨a, _, h⟩ := of_bind_ok h
  obtain ⟨b, _, h⟩ := of_bind_ok h
  obtain ⟨set, _, h⟩ := of_bind_ok h
  have h := ok_fst h
  subst h
  refine latWork_eff o p s set a b w.plan _ (fun hs => caskOf_wf hs (g := p.ctx) (c := latDst p) ?_)
  cases hc : caskOf s p.ctx (latDst p) with
  | none => rw [hc] at hd; cases hd
  | some k => rw [hc] at hd; cases hd; rfl

theorem latCmd_eff (o : LatOp) (draw : Packet → State → Option (Nat × Nat)) {p : Packet} {s t : State} {x : Done} (h : (latCmd o draw).body p s = .ok (t, x)) : Eff [.int, .gloves, .casks, .free] s t := by
  unfold latCmd at h
  all_goals repeat' (first
    | (with_reducible exact Eff.refl _ _)
    | ((with_reducible refine Eff.step ?_ (latBody_eff (h := by assumption) ..) ?hc); case hc => rfl))

/-! ### Machine/LatticeSets.lean -/

theorem cmdLatParamLoad_eff {p : Packet} {s t : State} {x : Done} (h : (cmdLatParamLoad).body p s = .ok (t, x)) : Eff [.gloves] s t := by
  unfold cmdLatParamLoad at h
  try dsimp only [bind, Except.bind, Except.map, pure, Except.pure, Option.map] at h
  repeat' (first
    | (split at h)
    | cases h)
  all_goals repeat' (first
    | (with_reducible exact Eff.refl _ _)
    | ((with_reducible show Eff _ _ (setGlove ..)); (with_reducible refine Eff.step ?_ (setGlove_eff_g _ _ _ (fun _ => by first | (with_reducible rfl) | ((try dsimp only); split <;> (with_reducible rfl)))) ?hc); case hc => rfl))

theorem execLatParamLoad_eff (p : Packet) (s : State) {t : State} (h : execLatParamLoad p s = .next t) : Eff (.gloves :: answering) s t := by
  exact runCmd_eff (fun _ _ _ _ h => (cmdLatParamLoad_eff (h := h) ..).weaken rfl) rfl (by first | exact .inl (fun _ _ => rfl) | exact .inr rfl) h

theorem cmdLatUnload_eff {p : Packet} {s t : State} {x : Done} (h : (cmdLatUnload).body p s = .ok (t, x)) : Eff [.gloves] s t := by
  unfold cmdLatUnload at h
  repeat' (first
    | (replace h := ok_fst h; subst h))
  all_goals repeat' (first
    | (with_reducible exact Eff.refl _ _)
    | ((with_reducible show Eff _ _ (setGlove ..)); (with_reducible refine Eff.step ?_ (setGlove_eff_g _ _ _ (fun _ => by first | (with_reducible rfl) | ((try dsimp only); split <;> (with_reducible rfl)))) ?hc); case hc => rfl))

theorem execLatUnload_eff (p : Packet) (s : State) {t : State} (h : execLatUnload p s = .next t) : Eff (.gloves :: answering) s t := by
  exact runCmd_eff (fun _ _ _ _ h => (cmdLatUnload_eff (h := h) ..).weaken rfl) rfl (by first | exact .inl (fun _ _ => rfl) | exact .inr rfl) h

theorem cmdLatKeysetCreate_eff {p : Packet} {s t : State} {x : Done} (h : (cmdLatKeysetCreate).body p s = .ok (t, x)) : Eff [.gloves] s t := by
  unfold cmdLatKeysetCreate at h
  try dsimp only [bind, Except.bind, Except.map, pure, Except.pure, Option.map] at h
  repeat' (first
    | (split at h)
    | cases h)
  all_goals repeat' (first
    | (with_reducible exact Eff.refl _ _)
    | ((with_reducible show Eff _ _ (setGlove ..)); (with_reducible refine Eff.step ?_ (setGlove_eff_g _ _ _ (fun _ => by first | (with_reducible rfl) | ((try dsimp only); split <;> (with_reducible rfl)))) ?hc); case hc => rfl))

theorem execLatKeysetCreate_eff (p : Packet) (s : State) {t : State} (h : execLatKeysetCreate p s = .next t) : Eff (.gloves :: answering) s t := by
  exact runCmd_eff (fun _ _ _ _ h => (cmdLatKeysetCreate_eff (h := h) ..).weaken rfl) rfl (by first | exact .inl (fun _ _ => rfl) | exact .inr rfl) h

theorem cmdLatEvkLoad_eff {p : Packet} {s t : State} {x : Done} (h : (cmdLatEvkLoad).body p s = .ok (t, x)) : Eff [.gloves, .sessions] s t := by
  unfold cmdLatEvkLoad at h
  obtain ⟨k, _, h⟩ := of_bind_ok h
  obtain ⟨set, _, h⟩ := of_bind_ok h
  obtain ⟨_, _, h⟩ := of_bind_ok h
  obtain ⟨⟨head, s1⟩, h1, h⟩ := of_bind_ok h
  obtain ⟨shape, _, h⟩ := of_bind_ok h
  obtain ⟨_, _, h⟩ := of_bind_ok h
  obtain ⟨_, _, h⟩ := of_bind_ok h
  obtain ⟨_, _, h⟩ := of_bind_ok h
  obtain ⟨⟨body, s2⟩, h2, h⟩ := of_bind_ok h
  obtain ⟨_, _, h⟩ := of_bind_ok h
  obtain ⟨_, _, h⟩ := of_bind_ok h
  obtain ⟨_, _, h⟩ := of_bind_ok h
  have h := ok_fst h
  subst h
  refine Eff.step (a := [.gloves]) ?_ (setKeySet_eff ..) rfl
  exact ((readWindow_eff (h := h1) ..).weaken rfl).step (readWindow_eff (h := h2) ..) rfl

theorem execLatEvkLoad_eff (p : Packet) (s : State) {t : State} (h : execLatEvkLoad p s = .next t) : Eff (.gloves :: answering) s t := by
  exact runCmd_eff (fun _ _ _ _ h => (cmdLatEvkLoad_eff (h := h) ..).weaken rfl) rfl (by first | exact .inl (fun _ _ => rfl) | exact .inr rfl) h

theorem cmdLatBind_eff {p : Packet} {s t : State} {x : Done} (h : (cmdLatBind).body p s = .ok (t, x)) : Eff [.gloves, .casks] s t := by
  unfold cmdLatBind at h
  obtain ⟨c, hc, h⟩ := of_bind_ok h
  obtain ⟨ps, _, h⟩ := of_bind_ok h
  obtain ⟨_, _, h⟩ := of_bind_ok h
  obtain ⟨_, _, h⟩ := of_bind_ok h
  have h := ok_fst h
  subst h
  refine Eff.step (a := [.gloves]) ?_ (setGlove_eff_g _ _ _ (fun _ => rfl)) rfl
  refine Eff.step (a := [.casks]) (Eff.refl _ _) (setCask_eff _ _ _ _ fun c h => ?_) rfl
  exact caskWf_of h rfl rfl rfl

theorem execLatBind_eff (p : Packet) (s : State) {t : State} (h : execLatBind p s = .next t) : Eff (.gloves :: .casks :: answering) s t := by
  exact runCmd_eff (fun _ _ _ _ h => (cmdLatBind_eff (h := h) ..).weaken rfl) rfl (by first | exact .inl (fun _ _ => rfl) | exact .inr rfl) h

theorem cmdLatImport_eff {p : Packet} {s t : State} {x : Done} (h : (cmdLatImport).body p s = .ok (t, x)) : Eff [.gloves, .casks] s t := by
  unfold cmdLatImport at h
  obtain ⟨c, hc, h⟩ := of_bind_ok h
  obtain ⟨b, _, h⟩ := of_bind_ok h
  obtain ⟨ps, _, h⟩ := of_bind_ok h
  cases h
  refine Eff.step ?_ (setGlove_eff_g _ _ _ (fun _ => rfl)) rfl
  exact (setCask_eff _ _ _ _ fun c h => caskWf_foldl (fun c i h => caskWf_putHeader h _ _) _ h).weaken rfl

theorem execLatImport_eff (p : Packet) (s : State) {t : State} (h : execLatImport p s = .next t) : Eff (.gloves :: .casks :: answering) s t := by
  exact runCmd_eff (fun _ _ _ _ h => (cmdLatImport_eff (h := h) ..).weaken rfl) rfl (by first | exact .inl (fun _ _ => rfl) | exact .inr rfl) h

theorem cmdLatHdrRead_eff {p : Packet} {s t : State} {x : Done} (h : (cmdLatHdrRead).body p s = .ok (t, x)) : Eff [.hostMem, .vectors, .sessions, .outstanding, .casks] s t := by
  unfold cmdLatHdrRead at h
  try dsimp only [bind, Except.bind, Except.map, pure, Except.pure, Option.map] at h
  repeat' (first
    | (split at h)
    | cases h)
  all_goals repeat' (first
    | (with_reducible exact Eff.refl _ _)
    | ((with_reducible refine Eff.step ?_ (writeWindow_eff (h := by assumption) ..) ?hc); case hc => rfl))

theorem execLatHdrRead_eff (p : Packet) (s : State) {t : State} (h : execLatHdrRead p s = .next t) : Eff (.hostMem :: .casks :: answering) s t := by
  exact runCmd_eff (fun _ _ _ _ h => (cmdLatHdrRead_eff (h := h) ..).weaken rfl) rfl (by first | exact .inl (fun _ _ => rfl) | exact .inr rfl) h

/-! ### Machine/Lattice.lean -/

theorem execLatAdd_eff (p : Packet) (s : State) {t : State} (h : execLatAdd p s = .next t) : Eff (.ent :: .int :: .gloves :: .casks :: .free :: answering) s t := by
  exact runCmd_eff (fun _ _ _ _ h => (latCmd_eff (h := h) ..).weaken rfl) rfl (by first | exact .inl (fun _ _ => rfl) | exact .inr rfl) h

theorem execLatSub_eff (p : Packet) (s : State) {t : State} (h : execLatSub p s = .next t) : Eff (.ent :: .int :: .gloves :: .casks :: .free :: answering) s t := by
  exact runCmd_eff (fun _ _ _ _ h => (latCmd_eff (h := h) ..).weaken rfl) rfl (by first | exact .inl (fun _ _ => rfl) | exact .inr rfl) h

theorem execLatMulConst_eff (p : Packet) (s : State) {t : State} (h : execLatMulConst p s = .next t) : Eff (.ent :: .int :: .gloves :: .casks :: .free :: answering) s t := by
  exact runCmd_eff (fun _ _ _ _ h => (latCmd_eff (h := h) ..).weaken rfl) rfl (by first | exact .inl (fun _ _ => rfl) | exact .inr rfl) h

theorem execLatMulPlain_eff (p : Packet) (s : State) {t : State} (h : execLatMulPlain p s = .next t) : Eff (.ent :: .int :: .gloves :: .casks :: .free :: answering) s t := by
  exact runCmd_eff (fun _ _ _ _ h => (latCmd_eff (h := h) ..).weaken rfl) rfl (by first | exact .inl (fun _ _ => rfl) | exact .inr rfl) h

theorem execLatMul_eff (p : Packet) (s : State) {t : State} (h : execLatMul p s = .next t) : Eff (.ent :: .int :: .gloves :: .casks :: .free :: answering) s t := by
  exact runCmd_eff (fun _ _ _ _ h => (latCmd_eff (h := h) ..).weaken rfl) rfl (by first | exact .inl (fun _ _ => rfl) | exact .inr rfl) h

theorem execLatRotate_eff (p : Packet) (s : State) {t : State} (h : execLatRotate p s = .next t) : Eff (.ent :: .int :: .gloves :: .casks :: .free :: answering) s t := by
  exact runCmd_eff (fun _ _ _ _ h => (latCmd_eff (h := h) ..).weaken rfl) rfl (by first | exact .inl (fun _ _ => rfl) | exact .inr rfl) h

theorem execLatRescale_eff (p : Packet) (s : State) {t : State} (h : execLatRescale p s = .next t) : Eff (.ent :: .int :: .gloves :: .casks :: .free :: answering) s t := by
  exact runCmd_eff (fun _ _ _ _ h => (latCmd_eff (h := h) ..).weaken rfl) rfl (by first | exact .inl (fun _ _ => rfl) | exact .inr rfl) h

theorem execLatLevelDrop_eff (p : Packet) (s : State) {t : State} (h : execLatLevelDrop p s = .next t) : Eff (.ent :: .int :: .gloves :: .casks :: .free :: answering) s t := by
  exact runCmd_eff (fun _ _ _ _ h => (latCmd_eff (h := h) ..).weaken rfl) rfl (by first | exact .inl (fun _ _ => rfl) | exact .inr rfl) h

theorem execLatForm_eff (p : Packet) (s : State) {t : State} (h : execLatForm p s = .next t) : Eff (.ent :: .int :: .gloves :: .casks :: .free :: answering) s t := by
  exact runCmd_eff (fun _ _ _ _ h => (latCmd_eff (h := h) ..).weaken rfl) rfl (by first | exact .inl (fun _ _ => rfl) | exact .inr rfl) h

theorem execLatEncryptPk_eff (p : Packet) (s : State) {t : State} (h : execLatEncryptPk p s = .next t) : Eff (.ent :: .int :: .gloves :: .casks :: .free :: answering) s t := by
  exact runCmd_eff (fun _ _ _ _ h => (latCmd_eff (h := h) ..).weaken rfl) rfl (by first | exact .inl (fun _ _ => rfl) | exact .inr rfl) h

/-! ### Machine/Refresh.lean -/

theorem cmdRefreshSetup_eff {p : Packet} {s t : State} {x : Done} (h : (cmdRefreshSetup).body p s = .ok (t, x)) : Eff [.gloves] s t := by
  unfold cmdRefreshSetup at h
  try dsimp only [bind, Except.bind, Except.map, pure, Except.pure, Option.map] at h
  repeat' (first
    | (split at h)
    | cases h)
  all_goals repeat' (first
    | (with_reducible exact Eff.refl _ _)
    | ((with_reducible show Eff _ _ (setKeySet ..)); (with_reducible refine Eff.step ?_ (setKeySet_eff ..) ?hc); case hc => rfl))

theorem execRefreshSetup_eff (p : Packet) (s : State) {t : State} (h : execRefreshSetup p s = .next t) : Eff (.gloves :: answering) s t := by
  exact runCmd_eff (fun _ _ _ _ h => (cmdRefreshSetup_eff (h := h) ..).weaken rfl) rfl (by first | exact .inl (fun _ _ => rfl) | exact .inr rfl) h

theorem cmdLutLoad_eff {p : Packet} {s t : State} {x : Done} (h : (cmdLutLoad).body p s = .ok (t, x)) : Eff [.gloves, .sessions] s t := by
  unfold cmdLutLoad at h
  try dsimp only [bind, Except.bind, Except.map, pure, Except.pure, Option.map] at h
  repeat' (first
    | (split at h)
    | cases h)
  all_goals repeat' (first
    | (with_reducible exact Eff.refl _ _)
    | ((with_reducible refine Eff.step ?_ (readWindow_eff (h := by assumption) ..) ?hc); case hc => rfl)
    | ((with_reducible show Eff _ _ (setKeySet ..)); (with_reducible refine Eff.step ?_ (setKeySet_eff ..) ?hc); case hc => rfl))

theorem execLutLoad_eff (p : Packet) (s : State) {t : State} (h : execLutLoad p s = .next t) : Eff (.gloves :: answering) s t := by
  exact runCmd_eff (fun _ _ _ _ h => (cmdLutLoad_eff (h := h) ..).weaken rfl) rfl (by first | exact .inl (fun _ _ => rfl) | exact .inr rfl) h

theorem cmdLutFree_eff {p : Packet} {s t : State} {x : Done} (h : (cmdLutFree).body p s = .ok (t, x)) : Eff [.gloves] s t := by
  unfold cmdLutFree at h
  repeat' (first
    | (replace h := ok_fst h; subst h))
  all_goals repeat' (first
    | (with_reducible exact Eff.refl _ _)
    | ((with_reducible show Eff _ _ (setKeySet ..)); (with_reducible refine Eff.step ?_ (setKeySet_eff ..) ?hc); case hc => rfl))

theorem execLutFree_eff (p : Packet) (s : State) {t : State} (h : execLutFree p s = .next t) : Eff (.gloves :: answering) s t := by
  exact runCmd_eff (fun _ _ _ _ h => (cmdLutFree_eff (h := h) ..).weaken rfl) rfl (by first | exact .inl (fun _ _ => rfl) | exact .inr rfl) h

theorem execRefreshPacked_eff (p : Packet) (s : State) {t : State} (h : execRefreshPacked p s = .next t) : Eff (.ent :: .int :: .gloves :: .casks :: .free :: answering) s t := by
  exact runCmd_eff (fun _ _ _ _ h => (latCmd_eff (h := h) ..).weaken rfl) rfl (by first | exact .inl (fun _ _ => rfl) | exact .inr rfl) h

theorem execRefreshLwe_eff (p : Packet) (s : State) {t : State} (h : execRefreshLwe p s = .next t) : Eff (.ent :: .int :: .gloves :: .casks :: .free :: answering) s t := by
  exact runCmd_eff (fun _ _ _ _ h => (latCmd_eff (h := h) ..).weaken rfl) rfl (by first | exact .inl (fun _ _ => rfl) | exact .inr rfl) h

theorem execSchemeSwitch_eff (p : Packet) (s : State) {t : State} (h : execSchemeSwitch p s = .next t) : Eff (.ent :: .int :: .gloves :: .casks :: .free :: answering) s t := by
  exact runCmd_eff (fun _ _ _ _ h => (latCmd_eff (h := h) ..).weaken rfl) rfl (by first | exact .inl (fun _ _ => rfl) | exact .inr rfl) h

/-! ### Machine/Threshold.lean -/

theorem chargeSlot_eff (s : State) (slot : Nat) : Eff [.keySlots] s (chargeSlot s slot) := by
  unfold chargeSlot
  repeat' (first
    | (with_reducible exact Eff.refl _ _)
    | ((with_reducible show Eff _ _ (setKeySlot ..)); (with_reducible refine Eff.step ?_ (setKeySlot_eff ..) ?hc); case hc => rfl))

theorem cmdThrShareLoad_eff {p : Packet} {s t : State} {x : Done} (h : (cmdThrShareLoad).body p s = .ok (t, x)) : Eff [.keySlots, .gloves, .sessions, .free] s t := by
  unfold cmdThrShareLoad at h
  obtain ⟨ps, hc, h⟩ := of_bind_ok h
  obtain ⟨slot, _, h⟩ := of_bind_ok h
  obtain ⟨_, _, h⟩ := of_bind_ok h
  obtain ⟨⟨blob, s1⟩, hr, h⟩ := of_bind_ok h
  obtain ⟨_, _, h⟩ := of_bind_ok h
  obtain ⟨_, _, h⟩ := of_bind_ok h
  have h := ok_fst h
  subst h
  refine Eff.step (a := [.keySlots]) ?_ (chargeSlot_eff ..) rfl
  refine Eff.step (a := [.gloves]) ?_ (setKeySet_eff ..) rfl
  exact ((readWindow_eff (h := hr) ..).weaken rfl).step (drawBytes_eff s1 (8 * ps.limbs * 2 ^ ps.log2N)) rfl

theorem execThrShareLoad_eff (p : Packet) (s : State) {t : State} (h : execThrShareLoad p s = .next t) : Eff (.ent :: .keySlots :: .gloves :: .free :: answering) s t := by
  exact runCmd_eff (fun _ _ _ _ h => (cmdThrShareLoad_eff (h := h) ..).weaken rfl) rfl (by first | exact .inl (fun _ _ => rfl) | exact .inr rfl) h

theorem chargeAllowance_eff (s : State) (g vid n : Nat) : Eff [.gloves, .vintages] s (chargeAllowance s g vid n) := by
  unfold chargeAllowance
  repeat' (first
    | (with_reducible exact Eff.refl _ _)
    | ((with_reducible show Eff _ _ (setGlove ..)); (with_reducible refine Eff.step ?_ (setGlove_eff_g _ _ _ (fun _ => by first | (with_reducible rfl) | ((try dsimp only); split <;> (with_reducible rfl)))) ?hc); case hc => rfl)
    | ((with_reducible show Eff _ _ (setVintage ..)); (with_reducible refine Eff.step ?_ (setVintage_eff ..) ?hc); case hc => rfl))

theorem resplitShare_eff (s : State) (set : ParamSet) (share : ThrShare) : Eff [.free] s (resplitShare s set share).2 := by
  unfold resplitShare
  dsimp only [drawFree, drawBytes]
  repeat' (first
    | (with_reducible exact Eff.refl _ _)
    | dsimp only
    | (with_reducible apply Eff.of_rec (s := _))
    | (with_reducible exact .inl rfl)
    | exact .inr rfl
    | (with_reducible exact .inl ⟨rfl, rfl, rfl, rfl⟩))

theorem floodedPartials_eff (p : Packet) (s0 : State) (set : ParamSet) (share : ThrShare) (c : Cask) (hs : List CtHeader) (s : State) : Eff [.free] s (floodedPartials p s0 set share c hs s).2 := by
  unfold floodedPartials
  exact Eff.foldl_snd (Eff.refl _ _) fun acc x =>
    drawBytes_eff acc.2 (2 ^ set.log2N * ((floodWidth (hs.getD x default) share.margin + 72) / 8))

theorem thrWork_eff (p : Packet) (s : State) (c : Cask) (set : ParamSet) (share : ThrShare) {x : Done} {t : State} (h : thrWork p s c set share = .ok (t, x)) : Eff [.hostMem, .vectors, .int, .gloves, .sessions, .outstanding, .casks, .vintages, .free] s t := by
  unfold thrWork at h
  try dsimp only [bind, Except.bind, Except.map, pure, Except.pure, Option.map] at h
  repeat' (first
    | (split at h)
    | (replace h := ok_fst h; subst h)
    | (replace h := Except.ok.inj h; subst h)
    | (replace h := Host.Outcome.next.inj h; subst h)
    | (replace h := Option.some.inj h; subst h)
    | cases h
    | (dsimp only at h))
  all_goals repeat' (first
    | (with_reducible assumption)
    | (with_reducible exact Eff.refl _ _)
    | ((with_reducible refine Eff.step ?_ (Eff.snd_of (by assumption) (resplitShare_eff ..)) ?hc); case hc => rfl)
    | ((with_reducible refine Eff.step ?_ (resplitShare_eff ..) ?hc); case hc => rfl)
    | ((with_reducible show Eff _ _ (setKeySet ..)); (with_reducible refine Eff.step ?_ (setKeySet_eff ..) ?hc); case hc => rfl)
    | ((with_reducible refine Eff.step ?_ (Eff.snd_of (by assumption) (floodedPartials_eff ..)) ?hc); case hc => rfl)
    | ((with_reducible refine Eff.step ?_ (floodedPartials_eff ..) ?hc); case hc => rfl)
    | ((with_reducible refine Eff.step ?_ (writeWindow_eff (h := by assumption) ..) ?hc); case hc => rfl)
    | ((with_reducible show Eff _ _ (chargeAllowance ..)); (with_reducible refine Eff.step ?_ (chargeAllowance_eff ..) ?hc); case hc => rfl)
    | (with_reducible refine Eff.mapGetD ?_ (fun k => ?_))
    | (with_reducible refine Eff.foldl ?_ (fun s x => ?_))
    | dsimp only
    | dsimp only [Option.getD_some, Option.getD_none]
    | split
    | (with_reducible apply Eff.of_rec (s := _))
    | (with_reducible exact .inl rfl)
    | (with_reducible rfl)
    | exact .inr rfl
    | (with_reducible exact .inl ⟨rfl, rfl, rfl, rfl⟩)
    | (with_reducible exact .inl (map_map_keep (fun _ => by first | rfl | ((try dsimp only); split <;> rfl))))
    | simp only [List.length_map, length_mapIf, length_setAt]
    | exact .inr ⟨rfl, by first | exact id | simp only [length_setAt, length_mapIf]⟩
    | exact .inr ⟨rfl, fun h => all_filter h⟩
    | exact .inr ⟨rfl, fun h => wf_set h _ _⟩
    | exact .inr ⟨rfl, fun h => wf_writeN h _ _⟩)

theorem cmdThrPartial_eff {p : Packet} {s t : State} {x : Done} (h : (cmdThrPartial).body p s = .ok (t, x)) : Eff [.hostMem, .vectors, .int, .gloves, .sessions, .outstanding, .casks, .vintages, .free] s t := by
  unfold cmdThrPartial at h
  try dsimp only [bind, Except.bind, Except.map, pure, Except.pure, Option.map] at h
  repeat' (first
    | (split at h)
    | (replace h := ok_fst h; subst h)
    | (replace h := Except.ok.inj h; subst h)
    | (replace h := Host.Outcome.next.inj h; subst h)
    | (replace h := Option.some.inj h; subst h)
    | cases h
    | (dsimp only at h))
  all_goals repeat' (first
    | (with_reducible assumption)
    | (with_reducible exact Eff.refl _ _)
    | ((with_reducible refine Eff.step ?_ (thrWork_eff (h := by assumption) ..) ?hc); case hc => rfl)
    | (with_reducible refine Eff.mapGetD ?_ (fun k => ?_))
    | (with_reducible refine Eff.foldl ?_ (fun s x => ?_))
    | dsimp only
    | dsimp only [Option.getD_some, Option.getD_none]
    | split
    | simp only [List.length_map, length_mapIf, length_setAt])

theorem execThrPartial_eff (p : Packet) (s : State) {t : State} (h : execThrPartial p s = .next t) : Eff (.hostMem :: .ent :: .int :: .gloves :: .casks :: .vintages :: .free :: answering) s t := by
  exact runCmd_eff (fun _ _ _ _ h => (cmdThrPartial_eff (h := h) ..).weaken rfl) rfl (by first | exact .inl (fun _ _ => rfl) | exact .inr rfl) h

end Sys2Proof.Machine
end

