-- ==== Sys2Proof/Laws/EffectsKeys.lean ====
section
/-! SUPPORT. The effect of each operation of keys and firmware:
the parts of the state it may change (`Eff`, Laws/Effects.lean). -/

set_option autoImplicit false
set_option linter.unusedTactic false
set_option linter.unreachableTactic false
set_option linter.unusedSimpArgs false
set_option Elab.async false

namespace Sys2Proof.Machine

/-! ### Machine/Keys.lean -/

theorem cmdKeyOwnerSet_eff {p : Packet} {s t : State} {x : Done} (h : (cmdKeyOwnerSet).body p s = .ok (t, x)) : Eff [.gloves] s t := by
  unfold cmdKeyOwnerSet at h
  try dsimp only [bind, Except.bind, Except.map, pure, Except.pure, Option.map] at h
  repeat' (first
    | (split at h)
    | cases h)
  all_goals repeat' (first
    | (with_reducible exact Eff.refl _ _)
    | ((with_reducible show Eff _ _ (setGlove ..)); (with_reducible refine Eff.step ?_ (setGlove_eff_g _ _ _ (fun _ => by first | (with_reducible rfl) | ((try dsimp only); split <;> (with_reducible rfl)))) ?hc); case hc => rfl))

theorem execKeyOwnerSet_eff (p : Packet) (s : State) {t : State} (h : execKeyOwnerSet p s = .next t) : Eff (.gloves :: answering) s t := by
  exact runCmd_eff (fun _ _ _ _ h => (cmdKeyOwnerSet_eff (h := h) ..).weaken rfl) rfl (by first | exact .inl (fun _ _ => rfl) | exact .inr rfl) h

theorem addSpent_eff (s : State) (wrapped : List Byte) : Eff [.keySlots] s (addSpent s wrapped) := by
  unfold addSpent
  repeat' (first
    | (with_reducible exact Eff.refl _ _)
    | dsimp only
    | (with_reducible apply Eff.of_rec (s := _))
    | (with_reducible exact .inl rfl)
    | exact .inr rfl
    | (with_reducible exact .inl ⟨rfl, rfl, rfl, rfl⟩))

theorem cmdKeyLoad_eff {p : Packet} {s t : State} {x : Done} (h : (cmdKeyLoad).body p s = .ok (t, x)) : Eff [.keySlots, .free] s t := by
  unfold cmdKeyLoad at h
  try dsimp only [bind, Except.bind, Except.map, pure, Except.pure, Option.map] at h
  repeat' (first
    | (split at h)
    | cases h)
  all_goals repeat' (first
    | (with_reducible exact Eff.refl _ _)
    | ((with_reducible show Eff _ _ (loadSlot ..)); (with_reducible refine Eff.step ?_ (loadSlot_eff ..) ?hc); case hc => rfl)
    | ((with_reducible show Eff _ _ (addSpent ..)); (with_reducible refine Eff.step ?_ (addSpent_eff ..) ?hc); case hc => rfl)
    | ((with_reducible show Eff _ _ (chargeSlot ..)); (with_reducible refine Eff.step ?_ (chargeSlot_eff ..) ?hc); case hc => rfl)
    | dsimp only [Option.getD_some, Option.getD_none])

theorem execKeyLoad_eff (p : Packet) (s : State) {t : State} (h : execKeyLoad p s = .next t) : Eff (.ent :: .keySlots :: .gloves :: .free :: answering) s t := by
  exact runCmd_eff (fun _ _ _ _ h => (cmdKeyLoad_eff (h := h) ..).weaken rfl) rfl (by first | exact .inl (fun _ _ => rfl) | exact .inr rfl) h

theorem cmdKeyInvalidate_eff {p : Packet} {s t : State} {x : Done} (h : (cmdKeyInvalidate).body p s = .ok (t, x)) : Eff [.vectors, .inject, .wire, .keySlots, .gloves, .sessions, .conns] s t := by
  unfold cmdKeyInvalidate at h
  try dsimp only [bind, Except.bind, Except.map, pure, Except.pure, Option.map] at h
  repeat' (first
    | (split at h)
    | cases h)
  all_goals repeat' (first
    | (with_reducible exact Eff.refl _ _)
    | ((with_reducible show Eff _ _ (setGlove ..)); (with_reducible refine Eff.step ?_ (setGlove_eff_g _ _ _ (fun _ => by first | (with_reducible rfl) | ((try dsimp only); split <;> (with_reducible rfl)))) ?hc); case hc => rfl)
    | ((with_reducible show Eff _ _ (setKeySlot ..)); (with_reducible refine Eff.step ?_ (setKeySlot_eff ..) ?hc); case hc => rfl)
    | ((with_reducible refine Eff.step ?_ (evictSlot_eff ..) ?hc); case hc => rfl)
    | ((with_reducible show Eff _ _ (evictShares ..)); (with_reducible refine Eff.step ?_ (evictShares_eff ..) ?hc); case hc => rfl)
    | (with_reducible refine Eff.foldl ?_ (fun s x => ?_))
    | dsimp only
    | (with_reducible apply Eff.of_rec (s := _))
    | (with_reducible exact .inl rfl)
    | exact .inr rfl
    | (with_reducible exact .inl ⟨rfl, rfl, rfl, rfl⟩))

theorem execKeyInvalidate_eff (p : Packet) (s : State) {t : State} (h : execKeyInvalidate p s = .next t) : Eff (.keySlots :: .gloves :: answering) s t := by
  exact runCmd_eff (fun _ _ _ _ h => (cmdKeyInvalidate_eff (h := h) ..).weaken rfl) rfl (by first | exact .inl (fun _ _ => rfl) | exact .inr rfl) h

theorem drawKey_eff (kind ctx n : Nat) (s : State) : Eff [.ent, .gloves, .free] s (drawKey kind ctx n s).2 := by
  induction n generalizing s with
  | zero => exact Eff.refl _ _
  | succ n ih =>
    have h1 : Eff [.ent, .gloves, .free] s (drawBytes s 32).2 := (drawBytes_eff s 32).weaken rfl
    unfold drawKey
    generalize drawBytes s 32 = d at h1 ⊢
    dsimp only
    split
    · exact h1
    · split
      · exact h1
      · exact (h1.step (takeBlocks_eff ..) rfl).step (ih _) rfl

theorem kcKey_eff (p : Packet) (s : State) {l : Option (List Byte)} {t : State} (h : kcKey p s = .ok (l, t)) :
    Eff [.ent, .gloves, .free] s t := by
  unfold kcKey at h
  split at h
  · have h := congrArg Prod.snd (Except.ok.inj h)
    subst h
    exact drawKey_eff ..
  · have h := congrArg Prod.snd (Except.ok.inj h)
    subst h
    exact Eff.refl _ _
  · cases hw : (want (Crypto.kwUnwrap (importKey s p.ctx) (p.bytes 48 40)) Status.blobAuth : Except Refused (List Byte)) with
    | error e => rw [hw] at h; cases h
    | ok k => rw [hw] at h; have h := congrArg Prod.snd (Except.ok.inj h); subst h; exact Eff.refl _ _

theorem kcStore_eff (p : Packet) (s : State) (key : List Byte) {t : State} (h : kcStore p s key = .ok t) : Eff [.hostMem, .vectors, .keySlots, .sessions, .outstanding, .casks, .free] s t := by
  unfold kcStore at h
  try dsimp only [bind, Except.bind, Except.map, pure, Except.pure, Option.map] at h
  repeat' (first
    | (split at h)
    | (replace h := ok_fst h; subst h)
    | (replace h := Except.ok.inj h; subst h)
    | (replace h := Host.Outcome.next.inj h; subst h)
    | (replace h := Option.some.inj h; subst h)
    | cases h
    | (dsimp only at h))
  all_goals repeat' (first
    | (with_reducible assumption)
    | (with_reducible exact Eff.refl _ _)
    | ((with_reducible show Eff _ _ (loadSlot ..)); (with_reducible refine Eff.step ?_ (loadSlot_eff ..) ?hc); case hc => rfl)
    | ((with_reducible refine Eff.step ?_ (writeWindow_eff (h := by assumption) ..) ?hc); case hc => rfl)
    | ((with_reducible show Eff _ _ (addSpent ..)); (with_reducible refine Eff.step ?_ (addSpent_eff ..) ?hc); case hc => rfl)
    | ((with_reducible show Eff _ _ (chargeSlot ..)); (with_reducible refine Eff.step ?_ (chargeSlot_eff ..) ?hc); case hc => rfl)
    | (with_reducible refine Eff.mapGetD ?_ (fun k => ?_))
    | (with_reducible refine Eff.foldl ?_ (fun s x => ?_))
    | dsimp only
    | dsimp only [Option.getD_some, Option.getD_none]
    | split
    | simp only [List.length_map, length_mapIf, length_setAt])

theorem cmdKeyCreate_eff {p : Packet} {s t : State} {x : Done} (h : (cmdKeyCreate).body p s = .ok (t, x)) :
    Eff [.hostMem, .vectors, .ent, .keySlots, .gloves, .sessions, .outstanding, .casks, .free] s t := by
  obtain ⟨_, _, h⟩ := of_bind_ok h
  obtain ⟨⟨key, s1⟩, hk, h⟩ := of_bind_ok h
  have h1 := (kcKey_eff (h := hk) ..).weaken (b := [.hostMem, .vectors, .ent, .keySlots, .gloves, .sessions, .outstanding, .casks, .free]) rfl
  split at h
  · next e => cases e; cases h; exact h1
  · next e =>
    cases e
    obtain ⟨s2, h2, h⟩ := of_bind_ok h
    cases h
    exact h1.step (kcStore_eff (h := h2) ..) rfl

theorem execKeyCreate_eff (p : Packet) (s : State) {t : State} (h : execKeyCreate p s = .next t) : Eff (.hostMem :: .ent :: .keySlots :: .gloves :: .casks :: .free :: answering) s t := by
  exact runCmd_eff (fun _ _ _ _ h => (cmdKeyCreate_eff (h := h) ..).weaken rfl) rfl (by first | exact .inl (fun _ _ => rfl) | exact .inr rfl) h

theorem cmdKeyEvict_eff {p : Packet} {s t : State} {x : Done} (h : (cmdKeyEvict).body p s = .ok (t, x)) : Eff [.vectors, .inject, .wire, .keySlots, .sessions, .conns] s t := by
  unfold cmdKeyEvict at h
  repeat' (first
    | (replace h := ok_fst h; subst h))
  all_goals repeat' (first
    | (with_reducible exact Eff.refl _ _)
    | ((with_reducible refine Eff.step ?_ (evictSlot_eff ..) ?hc); case hc => rfl))

theorem execKeyEvict_eff (p : Packet) (s : State) {t : State} (h : execKeyEvict p s = .next t) : Eff (.keySlots :: answering) s t := by
  exact runCmd_eff (fun _ _ _ _ h => (cmdKeyEvict_eff (h := h) ..).weaken rfl) rfl (by first | exact .inl (fun _ _ => rfl) | exact .inr rfl) h

theorem cmdKeyQuery_eff {p : Packet} {s t : State} {x : Done} (h : (cmdKeyQuery).body p s = .ok (t, x)) : Eff [] s t := by
  unfold cmdKeyQuery at h
  try dsimp only [bind, Except.bind, Except.map, pure, Except.pure, Option.map] at h
  repeat' (first
    | (split at h)
    | (replace h := ok_fst h; subst h))
  all_goals repeat' (first
    | (with_reducible exact Eff.refl _ _))

theorem execKeyQuery_eff (p : Packet) (s : State) {t : State} (h : execKeyQuery p s = .next t) : Eff answering s t := by
  exact runCmd_eff (fun _ _ _ _ h => (cmdKeyQuery_eff (h := h) ..).weaken rfl) rfl (by first | exact .inl (fun _ _ => rfl) | exact .inr rfl) h

theorem advanceMarks_eff (s : State) (g r : Nat) : Eff [.staged, .outstanding] s (advanceMarks s g r) := by
  unfold advanceMarks
  repeat' (first
    | (with_reducible assumption)
    | (with_reducible exact Eff.refl _ _)
    | (with_reducible refine Eff.mapGetD ?_ (fun k => ?_))
    | (with_reducible refine Eff.foldl ?_ (fun s x => ?_))
    | dsimp only
    | dsimp only [Option.getD_some, Option.getD_none]
    | split
    | (with_reducible apply Eff.of_rec (s := _))
    | (with_reducible exact .inl rfl)
    | (with_reducible rfl)
    | exact .inr rfl
    | (with_reducible exact .inl ⟨rfl, rfl, rfl, rfl⟩)
    | (with_reducible exact .inl (map_map_keep (fun _ => by first | rfl | ((try dsimp only); split <;> rfl))))
    | simp only [List.length_map, length_mapIf, length_setAt]
    | exact .inr ⟨rfl, by first | exact id | simp only [length_setAt, length_mapIf]⟩
    | exact .inr ⟨rfl, fun h => all_filter h⟩
    | exact .inr ⟨rfl, fun h => wf_set h _ _⟩
    | exact .inr ⟨rfl, fun h => wf_writeN h _ _⟩)

theorem cmdKeyRotateSet_eff {p : Packet} {s t : State} {x : Done} (h : (cmdKeyRotateSet).body p s = .ok (t, x)) : Eff [.gloves, .staged, .outstanding] s t := by
  unfold cmdKeyRotateSet at h
  try dsimp only [bind, Except.bind, Except.map, pure, Except.pure, Option.map] at h
  repeat' (first
    | (split at h)
    | (replace h := ok_fst h; subst h)
    | (replace h := Except.ok.inj h; subst h)
    | (replace h := Host.Outcome.next.inj h; subst h)
    | (replace h := Option.some.inj h; subst h)
    | cases h
    | (dsimp only at h))
  all_goals repeat' (first
    | (with_reducible assumption)
    | (with_reducible exact Eff.refl _ _)
    | ((with_reducible show Eff _ _ (setGlove ..)); (with_reducible refine Eff.step ?_ (setGlove_eff_s _ _ _ (fun _ => by first | (with_reducible rfl) | ((try dsimp only); split <;> (with_reducible rfl)))) ?hc); case hc => rfl)
    | ((with_reducible show Eff _ _ (setGlove ..)); (with_reducible refine Eff.step ?_ (setGlove_eff_g _ _ _ (fun _ => by first | (with_reducible rfl) | ((try dsimp only); split <;> (with_reducible rfl)))) ?hc); case hc => rfl)
    | ((with_reducible show Eff _ _ (setGlove ..)); (with_reducible refine Eff.step ?_ (setGlove_eff _ _ _) ?hc); case hc => rfl)
    | ((with_reducible show Eff _ _ (advanceMarks ..)); (with_reducible refine Eff.step ?_ (advanceMarks_eff ..) ?hc); case hc => rfl)
    | ((with_reducible show Eff _ _ (addDue ..)); (with_reducible refine Eff.step ?_ (addDue_eff ..) ?hc); case hc => rfl)
    | (with_reducible refine Eff.mapGetD ?_ (fun k => ?_))
    | (with_reducible refine Eff.foldl ?_ (fun s x => ?_))
    | dsimp only
    | dsimp only [Option.getD_some, Option.getD_none]
    | split
    | simp only [List.length_map, length_mapIf, length_setAt])

theorem execKeyRotateSet_eff (p : Packet) (s : State) {t : State} (h : execKeyRotateSet p s = .next t) : Eff (.gloves :: answering) s t := by
  exact runCmd_eff (fun _ _ _ _ h => (cmdKeyRotateSet_eff (h := h) ..).weaken rfl) rfl (by first | exact .inl (fun _ _ => rfl) | exact .inr rfl) h

theorem takeReserve_eff (n : Nat) (s : State) : Eff [.ent, .keySlots, .free] s (takeReserve n s) := by
  induction n generalizing s with
  | zero => exact Eff.refl _ _
  | succ n ih =>
    unfold takeReserve
    split
    · refine Eff.step ?_ (ih _) rfl
      show Eff _ _ { remaskNext s with ent := { (remaskNext s).ent with reserve := (remaskNext s).ent.reserve - 1 } }
      apply Eff.of_rec (s := remaskNext s) ((remaskNext_eff s).weaken rfl)
      all_goals first
        | (with_reducible exact .inl rfl)
        | (with_reducible rfl)
        | (with_reducible exact .inl ⟨rfl, rfl, rfl, rfl⟩)
        | exact .inr ⟨rfl, rfl⟩
    · exact Eff.refl _ _

theorem execKeyRemask_eff (late : Bool) (s : State) {t : State} (h : execKeyRemask late s = .next t) : Eff [.ent, .keySlots, .free] s t := by
  unfold execKeyRemask at h
  dsimp only at h
  split at h
  · cases h; exact Eff.refl _ _
  · cases h
    apply Eff.of_rec (s := s) (Eff.refl _ _)
    all_goals first | (with_reducible exact .inl rfl) | (with_reducible rfl) | exact .inr rfl | (with_reducible exact .inl ⟨rfl, rfl, rfl, rfl⟩)
  · cases h
    refine Eff.step (a := [.ent, .keySlots, .free]) ?_ (takeReserve_eff ..) rfl
    apply Eff.of_rec (s := s) (Eff.refl _ _)
    all_goals first | (with_reducible exact .inl rfl) | (with_reducible rfl) | exact .inr rfl | (with_reducible exact .inl ⟨rfl, rfl, rfl, rfl⟩)

/-! ### Machine/Firmware.lean -/

/-- A change of the slots alone. -/
theorem FwKeeps.slot {f : Firmware} (i : Nat) (g : FwSlot → FwSlot)
    (h : ∀ x, Memory.wf x.image = true → Memory.wf (g x).image = true) : FwKeeps f (setFwSlot f i g) := by
  unfold setFwSlot
  split
  · refine ⟨Nat.le_refl _, Nat.le_refl _, fun w => ?_⟩
    simp only [fwWf, Bool.and_eq_true] at w ⊢
    exact ⟨h _ w.1, w.2⟩
  · refine ⟨Nat.le_refl _, Nat.le_refl _, fun w => ?_⟩
    simp only [fwWf, Bool.and_eq_true] at w ⊢
    exact ⟨w.1, h _ w.2⟩

theorem FwKeeps.life {f g : Firmware} (hr : g.rollback = f.rollback) (hl : lifeRank f.lc ≤ lifeRank g.lc)
    (ha : g.slotA = f.slotA) (hb : g.slotB = f.slotB) : FwKeeps f g := by
  refine ⟨Nat.le_of_eq hr.symm, hl, fun w => ?_⟩
  simp only [fwWf, ha, hb] at w ⊢
  exact w

theorem FwKeeps.trans {f g h : Firmware} (a : FwKeeps f g) (b : FwKeeps g h) : FwKeeps f h :=
  ⟨Nat.le_trans a.1 b.1, Nat.le_trans a.2.1 b.2.1, fun w => b.2.2 (a.2.2 w)⟩

theorem FwKeeps.confirm (f : Firmware) : FwKeeps f (confirmTrial f) := by
  unfold confirmTrial
  refine FwKeeps.trans (FwKeeps.slot (otherSlot f) (fun x => if x.state = .active then { x with state := .verified } else x)
    (fun x h => ?_)) ?_
  · split <;> exact h
  refine FwKeeps.trans (FwKeeps.slot f.running (fun x => { x with state := .active, tried := false }) (fun x h => h)) ?_
  refine ⟨?_, Nat.le_refl _, fun w => w⟩
  have h : ∀ i g (f : Firmware), (setFwSlot f i g).rollback = f.rollback := fun i g f => by
    unfold setFwSlot; split <;> rfl
  show (setFwSlot (setFwSlot f _ _) _ _).rollback ≤ _
  rw [h, h]
  exact Nat.le_max_left _ _

theorem setFw_eff (s : State) (f : Firmware → Firmware) (h : FwKeeps s.fw (f s.fw)) : Eff [.fw] s (setFw s f) := by
  unfold setFw
  apply Eff.of_rec (s := s) (Eff.refl _ _)
  all_goals first | (with_reducible exact .inl rfl) | (with_reducible rfl) | (with_reducible exact .inl ⟨rfl, rfl, rfl, rfl⟩) | exact .inr ⟨rfl, h⟩

theorem storeWorks_eff (s : State) : Eff [.free] s (storeWorks s).2 := by
  unfold storeWorks
  dsimp only [drawFree, drawBytes]
  repeat' (first
    | (with_reducible exact Eff.refl _ _)
    | ((with_reducible refine Eff.step ?_ (drawFree_eff ..) ?hc); case hc => rfl))

theorem cmdFwStage_eff {p : Packet} {s t : State} {x : Done} (h : (cmdFwStage).body p s = .ok (t, x)) : Eff [.fw, .sessions, .free] s t := by
  unfold cmdFwStage at h
  try dsimp only [bind, Except.bind, Except.map, pure, Except.pure, Option.map] at h
  repeat' (first
    | (split at h)
    | cases h)
  all_goals repeat' (first
    | (with_reducible exact Eff.refl _ _)
    | ((with_reducible refine Eff.step ?_ (storeWorks_eff ..) ?hc); case hc => rfl)
    | ((with_reducible show Eff _ _ (setFw ..)); (with_reducible refine Eff.step ?_ (setFw_eff _ _ (by first | exact FwKeeps.slot _ _ (fun _ h => h) | exact FwKeeps.slot _ _ (fun _ h => wf_writeN h _ _) | exact FwKeeps.slot _ _ (fun _ h => rfl) | exact FwKeeps.confirm _ | exact FwKeeps.life rfl (Nat.le_refl _) rfl rfl | exact ⟨Nat.le_refl _, Nat.le_refl _, fun w => w⟩)) ?hc); case hc => rfl)
    | ((with_reducible refine Eff.step ?_ (readWindow_eff (h := by assumption) ..) ?hc); case hc => rfl))

theorem execFwStage_eff (p : Packet) (s : State) {t : State} (h : execFwStage p s = .next t) : Eff (.fw :: .free :: answering) s t := by
  exact runCmd_eff (fun _ _ _ _ h => (cmdFwStage_eff (h := h) ..).weaken rfl) rfl (by first | exact .inl (fun _ _ => rfl) | exact .inr rfl) h

theorem cmdFwSelect_eff {p : Packet} {s t : State} {x : Done} (h : (cmdFwSelect).body p s = .ok (t, x)) : Eff [.fw, .free] s t := by
  unfold cmdFwSelect at h
  try dsimp only [bind, Except.bind, Except.map, pure, Except.pure, Option.map] at h
  repeat' (first
    | (split at h)
    | cases h)
  all_goals repeat' (first
    | (with_reducible exact Eff.refl _ _)
    | ((with_reducible refine Eff.step ?_ (storeWorks_eff ..) ?hc); case hc => rfl)
    | ((with_reducible show Eff _ _ (setFw ..)); (with_reducible refine Eff.step ?_ (setFw_eff _ _ (by first | exact FwKeeps.slot _ _ (fun _ h => h) | exact FwKeeps.slot _ _ (fun _ h => wf_writeN h _ _) | exact FwKeeps.slot _ _ (fun _ h => rfl) | exact FwKeeps.confirm _ | exact FwKeeps.life rfl (Nat.le_refl _) rfl rfl | exact ⟨Nat.le_refl _, Nat.le_refl _, fun w => w⟩)) ?hc); case hc => rfl))

theorem execFwSelect_eff (p : Packet) (s : State) {t : State} (h : execFwSelect p s = .next t) : Eff (.fw :: .free :: answering) s t := by
  exact runCmd_eff (fun _ _ _ _ h => (cmdFwSelect_eff (h := h) ..).weaken rfl) rfl (by first | exact .inl (fun _ _ => rfl) | exact .inr rfl) h

theorem cmdFwQuery_eff {p : Packet} {s t : State} {x : Done} (h : (cmdFwQuery).body p s = .ok (t, x)) : Eff [] s t := by
  unfold cmdFwQuery at h
  repeat' (first
    | (replace h := ok_fst h; subst h))
  all_goals repeat' (first
    | (with_reducible exact Eff.refl _ _))

theorem execFwQuery_eff (p : Packet) (s : State) {t : State} (h : execFwQuery p s = .next t) : Eff answering s t := by
  exact runCmd_eff (fun _ _ _ _ h => (cmdFwQuery_eff (h := h) ..).weaken rfl) rfl (by first | exact .inl (fun _ _ => rfl) | exact .inr rfl) h

end Sys2Proof.Machine
end

