-- ==== Sys2Proof/Laws/EffectsVintage.lean ====
section
/-! SUPPORT. The effect of each operation of Vintages, windows, connections and Gloves:
the parts of the state it may change (`Eff`, Laws/Effects.lean). -/

set_option autoImplicit false
set_option linter.unusedTactic false
set_option linter.unreachableTactic false
set_option linter.unusedSimpArgs false
set_option Elab.async false

namespace Sys2Proof.Machine

/-! ### Machine/Vintages.lean -/

theorem caskWf_newCask (p : Packet) (s : State) : caskWf (newCask p s) = true := rfl

theorem retractClient_eff (s : State) (g vid u : Nat) : Eff [.vintages] s (retractClient s g vid u) := by
  unfold retractClient
  repeat' (first
    | (with_reducible exact Eff.refl _ _)
    | ((with_reducible show Eff _ _ (setVintage ..)); (with_reducible refine Eff.step ?_ (setVintage_eff ..) ?hc); case hc => rfl))

theorem sendShard_eff (s : State) (cid : Nat) (v : Vintage) (kind index : Nat) (mismatch : Bool) (bytes : List Byte) : Eff [.vectors, .inject, .wire, .sessions, .queues, .conns] s (sendShard s cid v kind index mismatch bytes) := by
  unfold sendShard
  repeat' (first
    | (with_reducible exact Eff.refl _ _)
    | ((with_reducible show Eff _ _ (setConn ..)); (with_reducible refine Eff.step ?_ (setConn_eff ..) ?hc); case hc => rfl)
    | ((with_reducible show Eff _ _ (submit ..)); (with_reducible refine Eff.step ?_ (submit_eff ..) ?hc); case hc => rfl)
    | (with_reducible refine Eff.foldl ?_ (fun s x => ?_))
    | split)

theorem fixSurvivors_eff (s : State) (g vid : Nat) (survivors : List Nat) : Eff [.vectors, .side, .inject, .wire, .sessions, .queues, .outstanding, .conns, .casks, .vintages] s (fixSurvivors s g vid survivors) := by
  unfold fixSurvivors
  repeat' (first
    | (with_reducible exact Eff.refl _ _)
    | ((with_reducible show Eff _ _ (setVintage ..)); (with_reducible refine Eff.step ?_ (setVintage_eff ..) ?hc); case hc => rfl)
    | ((with_reducible show Eff _ _ (vintageEvent ..)); (with_reducible refine Eff.step ?_ (vintageEvent_eff ..) ?hc); case hc => rfl)
    | ((with_reducible show Eff _ _ (sendRemoves ..)); (with_reducible refine Eff.step ?_ (sendRemoves_eff ..) ?hc); case hc => rfl)
    | ((with_reducible show Eff _ _ (sendRackSafe ..)); (with_reducible refine Eff.step ?_ (sendRackSafe_eff ..) ?hc); case hc => rfl)
    | ((with_reducible show Eff _ _ (setCask ..)); (with_reducible refine Eff.step ?_ (setCask_eff _ _ _ _ (fun _ hx => by first | (with_reducible exact caskWf_of hx rfl rfl rfl) | (with_reducible exact caskWf_of (caskWf_placeValues hx _ _ _ _ _) rfl rfl rfl) | ((try dsimp only); split <;> (with_reducible exact caskWf_of hx rfl rfl rfl)) | (simp only [caskWf, Bool.and_eq_true, Option.map_none, Option.getD_none, and_true] at hx ⊢; exact hx.1) | exact (caskWf_iff _).mpr ⟨rfl, ((caskWf_iff _).mp hx).2⟩)) ?hc); case hc => rfl)
    | ((with_reducible show Eff _ _ (closeLedger ..)); (with_reducible refine Eff.step ?_ (closeLedger_eff ..) ?hc); case hc => rfl)
    | ((with_reducible show Eff _ _ (runCorrections ..)); (with_reducible refine Eff.step ?_ (runCorrections_eff ..) ?hc); case hc => rfl)
    | ((with_reducible show Eff _ _ (releaseShares ..)); (with_reducible refine Eff.step ?_ (releaseShares_eff ..) ?hc); case hc => rfl)
    | (with_reducible refine Eff.foldl ?_ (fun s x => ?_))
    | split)

theorem leadMismatch_eff (s : State) (g vid : Nat) : Eff [.vectors, .inject, .wire, .sessions, .queues, .conns, .vintages] s (leadMismatch s g vid) := by
  unfold leadMismatch
  repeat' (first
    | (with_reducible exact Eff.refl _ _)
    | ((with_reducible show Eff _ _ (setVintage ..)); (with_reducible refine Eff.step ?_ (setVintage_eff ..) ?hc); case hc => rfl)
    | ((with_reducible show Eff _ _ (sendShard ..)); (with_reducible refine Eff.step ?_ (sendShard_eff ..) ?hc); case hc => rfl)
    | (with_reducible refine Eff.foldl ?_ (fun s x => ?_))
    | split)

theorem tryExchange_eff (s : State) (g vid : Nat) : Eff [.vectors, .side, .inject, .wire, .sessions, .queues, .outstanding, .conns, .casks, .vintages] s (tryExchange s g vid) := by
  unfold tryExchange
  repeat' (first
    | (with_reducible exact Eff.refl _ _)
    | ((with_reducible show Eff _ _ (sendShard ..)); (with_reducible refine Eff.step ?_ (sendShard_eff ..) ?hc); case hc => rfl)
    | ((with_reducible show Eff _ _ (setVintage ..)); (with_reducible refine Eff.step ?_ (setVintage_eff ..) ?hc); case hc => rfl)
    | ((with_reducible show Eff _ _ (fixSurvivors ..)); (with_reducible refine Eff.step ?_ (fixSurvivors_eff ..) ?hc); case hc => rfl)
    | (with_reducible refine Eff.foldl ?_ (fun s x => ?_))
    | dsimp only
    | split)

theorem reportShard_eff (s : State) (g vid : Nat) : Eff [.vectors, .side, .inject, .wire, .sessions, .queues, .outstanding, .conns, .casks, .vintages] s (reportShard s g vid) := by
  unfold reportShard
  repeat' (first
    | (with_reducible assumption)
    | (with_reducible exact Eff.refl _ _)
    | ((with_reducible show Eff _ _ (setVintage ..)); (with_reducible refine Eff.step ?_ (setVintage_eff ..) ?hc); case hc => rfl)
    | ((with_reducible show Eff _ _ (leadMismatch ..)); (with_reducible refine Eff.step ?_ (leadMismatch_eff ..) ?hc); case hc => rfl)
    | ((with_reducible show Eff _ _ (tryExchange ..)); (with_reducible refine Eff.step ?_ (tryExchange_eff ..) ?hc); case hc => rfl)
    | ((with_reducible show Eff _ _ (sendShard ..)); (with_reducible refine Eff.step ?_ (sendShard_eff ..) ?hc); case hc => rfl)
    | (with_reducible refine Eff.mapGetD ?_ (fun k => ?_))
    | (with_reducible refine Eff.foldl ?_ (fun s x => ?_))
    | dsimp only
    | dsimp only [Option.getD_some, Option.getD_none]
    | split
    | simp only [List.length_map, length_mapIf, length_setAt])

theorem freeCask_eff (s : State) (g cask : Nat) : Eff [.conns, .casks] s (freeCask s g cask) := by
  unfold freeCask
  repeat' (first
    | (with_reducible assumption)
    | (with_reducible exact Eff.refl _ _)
    | ((with_reducible show Eff _ _ (dropLines ..)); (with_reducible refine Eff.step ?_ (dropLines_eff ..) ?hc); case hc => rfl)
    | (with_reducible refine Eff.mapGetD ?_ (fun k => ?_))
    | (with_reducible refine Eff.foldl ?_ (fun s x => ?_))
    | dsimp only
    | dsimp only [Option.getD_some, Option.getD_none]
    | split
    | (with_reducible apply Eff.of_rec (s := _))
    | (with_reducible exact .inl rfl)
    | (with_reducible rfl)
    | exact .inr rfl
    | (with_reducible exact .inl ⟨rfl, rfl, rfl, rfl⟩)
    | (with_reducible exact .inl (map_map_keep (fun _ => by first | rfl | ((try dsimp only); split <;> rfl))))
    | simp only [List.length_map, length_mapIf, length_setAt]
    | exact .inr ⟨rfl, by first | exact id | simp only [length_setAt, length_mapIf]⟩
    | exact .inr ⟨rfl, fun h => all_filter h⟩
    | exact .inr ⟨rfl, fun h => wf_set h _ _⟩
    | exact .inr ⟨rfl, fun h => wf_writeN h _ _⟩)

theorem freeVintage_eff (s : State) (g vid : Nat) (sum : Summary) : Eff [.gloves, .conns, .casks, .vintages] s (freeVintage s g vid sum) := by
  unfold freeVintage
  repeat' (first
    | (with_reducible exact Eff.refl _ _)
    | ((with_reducible show Eff _ _ (freeCask ..)); (with_reducible refine Eff.step ?_ (freeCask_eff ..) ?hc); case hc => rfl)
    | ((with_reducible show Eff _ _ (setGlove ..)); (with_reducible refine Eff.step ?_ (setGlove_eff_g _ _ _ (fun _ => by first | (with_reducible rfl) | ((try dsimp only); split <;> (with_reducible rfl)))) ?hc); case hc => rfl)
    | (with_reducible refine Eff.foldl ?_ (fun s x => ?_))
    | dsimp only
    | (with_reducible apply Eff.of_rec (s := _))
    | (with_reducible exact .inl rfl)
    | exact .inr rfl
    | (with_reducible exact .inl ⟨rfl, rfl, rfl, rfl⟩))

theorem enterEnd_eff (s : State) (v : Vintage) (st : VState) (byPolicy : Bool) : Eff [.vectors, .inject, .wire, .keySlots, .gloves, .sessions, .queues, .windows, .conns, .vintages] s (enterEnd s v st byPolicy).1 := by
  unfold enterEnd
  repeat' (first
    | (with_reducible exact Eff.refl _ _)
    | ((with_reducible show Eff _ _ (vintageEvent ..)); (with_reducible refine Eff.step ?_ (vintageEvent_eff ..) ?hc); case hc => rfl)
    | ((with_reducible show Eff _ _ (setVintage ..)); (with_reducible refine Eff.step ?_ (setVintage_eff ..) ?hc); case hc => rfl)
    | ((with_reducible show Eff _ _ (revokeWindow ..)); (with_reducible refine Eff.step ?_ (revokeWindow_eff ..) ?hc); case hc => rfl)
    | ((with_reducible show Eff _ _ (boundary ..)); (with_reducible refine Eff.step ?_ (boundary_eff ..) ?hc); case hc => rfl)
    | (with_reducible refine Eff.foldl ?_ (fun s x => ?_))
    | split)

theorem endVintage_eff (s : State) (v : Vintage) (st : VState) (byPolicy : Bool) : Eff [.vectors, .inject, .wire, .keySlots, .gloves, .sessions, .queues, .windows, .conns, .casks, .vintages] s (endVintage s v st byPolicy) := by
  unfold endVintage
  repeat' (first
    | (with_reducible exact Eff.refl _ _)
    | ((with_reducible refine Eff.step ?_ (enterEnd_eff ..) ?hc); case hc => rfl)
    | ((with_reducible show Eff _ _ (freeVintage ..)); (with_reducible refine Eff.step ?_ (freeVintage_eff ..) ?hc); case hc => rfl))

theorem settleEnds_eff (s : State) : Eff [.vectors, .side, .inject, .wire, .gloves, .sessions, .queues, .outstanding, .conns, .casks, .vintages] s (settleEnds s) := by
  unfold settleEnds
  repeat' (first
    | (with_reducible exact Eff.refl _ _)
    | ((with_reducible show Eff _ _ (reply ..)); (with_reducible refine Eff.step ?_ (reply_eff ..) ?hc); case hc => rfl)
    | ((with_reducible show Eff _ _ (freeVintage ..)); (with_reducible refine Eff.step ?_ (freeVintage_eff ..) ?hc); case hc => rfl)
    | (with_reducible refine Eff.foldl ?_ (fun s x => ?_))
    | split)

theorem sealVintage_eff (s : State) (g vid : Nat) (word : PhaseWord) : Eff [.vectors, .side, .inject, .wire, .keySlots, .gloves, .sessions, .queues, .outstanding, .windows, .conns, .casks, .vintages] s (sealVintage s g vid word) := by
  unfold sealVintage
  repeat' (first
    | (with_reducible exact Eff.refl _ _)
    | ((with_reducible show Eff _ _ (endVintage ..)); (with_reducible refine Eff.step ?_ (endVintage_eff ..) ?hc); case hc => rfl)
    | ((with_reducible show Eff _ _ (retractClient ..)); (with_reducible refine Eff.step ?_ (retractClient_eff ..) ?hc); case hc => rfl)
    | ((with_reducible show Eff _ _ (setVintage ..)); (with_reducible refine Eff.step ?_ (setVintage_eff ..) ?hc); case hc => rfl)
    | ((with_reducible show Eff _ _ (setCask ..)); (with_reducible refine Eff.step ?_ (setCask_eff _ _ _ _ (fun _ hx => by first | (with_reducible exact caskWf_of hx rfl rfl rfl) | (with_reducible exact caskWf_of (caskWf_placeValues hx _ _ _ _ _) rfl rfl rfl) | ((try dsimp only); split <;> (with_reducible exact caskWf_of hx rfl rfl rfl)) | (simp only [caskWf, Bool.and_eq_true, Option.map_none, Option.getD_none, and_true] at hx ⊢; exact hx.1) | exact (caskWf_iff _).mpr ⟨rfl, ((caskWf_iff _).mp hx).2⟩)) ?hc); case hc => rfl)
    | ((with_reducible show Eff _ _ (fixSurvivors ..)); (with_reducible refine Eff.step ?_ (fixSurvivors_eff ..) ?hc); case hc => rfl)
    | ((with_reducible show Eff _ _ (reportShard ..)); (with_reducible refine Eff.step ?_ (reportShard_eff ..) ?hc); case hc => rfl)
    | (with_reducible refine Eff.foldl ?_ (fun s x => ?_))
    | split)

theorem shareClose_eff (s : State) (g vid : Nat) (word : PhaseWord) : Eff [.vectors, .sessions, .queues, .casks, .vintages] s (shareClose s g vid word) := by
  unfold shareClose
  repeat' (first
    | (with_reducible exact Eff.refl _ _)
    | ((with_reducible show Eff _ _ (setVintage ..)); (with_reducible refine Eff.step ?_ (setVintage_eff ..) ?hc); case hc => rfl)
    | ((with_reducible show Eff _ _ (closeLedger ..)); (with_reducible refine Eff.step ?_ (closeLedger_eff ..) ?hc); case hc => rfl))

theorem cmdVintageCreate_eff {p : Packet} {s t : State} {x : Done} (h : (cmdVintageCreate).body p s = .ok (t, x)) : Eff [.vintages] s t := by
  unfold cmdVintageCreate at h
  obtain ⟨_, _, h⟩ := of_bind_ok h
  obtain ⟨_, _, h⟩ := of_bind_ok h
  have h := ok_fst h
  subst h
  try dsimp only
  apply Eff.of_rec (s := s) (Eff.refl _ _)
  all_goals first | (with_reducible exact .inl rfl) | (with_reducible rfl) | (with_reducible exact .inl ⟨rfl, rfl, rfl, rfl⟩) | exact .inr rfl

theorem execVintageCreate_eff (p : Packet) (s : State) {t : State} (h : execVintageCreate p s = .next t) : Eff (.vintages :: answering) s t := by
  exact runCmd_eff (fun _ _ _ _ h => (cmdVintageCreate_eff (h := h) ..).weaken rfl) rfl (by first | exact .inl (fun _ _ => rfl) | exact .inr rfl) h

theorem cmdCaskAlloc_eff {p : Packet} {s t : State} {x : Done} (h : (cmdCaskAlloc).body p s = .ok (t, x)) : Eff [.casks] s t := by
  unfold cmdCaskAlloc at h
  obtain ⟨_, _, h⟩ := of_bind_ok h
  obtain ⟨_, _, h⟩ := of_bind_ok h
  obtain ⟨_, _, h⟩ := of_bind_ok h
  revert h
  generalize (if p.u8 2 = 3 then badModulus (caskModuli p) else none) = bad
  intro h
  cases bad with
  | some i => cases h
  | none =>
  have h := ok_fst h
  subst h
  try dsimp only
  apply Eff.of_rec (s := s) (Eff.refl _ _)
  all_goals first | (with_reducible exact .inl rfl) | (with_reducible rfl) | (with_reducible exact .inl ⟨rfl, rfl, rfl, rfl⟩) | exact .inr rfl | exact .inr ⟨rfl, fun h => all_snoc h (caskWf_newCask ..)⟩

theorem execCaskAlloc_eff (p : Packet) (s : State) {t : State} (h : execCaskAlloc p s = .next t) : Eff (.casks :: answering) s t := by
  exact runCmd_eff (fun _ _ _ _ h => (cmdCaskAlloc_eff (h := h) ..).weaken rfl) rfl (by first | exact .inl (fun _ _ => rfl) | exact .inr rfl) h

theorem cmdCaskFree_eff {p : Packet} {s t : State} {x : Done} (h : (cmdCaskFree).body p s = .ok (t, x)) : Eff [.conns, .casks] s t := by
  unfold cmdCaskFree at h
  repeat' (first
    | (replace h := ok_fst h; subst h))
  all_goals repeat' (first
    | (with_reducible exact Eff.refl _ _)
    | ((with_reducible show Eff _ _ (freeCask ..)); (with_reducible refine Eff.step ?_ (freeCask_eff ..) ?hc); case hc => rfl))

theorem execCaskFree_eff (p : Packet) (s : State) {t : State} (h : execCaskFree p s = .next t) : Eff (.casks :: answering) s t := by
  exact runCmd_eff (fun _ _ _ _ h => (cmdCaskFree_eff (h := h) ..).weaken rfl) rfl (by first | exact .inl (fun _ _ => rfl) | exact .inr rfl) h

theorem cmdVintageOpen_eff {p : Packet} {s t : State} {x : Done} (h : (cmdVintageOpen).body p s = .ok (t, x)) : Eff [.vectors, .inject, .wire, .keySlots, .gloves, .sessions, .conns, .vintages, .free] s t := by
  unfold cmdVintageOpen at h
  try dsimp only [bind, Except.bind, Except.map, pure, Except.pure, Option.map] at h
  repeat' (first
    | (split at h)
    | (replace h := ok_fst h; subst h)
    | (replace h := Except.ok.inj h; subst h)
    | (replace h := Host.Outcome.next.inj h; subst h)
    | (replace h := Option.some.inj h; subst h)
    | cases h
    | (dsimp only at h))
  all_goals repeat' (first
    | (with_reducible assumption)
    | (with_reducible exact Eff.refl _ _)
    | ((with_reducible refine Eff.step ?_ (Eff.snd_of (by assumption) (drawFree_eff ..)) ?hc); case hc => rfl)
    | ((with_reducible refine Eff.step ?_ (drawFree_eff ..) ?hc); case hc => rfl)
    | ((with_reducible show Eff _ _ (setVintage ..)); (with_reducible refine Eff.step ?_ (setVintage_eff ..) ?hc); case hc => rfl)
    | ((with_reducible show Eff _ _ (boundary ..)); (with_reducible refine Eff.step ?_ (boundary_eff ..) ?hc); case hc => rfl)
    | ((with_reducible show Eff _ _ (addDue ..)); (with_reducible refine Eff.step ?_ (addDue_eff ..) ?hc); case hc => rfl)
    | (with_reducible refine Eff.mapGetD ?_ (fun k => ?_))
    | (with_reducible refine Eff.foldl ?_ (fun s x => ?_))
    | dsimp only
    | dsimp only [Option.getD_some, Option.getD_none]
    | split
    | (with_reducible apply Eff.of_rec (s := _))
    | (with_reducible exact .inl rfl)
    | (with_reducible rfl)
    | exact .inr rfl
    | (with_reducible exact .inl ⟨rfl, rfl, rfl, rfl⟩)
    | (with_reducible exact .inl (map_map_keep (fun _ => by first | rfl | ((try dsimp only); split <;> rfl))))
    | simp only [List.length_map, length_mapIf, length_setAt]
    | exact .inr ⟨rfl, by first | exact id | simp only [length_setAt, length_mapIf]⟩
    | exact .inr ⟨rfl, fun h => all_filter h⟩
    | exact .inr ⟨rfl, fun h => wf_set h _ _⟩
    | exact .inr ⟨rfl, fun h => wf_writeN h _ _⟩)

theorem execVintageOpen_eff (p : Packet) (s : State) {t : State} (h : execVintageOpen p s = .next t) : Eff (.ent :: .keySlots :: .gloves :: .vintages :: .free :: answering) s t := by
  exact runCmd_eff (fun _ _ _ _ h => (cmdVintageOpen_eff (h := h) ..).weaken rfl) rfl (by first | exact .inl (fun _ _ => rfl) | exact .inr rfl) h

theorem cmdVintageSeal_eff {p : Packet} {s t : State} {x : Done} (h : (cmdVintageSeal).body p s = .ok (t, x)) : Eff [.vectors, .side, .inject, .wire, .keySlots, .gloves, .sessions, .queues, .outstanding, .windows, .conns, .casks, .vintages] s t := by
  unfold cmdVintageSeal at h
  try dsimp only [bind, Except.bind, Except.map, pure, Except.pure, Option.map] at h
  repeat' (first
    | (split at h)
    | cases h)
  all_goals repeat' (first
    | (with_reducible exact Eff.refl _ _)
    | ((with_reducible show Eff _ _ (sealVintage ..)); (with_reducible refine Eff.step ?_ (sealVintage_eff ..) ?hc); case hc => rfl))

theorem execVintageSeal_eff (p : Packet) (s : State) {t : State} (h : execVintageSeal p s = .next t) : Eff (.keySlots :: .gloves :: .windows :: .casks :: .vintages :: answering) s t := by
  exact runCmd_eff (fun _ _ _ _ h => (cmdVintageSeal_eff (h := h) ..).weaken rfl) rfl (by first | exact .inl (fun _ _ => rfl) | exact .inr rfl) h

theorem cmdVintageClose_eff {p : Packet} {s t : State} {x : Done} (h : (cmdVintageClose).body p s = .ok (t, x)) : Eff [.vectors, .inject, .wire, .keySlots, .gloves, .sessions, .queues, .windows, .conns, .casks, .vintages] s t := by
  unfold cmdVintageClose at h
  try dsimp only [bind, Except.bind, Except.map, pure, Except.pure, Option.map] at h
  repeat' (first
    | (split at h)
    | cases h)
  all_goals repeat' (first
    | (with_reducible exact Eff.refl _ _)
    | ((with_reducible refine Eff.step ?_ (enterEnd_eff ..) ?hc); case hc => rfl)
    | ((with_reducible show Eff _ _ (freeVintage ..)); (with_reducible refine Eff.step ?_ (freeVintage_eff ..) ?hc); case hc => rfl))

theorem execVintageClose_eff (p : Packet) (s : State) {t : State} (h : execVintageClose p s = .next t) : Eff (.keySlots :: .gloves :: .windows :: .casks :: .vintages :: answering) s t := by
  exact runCmd_eff (fun _ _ _ _ h => (cmdVintageClose_eff (h := h) ..).weaken rfl) rfl (by first | exact .inl (fun _ _ => rfl) | exact .inr rfl) h

theorem cmdVintageAbort_eff {p : Packet} {s t : State} {x : Done} (h : (cmdVintageAbort).body p s = .ok (t, x)) : Eff [.vectors, .side, .inject, .wire, .keySlots, .gloves, .sessions, .queues, .outstanding, .windows, .conns, .casks, .vintages] s t := by
  unfold cmdVintageAbort at h
  try dsimp only [bind, Except.bind, Except.map, pure, Except.pure, Option.map] at h
  repeat' (first
    | (split at h)
    | (replace h := ok_fst h; subst h)
    | (replace h := Except.ok.inj h; subst h)
    | (replace h := Host.Outcome.next.inj h; subst h)
    | (replace h := Option.some.inj h; subst h)
    | cases h
    | (dsimp only at h))
  all_goals repeat' (first
    | (with_reducible assumption)
    | (with_reducible exact Eff.refl _ _)
    | ((with_reducible refine Eff.step ?_ (Eff.fst_of (by assumption) (preempt_eff ..)) ?hc); case hc => rfl)
    | ((with_reducible refine Eff.step ?_ (preempt_eff ..) ?hc); case hc => rfl)
    | ((with_reducible refine Eff.step ?_ (Eff.fst_of (by assumption) (enterEnd_eff ..)) ?hc); case hc => rfl)
    | ((with_reducible refine Eff.step ?_ (enterEnd_eff ..) ?hc); case hc => rfl)
    | ((with_reducible show Eff _ _ (freeVintage ..)); (with_reducible refine Eff.step ?_ (freeVintage_eff ..) ?hc); case hc => rfl)
    | (with_reducible refine Eff.mapGetD ?_ (fun k => ?_))
    | (with_reducible refine Eff.foldl ?_ (fun s x => ?_))
    | dsimp only
    | dsimp only [Option.getD_some, Option.getD_none]
    | split
    | simp only [List.length_map, length_mapIf, length_setAt])

theorem execVintageAbort_eff (p : Packet) (s : State) {t : State} (h : execVintageAbort p s = .next t) : Eff (.keySlots :: .gloves :: .windows :: .casks :: .vintages :: answering) s t := by
  exact runCmd_eff (fun _ _ _ _ h => (cmdVintageAbort_eff (h := h) ..).weaken rfl) rfl (by first | exact .inl (fun _ _ => rfl) | exact .inr rfl) h

theorem cmdVintageQuery_eff {p : Packet} {s t : State} {x : Done} (h : (cmdVintageQuery).body p s = .ok (t, x)) : Eff [] s t := by
  unfold cmdVintageQuery at h
  try dsimp only [bind, Except.bind, Except.map, pure, Except.pure, Option.map] at h
  repeat' (first
    | (split at h)
    | cases h)
  all_goals repeat' (first
    | (with_reducible exact Eff.refl _ _))

theorem execVintageQuery_eff (p : Packet) (s : State) {t : State} (h : execVintageQuery p s = .next t) : Eff answering s t := by
  exact runCmd_eff (fun _ _ _ _ h => (cmdVintageQuery_eff (h := h) ..).weaken rfl) rfl (by first | exact .inl (fun _ _ => rfl) | exact .inr rfl) h

theorem cmdCaskQuery_eff {p : Packet} {s t : State} {x : Done} (h : (cmdCaskQuery).body p s = .ok (t, x)) : Eff [] s t := by
  unfold cmdCaskQuery at h
  try dsimp only [bind, Except.bind, Except.map, pure, Except.pure, Option.map] at h
  repeat' (first
    | (split at h)
    | cases h)
  all_goals repeat' (first
    | (with_reducible exact Eff.refl _ _))

theorem execCaskQuery_eff (p : Packet) (s : State) {t : State} (h : execCaskQuery p s = .next t) : Eff answering s t := by
  exact runCmd_eff (fun _ _ _ _ h => (cmdCaskQuery_eff (h := h) ..).weaken rfl) rfl (by first | exact .inl (fun _ _ => rfl) | exact .inr rfl) h

/-! ### Machine/Windows.lean -/

theorem cmdWindowCreate_eff {p : Packet} {s t : State} {x : Done} (h : (cmdWindowCreate).body p s = .ok (t, x)) : Eff [.windows, .casks] s t := by
  unfold cmdWindowCreate at h
  try dsimp only [bind, Except.bind, Except.map, pure, Except.pure, Option.map] at h
  repeat' (first
    | (split at h)
    | cases h)
  all_goals repeat' (first
    | (with_reducible exact Eff.refl _ _)
    | ((with_reducible show Eff _ _ (setCask ..)); (with_reducible refine Eff.step ?_ (setCask_eff _ _ _ _ (fun _ hx => by first | (with_reducible exact caskWf_of hx rfl rfl rfl) | (with_reducible exact caskWf_of (caskWf_placeValues hx _ _ _ _ _) rfl rfl rfl) | ((try dsimp only); split <;> (with_reducible exact caskWf_of hx rfl rfl rfl)) | (simp only [caskWf, Bool.and_eq_true, Option.map_none, Option.getD_none, and_true] at hx ⊢; exact hx.1) | exact (caskWf_iff _).mpr ⟨rfl, ((caskWf_iff _).mp hx).2⟩)) ?hc); case hc => rfl)
    | dsimp only
    | (with_reducible apply Eff.of_rec (s := _))
    | (with_reducible exact .inl rfl)
    | exact .inr rfl
    | (with_reducible exact .inl ⟨rfl, rfl, rfl, rfl⟩))

theorem execWindowCreate_eff (p : Packet) (s : State) {t : State} (h : execWindowCreate p s = .next t) : Eff (.windows :: .casks :: answering) s t := by
  exact runCmd_eff (fun _ _ _ _ h => (cmdWindowCreate_eff (h := h) ..).weaken rfl) rfl (by first | exact .inl (fun _ _ => rfl) | exact .inr rfl) h

theorem cmdWindowRevoke_eff {p : Packet} {s t : State} {x : Done} (h : (cmdWindowRevoke).body p s = .ok (t, x)) : Eff [.windows] s t := by
  unfold cmdWindowRevoke at h
  try dsimp only [bind, Except.bind, Except.map, pure, Except.pure, Option.map] at h
  repeat' (first
    | (split at h)
    | (replace h := ok_fst h; subst h))
  all_goals repeat' (first
    | (with_reducible exact Eff.refl _ _)
    | ((with_reducible show Eff _ _ (revokeWindow ..)); (with_reducible refine Eff.step ?_ (revokeWindow_eff ..) ?hc); case hc => rfl))

theorem execWindowRevoke_eff (p : Packet) (s : State) {t : State} (h : execWindowRevoke p s = .next t) : Eff (.windows :: answering) s t := by
  exact runCmd_eff (fun _ _ _ _ h => (cmdWindowRevoke_eff (h := h) ..).weaken rfl) rfl (by first | exact .inl (fun _ _ => rfl) | exact .inr rfl) h

theorem settleRevokes_eff (s : State) : Eff [.vectors, .side, .inject, .wire, .sessions, .queues, .outstanding, .conns] s (settleRevokes s) := by
  unfold settleRevokes
  repeat' (first
    | (with_reducible exact Eff.refl _ _)
    | ((with_reducible show Eff _ _ (reply ..)); (with_reducible refine Eff.step ?_ (reply_eff ..) ?hc); case hc => rfl)
    | (with_reducible refine Eff.foldl ?_ (fun s x => ?_))
    | split)

theorem cmdWindowQuery_eff {p : Packet} {s t : State} {x : Done} (h : (cmdWindowQuery).body p s = .ok (t, x)) : Eff [] s t := by
  unfold cmdWindowQuery at h
  try dsimp only [bind, Except.bind, Except.map, pure, Except.pure, Option.map] at h
  repeat' (first
    | (split at h)
    | cases h)
  all_goals repeat' (first
    | (with_reducible exact Eff.refl _ _))

theorem execWindowQuery_eff (p : Packet) (s : State) {t : State} (h : execWindowQuery p s = .next t) : Eff answering s t := by
  exact runCmd_eff (fun _ _ _ _ h => (cmdWindowQuery_eff (h := h) ..).weaken rfl) rfl (by first | exact .inl (fun _ _ => rfl) | exact .inr rfl) h

/-! ### Machine/Conns.lean -/

theorem connEvent_eff (s : State) (c : Conn) (code status : Nat) : Eff [.vectors, .sessions, .queues] s (connEvent s c code status) := by
  unfold connEvent
  repeat' (first
    | (with_reducible exact Eff.refl _ _)
    | ((with_reducible show Eff _ _ (postTo ..)); (with_reducible refine Eff.step ?_ (postTo_eff ..) ?hc); case hc => rfl))

theorem sendConnect_eff (s : State) (cid : Nat) : Eff [.vectors, .inject, .wire, .sessions, .queues, .conns] s (sendConnect s cid) := by
  unfold sendConnect
  repeat' (first
    | (with_reducible assumption)
    | (with_reducible exact Eff.refl _ _)
    | ((with_reducible show Eff _ _ (submit ..)); (with_reducible refine Eff.step ?_ (submit_eff ..) ?hc); case hc => rfl)
    | (with_reducible refine Eff.mapGetD ?_ (fun k => ?_))
    | (with_reducible refine Eff.foldl ?_ (fun s x => ?_))
    | dsimp only
    | dsimp only [Option.getD_some, Option.getD_none]
    | split
    | simp only [List.length_map, length_mapIf, length_setAt])

theorem cmdConnCreate_eff {p : Packet} {s t : State} {x : Done} (h : (cmdConnCreate).body p s = .ok (t, x)) : Eff [.vectors, .inject, .wire, .keySlots, .sessions, .queues, .conns] s t := by
  unfold cmdConnCreate at h
  try dsimp only [bind, Except.bind, Except.map, pure, Except.pure, Option.map] at h
  repeat' (first
    | (split at h)
    | cases h)
  all_goals repeat' (first
    | (with_reducible exact Eff.refl _ _)
    | ((with_reducible refine Eff.step ?_ (makeRoom_eff (h := by assumption) ..) ?hc); case hc => rfl)
    | ((with_reducible show Eff _ _ (setKeySlot ..)); (with_reducible refine Eff.step ?_ (setKeySlot_eff ..) ?hc); case hc => rfl)
    | ((with_reducible show Eff _ _ (sendConnect ..)); (with_reducible refine Eff.step ?_ (sendConnect_eff ..) ?hc); case hc => rfl)
    | ((with_reducible show Eff _ _ (touchConn ..)); (with_reducible refine Eff.step ?_ (touchConn_eff ..) ?hc); case hc => rfl)
    | dsimp only
    | (with_reducible apply Eff.of_rec (s := _))
    | (with_reducible exact .inl rfl)
    | exact .inr rfl
    | (with_reducible exact .inl ⟨rfl, rfl, rfl, rfl⟩)
    | exact .inr ⟨rfl, fun h => wf_set h _ _⟩)

theorem execConnCreate_eff (p : Packet) (s : State) {t : State} (h : execConnCreate p s = .next t) : Eff (.keySlots :: answering) s t := by
  exact runCmd_eff (fun _ _ _ _ h => (cmdConnCreate_eff (h := h) ..).weaken rfl) rfl (by first | exact .inl (fun _ _ => rfl) | exact .inr rfl) h

theorem forgetConn_eff (s : State) (c : Conn) : Eff [.casks] s (forgetConn s c) := by
  unfold forgetConn
  apply Eff.of_rec (s := s) (Eff.refl _ _)
  all_goals first
    | (with_reducible exact .inl rfl)
    | (with_reducible rfl)
    | (with_reducible exact .inl ⟨rfl, rfl, rfl, rfl⟩)
    | skip
  refine .inr ⟨rfl, fun h => ?_⟩
  rw [List.all_eq_true] at *
  intro x hx
  obtain ⟨y, hy, rfl⟩ := List.mem_map.mp hx
  split
  · exact caskWf_of (h y hy) rfl rfl rfl
  · exact h y hy

theorem removeConn_eff (s : State) (cid : Nat) : Eff [.vectors, .side, .inject, .wire, .sessions, .queues, .outstanding, .conns, .casks] s (removeConn s cid) := by
  unfold removeConn
  repeat' (first
    | (with_reducible assumption)
    | (with_reducible exact Eff.refl _ _)
    | ((with_reducible show Eff _ _ (undeliverAll ..)); (with_reducible refine Eff.step ?_ (undeliverAll_eff ..) ?hc); case hc => rfl)
    | ((with_reducible show Eff _ _ (retryFetches ..)); (with_reducible refine Eff.step ?_ (retryFetches_eff ..) ?hc); case hc => rfl)
    | ((with_reducible show Eff _ _ (forgetConn ..)); (with_reducible refine Eff.step ?_ (forgetConn_eff ..) ?hc); case hc => rfl)
    | ((with_reducible show Eff _ _ (reply ..)); (with_reducible refine Eff.step ?_ (reply_eff ..) ?hc); case hc => rfl)
    | (with_reducible refine Eff.mapGetD ?_ (fun k => ?_))
    | (with_reducible refine Eff.foldl ?_ (fun s x => ?_))
    | dsimp only
    | dsimp only [Option.getD_some, Option.getD_none]
    | split
    | (with_reducible apply Eff.of_rec (s := _))
    | (with_reducible exact .inl rfl)
    | (with_reducible rfl)
    | exact .inr rfl
    | (with_reducible exact .inl ⟨rfl, rfl, rfl, rfl⟩)
    | (with_reducible exact .inl (map_map_keep (fun _ => by first | rfl | ((try dsimp only); split <;> rfl))))
    | simp only [List.length_map, length_mapIf, length_setAt]
    | exact .inr ⟨rfl, by first | exact id | simp only [length_setAt, length_mapIf]⟩
    | exact .inr ⟨rfl, fun h => all_filter h⟩
    | exact .inr ⟨rfl, fun h => wf_set h _ _⟩
    | exact .inr ⟨rfl, fun h => wf_writeN h _ _⟩)

theorem execConnRemove_eff (conn : Nat) (s : State) {t : State} (h : execConnRemove conn s = .next t) : Eff [.vectors, .side, .inject, .wire, .sessions, .queues, .outstanding, .conns, .casks] s t := by
  unfold execConnRemove at h
  try dsimp only [bind, Except.bind, Except.map, pure, Except.pure, Option.map] at h
  repeat' (first
    | (split at h)
    | (replace h := Host.Outcome.next.inj h; subst h))
  all_goals repeat' (first
    | (with_reducible exact Eff.refl _ _)
    | ((with_reducible show Eff _ _ (removeConn ..)); (with_reducible refine Eff.step ?_ (removeConn_eff ..) ?hc); case hc => rfl))

theorem cmdConnDestroy_eff {p : Packet} {s t : State} {x : Done} (h : (cmdConnDestroy).body p s = .ok (t, x)) : Eff [.vectors, .inject, .wire, .sessions, .queues, .conns, .casks] s t := by
  unfold cmdConnDestroy at h
  try dsimp only [bind, Except.bind, Except.map, pure, Except.pure, Option.map] at h
  repeat' (first
    | (split at h)
    | (replace h := ok_fst h; subst h)
    | (replace h := Except.ok.inj h; subst h)
    | (replace h := Host.Outcome.next.inj h; subst h)
    | (replace h := Option.some.inj h; subst h)
    | cases h
    | (dsimp only at h))
  all_goals repeat' (first
    | (with_reducible assumption)
    | (with_reducible exact Eff.refl _ _)
    | ((with_reducible show Eff _ _ (undeliverAll ..)); (with_reducible refine Eff.step ?_ (undeliverAll_eff ..) ?hc); case hc => rfl)
    | ((with_reducible show Eff _ _ (retryFetches ..)); (with_reducible refine Eff.step ?_ (retryFetches_eff ..) ?hc); case hc => rfl)
    | ((with_reducible show Eff _ _ (forgetConn ..)); (with_reducible refine Eff.step ?_ (forgetConn_eff ..) ?hc); case hc => rfl)
    | ((with_reducible show Eff _ _ (sendClose ..)); (with_reducible refine Eff.step ?_ (sendClose_eff ..) ?hc); case hc => rfl)
    | ((with_reducible show Eff _ _ (closeConn ..)); (with_reducible refine Eff.step ?_ (closeConn_eff ..) ?hc); case hc => rfl)
    | (with_reducible refine Eff.mapGetD ?_ (fun k => ?_))
    | (with_reducible refine Eff.foldl ?_ (fun s x => ?_))
    | dsimp only
    | dsimp only [Option.getD_some, Option.getD_none]
    | split
    | (with_reducible apply Eff.of_rec (s := _))
    | (with_reducible exact .inl rfl)
    | (with_reducible rfl)
    | exact .inr rfl
    | (with_reducible exact .inl ⟨rfl, rfl, rfl, rfl⟩)
    | (with_reducible exact .inl (map_map_keep (fun _ => by first | rfl | ((try dsimp only); split <;> rfl))))
    | simp only [List.length_map, length_mapIf, length_setAt]
    | exact .inr ⟨rfl, by first | exact id | simp only [length_setAt, length_mapIf]⟩
    | exact .inr ⟨rfl, fun h => all_filter h⟩
    | exact .inr ⟨rfl, fun h => wf_set h _ _⟩
    | exact .inr ⟨rfl, fun h => wf_writeN h _ _⟩)

theorem execConnDestroy_eff (p : Packet) (s : State) {t : State} (h : execConnDestroy p s = .next t) : Eff (.casks :: answering) s t := by
  exact runCmd_eff (fun _ _ _ _ h => (cmdConnDestroy_eff (h := h) ..).weaken rfl) rfl (by first | exact .inl (fun _ _ => rfl) | exact .inr rfl) h

theorem cmdConnQuery_eff {p : Packet} {s t : State} {x : Done} (h : (cmdConnQuery).body p s = .ok (t, x)) : Eff [.free] s t := by
  unfold cmdConnQuery at h
  try dsimp only [bind, Except.bind, Except.map, pure, Except.pure, Option.map] at h
  repeat' (first
    | (split at h)
    | cases h)
  all_goals repeat' (first
    | (with_reducible exact Eff.refl _ _)
    | ((with_reducible refine Eff.step ?_ (drawFree_eff ..) ?hc); case hc => rfl))

theorem execConnQuery_eff (p : Packet) (s : State) {t : State} (h : execConnQuery p s = .next t) : Eff (.free :: answering) s t := by
  exact runCmd_eff (fun _ _ _ _ h => (cmdConnQuery_eff (h := h) ..).weaken rfl) rfl (by first | exact .inl (fun _ _ => rfl) | exact .inr rfl) h

theorem endTrigger_eff (s : State) (g : Nat) (t : Trigger) (st : Status) : Eff [.vectors, .sessions, .queues] s (endTrigger s g t st) := by
  unfold endTrigger
  repeat' (first
    | (with_reducible exact Eff.refl _ _)
    | ((with_reducible show Eff _ _ (completeRequest ..)); (with_reducible refine Eff.step ?_ (completeRequest_eff ..) ?hc); case hc => rfl))

theorem cmdTriggerCancel_eff {p : Packet} {s t : State} {x : Done} (h : (cmdTriggerCancel).body p s = .ok (t, x)) : Eff [.vectors, .gloves, .sessions, .queues] s t := by
  unfold cmdTriggerCancel at h
  repeat' (first
    | (replace h := ok_fst h; subst h))
  all_goals repeat' (first
    | (with_reducible exact Eff.refl _ _)
    | ((with_reducible show Eff _ _ (setGlove ..)); (with_reducible refine Eff.step ?_ (setGlove_eff_g _ _ _ (fun _ => by first | (with_reducible rfl) | ((try dsimp only); split <;> (with_reducible rfl)))) ?hc); case hc => rfl)
    | ((with_reducible show Eff _ _ (endTrigger ..)); (with_reducible refine Eff.step ?_ (endTrigger_eff ..) ?hc); case hc => rfl)
    | (with_reducible refine Eff.foldl ?_ (fun s x => ?_)))

theorem execTriggerCancel_eff (p : Packet) (s : State) {t : State} (h : execTriggerCancel p s = .next t) : Eff (.gloves :: answering) s t := by
  exact runCmd_eff (fun _ _ _ _ h => (cmdTriggerCancel_eff (h := h) ..).weaken rfl) rfl (by first | exact .inl (fun _ _ => rfl) | exact .inr rfl) h

theorem cmdFaultInject_eff {p : Packet} {s t : State} {x : Done} (h : (cmdFaultInject).body p s = .ok (t, x)) : Eff [.conns] s t := by
  unfold cmdFaultInject at h
  try dsimp only [bind, Except.bind, Except.map, pure, Except.pure, Option.map] at h
  repeat' (first
    | (split at h)
    | cases h)
  all_goals repeat' (first
    | (with_reducible exact Eff.refl _ _)
    | ((with_reducible show Eff _ _ (setConn ..)); (with_reducible refine Eff.step ?_ (setConn_eff ..) ?hc); case hc => rfl))

theorem execFaultInject_eff (p : Packet) (s : State) {t : State} (h : execFaultInject p s = .next t) : Eff answering s t := by
  exact runCmd_eff (fun _ _ _ _ h => (cmdFaultInject_eff (h := h) ..).weaken rfl) rfl (by first | exact .inl (fun _ _ => rfl) | exact .inr rfl) h

/-! ### Machine/Gloves.lean -/

theorem cmdGloveAssign_eff {p : Packet} {s t : State} {x : Done} (h : (cmdGloveAssign).body p s = .ok (t, x)) : Eff [.gloves, .sessions, .free] s t := by
  unfold cmdGloveAssign at h
  try dsimp only [bind, Except.bind, Except.map, pure, Except.pure, Option.map] at h
  repeat' (first
    | (split at h)
    | cases h)
  all_goals repeat' (first
    | (with_reducible exact Eff.refl _ _)
    | ((with_reducible refine Eff.step ?_ (drawBytes_eff ..) ?hc); case hc => rfl)
    | ((with_reducible show Eff _ _ (setGlove ..)); (with_reducible refine Eff.step ?_ (setGlove_eff _ _ _) ?hc); case hc => rfl))

theorem execGloveAssign_eff (p : Packet) (s : State) {t : State} (h : execGloveAssign p s = .next t) : Eff (.ent :: .gloves :: .free :: answering) s t := by
  exact runCmd_eff (fun _ _ _ _ h => (cmdGloveAssign_eff (h := h) ..).weaken rfl) rfl (by first | exact .inl (fun _ _ => rfl) | exact .inr rfl) h

theorem cmdGloveModeSet_eff {p : Packet} {s t : State} {x : Done} (h : (cmdGloveModeSet).body p s = .ok (t, x)) : Eff [.gloves] s t := by
  unfold cmdGloveModeSet at h
  repeat' (first
    | (replace h := ok_fst h; subst h))
  all_goals repeat' (first
    | (with_reducible exact Eff.refl _ _)
    | ((with_reducible show Eff _ _ (setGlove ..)); (with_reducible refine Eff.step ?_ (setGlove_eff_g _ _ _ (fun _ => by first | (with_reducible rfl) | ((try dsimp only); split <;> (with_reducible rfl)))) ?hc); case hc => rfl))

theorem execGloveModeSet_eff (p : Packet) (s : State) {t : State} (h : execGloveModeSet p s = .next t) : Eff (.gloves :: answering) s t := by
  exact runCmd_eff (fun _ _ _ _ h => (cmdGloveModeSet_eff (h := h) ..).weaken rfl) rfl (by first | exact .inl (fun _ _ => rfl) | exact .inr rfl) h

theorem cmdGloveQuery_eff {p : Packet} {s t : State} {x : Done} (h : (cmdGloveQuery).body p s = .ok (t, x)) : Eff [.hostMem, .vectors, .sessions, .outstanding, .casks] s t := by
  unfold cmdGloveQuery at h
  try dsimp only [bind, Except.bind, Except.map, pure, Except.pure, Option.map] at h
  repeat' (first
    | (split at h)
    | cases h)
  all_goals repeat' (first
    | (with_reducible exact Eff.refl _ _)
    | ((with_reducible refine Eff.step ?_ (writeWindow_eff (h := by assumption) ..) ?hc); case hc => rfl))

theorem execGloveQuery_eff (p : Packet) (s : State) {t : State} (h : execGloveQuery p s = .next t) : Eff (.hostMem :: .casks :: answering) s t := by
  exact runCmd_eff (fun _ _ _ _ h => (cmdGloveQuery_eff (h := h) ..).weaken rfl) rfl (by first | exact .inl (fun _ _ => rfl) | exact .inr rfl) h

theorem fenceGlove_eff (s : State) (g source cycle : Nat) (word : PhaseWord) : Eff [.vectors, .side, .inject, .wire, .gloves, .sessions, .queues, .outstanding, .conns, .casks, .vintages] s (fenceGlove s g source cycle word) := by
  unfold fenceGlove
  repeat' (first
    | (with_reducible assumption)
    | (with_reducible exact Eff.refl _ _)
    | ((with_reducible show Eff _ _ (setGlove ..)); (with_reducible refine Eff.step ?_ (setGlove_eff_s _ _ _ (fun _ => by first | (with_reducible rfl) | ((try dsimp only); split <;> (with_reducible rfl)))) ?hc); case hc => rfl)
    | ((with_reducible show Eff _ _ (setGlove ..)); (with_reducible refine Eff.step ?_ (setGlove_eff_g _ _ _ (fun _ => by first | (with_reducible rfl) | ((try dsimp only); split <;> (with_reducible rfl)))) ?hc); case hc => rfl)
    | ((with_reducible show Eff _ _ (setGlove ..)); (with_reducible refine Eff.step ?_ (setGlove_eff _ _ _) ?hc); case hc => rfl)
    | ((with_reducible show Eff _ _ (settleEnds ..)); (with_reducible refine Eff.step ?_ (settleEnds_eff ..) ?hc); case hc => rfl)
    | ((with_reducible show Eff _ _ (settleRevokes ..)); (with_reducible refine Eff.step ?_ (settleRevokes_eff ..) ?hc); case hc => rfl)
    | ((with_reducible show Eff _ _ (closeConn ..)); (with_reducible refine Eff.step ?_ (closeConn_eff ..) ?hc); case hc => rfl)
    | (with_reducible refine Eff.mapGetD ?_ (fun k => ?_))
    | (with_reducible refine Eff.foldl ?_ (fun s x => ?_))
    | dsimp only
    | dsimp only [Option.getD_some, Option.getD_none]
    | split
    | (with_reducible apply Eff.of_rec (s := _))
    | (with_reducible exact .inl rfl)
    | (with_reducible rfl)
    | exact .inr rfl
    | (with_reducible exact .inl ⟨rfl, rfl, rfl, rfl⟩)
    | (with_reducible exact .inl (map_map_keep (fun _ => by first | rfl | ((try dsimp only); split <;> rfl))))
    | simp only [List.length_map, length_mapIf, length_setAt]
    | exact .inr ⟨rfl, by first | exact id | simp only [length_setAt, length_mapIf]⟩
    | exact .inr ⟨rfl, fun h => all_filter h⟩
    | exact .inr ⟨rfl, fun h => wf_set h _ _⟩
    | exact .inr ⟨rfl, fun h => wf_writeN h _ _⟩)

theorem startReset_eff (s : State) (g source cycle : Nat) (word : PhaseWord) : Eff [.vectors, .side, .inject, .wire, .gloves, .sessions, .queues, .outstanding, .conns, .casks, .vintages] s (startReset s g source cycle word) := by
  unfold startReset
  repeat' (first
    | (with_reducible exact Eff.refl _ _)
    | ((with_reducible show Eff _ _ (fenceGlove ..)); (with_reducible refine Eff.step ?_ (fenceGlove_eff ..) ?hc); case hc => rfl)
    | ((with_reducible show Eff _ _ (setGlove ..)); (with_reducible refine Eff.step ?_ (setGlove_eff_g _ _ _ (fun _ => by first | (with_reducible rfl) | ((try dsimp only); split <;> (with_reducible rfl)))) ?hc); case hc => rfl)
    | split)

theorem resetCmd_eff (op source : Nat) {p : Packet} {s t : State} {x : Done} (h : (resetCmd op source).body p s = .ok (t, x)) : Eff [.vectors, .side, .inject, .wire, .gloves, .sessions, .queues, .outstanding, .conns, .casks, .vintages] s t := by
  unfold resetCmd at h
  repeat' (first
    | (replace h := ok_fst h; subst h))
  all_goals repeat' (first
    | (with_reducible exact Eff.refl _ _)
    | ((with_reducible show Eff _ _ (startReset ..)); (with_reducible refine Eff.step ?_ (startReset_eff ..) ?hc); case hc => rfl))

theorem cmdGloveReset_eff {p : Packet} {s t : State} {x : Done} (h : (cmdGloveReset).body p s = .ok (t, x)) : Eff [.vectors, .side, .inject, .wire, .gloves, .sessions, .queues, .outstanding, .conns, .casks, .vintages] s t := by
  exact (resetCmd_eff (h := h) ..).weaken rfl

theorem cmdGloveRelease_eff {p : Packet} {s t : State} {x : Done} (h : (cmdGloveRelease).body p s = .ok (t, x)) : Eff [.vectors, .side, .inject, .wire, .gloves, .sessions, .queues, .outstanding, .conns, .casks, .vintages] s t := by
  exact (resetCmd_eff (h := h) ..).weaken rfl

theorem fenceAt_eff (p : Packet) (s : State) : Eff [.vectors, .side, .inject, .wire, .gloves, .sessions, .queues, .outstanding, .conns, .casks, .vintages] s (fenceAt p s) := by
  unfold fenceAt
  repeat' (first
    | (with_reducible assumption)
    | (with_reducible exact Eff.refl _ _)
    | ((with_reducible show Eff _ _ (startReset ..)); (with_reducible refine Eff.step ?_ (startReset_eff ..) ?hc); case hc => rfl)
    | (with_reducible refine Eff.mapGetD ?_ (fun k => ?_))
    | (with_reducible refine Eff.foldl ?_ (fun s x => ?_))
    | dsimp only
    | dsimp only [Option.getD_some, Option.getD_none]
    | split
    | simp only [List.length_map, length_mapIf, length_setAt])

theorem execGloveReset_eff (p : Packet) (s : State) {t : State} (h : execGloveReset p s = .next t) : Eff (.gloves :: .casks :: .vintages :: answering) s t := by
  exact runCmd_eff (fun _ _ _ _ h => (cmdGloveReset_eff (h := h) ..).weaken rfl) rfl (by first | exact .inl (fun _ _ => rfl) | exact .inr rfl) h

theorem execGloveRelease_eff (p : Packet) (s : State) {t : State} (h : execGloveRelease p s = .next t) : Eff (.gloves :: .casks :: .vintages :: answering) s t := by
  exact runCmd_eff (fun _ _ _ _ h => (cmdGloveRelease_eff (h := h) ..).weaken rfl) rfl (by first | exact .inl (fun _ _ => rfl) | exact .inr rfl) h

theorem resetReplies_eff (s : State) (g : Nat) (named : State → Packet → Bool) : Eff (.gloves :: .casks :: .vintages :: answering) s (resetReplies s g named) := by
  unfold resetReplies
  repeat' (first
    | (with_reducible exact Eff.refl _ _)
    | ((with_reducible show Eff _ _ (deliver ..)); (with_reducible refine Eff.step ?_ (deliver_eff ..) ?hc); case hc => rfl)
    | ((with_reducible refine Eff.step ?_ (preempt_eff ..) ?hc); case hc => rfl)
    | ((with_reducible show Eff _ _ (setGlove ..)); (with_reducible refine Eff.step ?_ (setGlove_eff_g _ _ _ (fun _ => by first | (with_reducible rfl) | ((try dsimp only); split <;> (with_reducible rfl)))) ?hc); case hc => rfl)
    | (with_reducible refine Eff.foldl ?_ (fun s x => ?_))
    | dsimp only
    | split
    | (with_reducible apply Eff.of_rec (s := _))
    | (with_reducible exact .inl rfl)
    | exact .inr rfl
    | (with_reducible exact .inl ⟨rfl, rfl, rfl, rfl⟩))

theorem dropConns_eff (s : State) (g : Nat) : Eff [.vectors, .side, .inject, .wire, .gloves, .sessions, .queues, .outstanding, .conns, .casks] s (dropConns s g) := by
  unfold dropConns
  repeat' (first
    | (with_reducible exact Eff.refl _ _)
    | ((with_reducible show Eff _ _ (setGlove ..)); (with_reducible refine Eff.step ?_ (setGlove_eff_g _ _ _ (fun _ => by first | (with_reducible rfl) | ((try dsimp only); split <;> (with_reducible rfl)))) ?hc); case hc => rfl)
    | ((with_reducible show Eff _ _ (endTrigger ..)); (with_reducible refine Eff.step ?_ (endTrigger_eff ..) ?hc); case hc => rfl)
    | ((with_reducible show Eff _ _ (failRequests ..)); (with_reducible refine Eff.step ?_ (failRequests_eff ..) ?hc); case hc => rfl)
    | ((with_reducible show Eff _ _ (sendClose ..)); (with_reducible refine Eff.step ?_ (sendClose_eff ..) ?hc); case hc => rfl)
    | ((with_reducible show Eff _ _ (removeConn ..)); (with_reducible refine Eff.step ?_ (removeConn_eff ..) ?hc); case hc => rfl)
    | (with_reducible refine Eff.mapGetD ?_ (fun k => ?_))
    | (with_reducible refine Eff.foldl ?_ (fun s x => ?_)))

theorem teardown_eff (s : State) (g : Nat) : Eff [.vectors, .side, .inject, .wire, .keySlots, .int, .gloves, .sessions, .queues, .outstanding, .windows, .conns, .casks, .vintages] s (teardown s g) := by
  unfold teardown
  repeat' (first
    | (with_reducible assumption)
    | (with_reducible exact Eff.refl _ _)
    | ((with_reducible show Eff _ _ (revokeWindow ..)); (with_reducible refine Eff.step ?_ (revokeWindow_eff ..) ?hc); case hc => rfl)
    | ((with_reducible show Eff _ _ (dropLines ..)); (with_reducible refine Eff.step ?_ (dropLines_eff ..) ?hc); case hc => rfl)
    | ((with_reducible show Eff _ _ (dropConns ..)); (with_reducible refine Eff.step ?_ (dropConns_eff ..) ?hc); case hc => rfl)
    | ((with_reducible show Eff _ _ (setGlove ..)); (with_reducible refine Eff.step ?_ (setGlove_eff_s _ _ _ (fun _ => by first | (with_reducible rfl) | ((try dsimp only); split <;> (with_reducible rfl)))) ?hc); case hc => rfl)
    | ((with_reducible show Eff _ _ (setGlove ..)); (with_reducible refine Eff.step ?_ (setGlove_eff_g _ _ _ (fun _ => by first | (with_reducible rfl) | ((try dsimp only); split <;> (with_reducible rfl)))) ?hc); case hc => rfl)
    | ((with_reducible show Eff _ _ (setGlove ..)); (with_reducible refine Eff.step ?_ (setGlove_eff _ _ _) ?hc); case hc => rfl)
    | (with_reducible refine Eff.mapGetD ?_ (fun k => ?_))
    | (with_reducible refine Eff.foldl ?_ (fun s x => ?_))
    | dsimp only
    | dsimp only [Option.getD_some, Option.getD_none]
    | split
    | (with_reducible apply Eff.of_rec (s := _))
    | (with_reducible exact .inl rfl)
    | (with_reducible rfl)
    | exact .inr rfl
    | (with_reducible exact .inl ⟨rfl, rfl, rfl, rfl⟩)
    | (with_reducible exact .inl (map_map_keep (fun _ => by first | rfl | ((try dsimp only); split <;> rfl))))
    | simp only [List.length_map, length_mapIf, length_setAt]
    | exact .inr ⟨rfl, by first | exact id | simp only [length_setAt, length_mapIf]⟩
    | exact .inr ⟨rfl, fun h => all_filter h⟩
    | exact .inr ⟨rfl, fun h => wf_set h _ _⟩
    | exact .inr ⟨rfl, fun h => wf_writeN h _ _⟩)

theorem answerResets_eff (s : State) (g : Nat) (a : Answer) : Eff [.vectors, .side, .inject, .wire, .sessions, .queues, .outstanding, .conns] s (answerResets s g a) := by
  unfold answerResets
  repeat' (first
    | (with_reducible exact Eff.refl _ _)
    | ((with_reducible show Eff _ _ (reply ..)); (with_reducible refine Eff.step ?_ (reply_eff ..) ?hc); case hc => rfl)
    | (with_reducible refine Eff.foldl ?_ (fun s x => ?_)))

theorem endFlr_eff (s : State) (fn : Nat) : Eff [.hostPort, .vectors] s (endFlr s fn) := by
  unfold endFlr
  repeat' (first
    | (with_reducible exact Eff.refl _ _)
    | dsimp only
    | (with_reducible apply Eff.of_rec (s := _))
    | (with_reducible exact .inl rfl)
    | exact .inr rfl
    | (with_reducible exact .inl ⟨rfl, rfl, rfl, rfl⟩))

theorem dropCarried_eff (s : State) (g : Nat) : Eff [.int, .gloves] s (dropCarried s g) := by
  unfold dropCarried
  repeat' (first
    | (with_reducible assumption)
    | (with_reducible exact Eff.refl _ _)
    | ((with_reducible show Eff _ _ (setGlove ..)); (with_reducible refine Eff.step ?_ (setGlove_eff_s _ _ _ (fun _ => by first | (with_reducible rfl) | ((try dsimp only); split <;> (with_reducible rfl)))) ?hc); case hc => rfl)
    | ((with_reducible show Eff _ _ (setGlove ..)); (with_reducible refine Eff.step ?_ (setGlove_eff_g _ _ _ (fun _ => by first | (with_reducible rfl) | ((try dsimp only); split <;> (with_reducible rfl)))) ?hc); case hc => rfl)
    | ((with_reducible show Eff _ _ (setGlove ..)); (with_reducible refine Eff.step ?_ (setGlove_eff _ _ _) ?hc); case hc => rfl)
    | (with_reducible refine Eff.mapGetD ?_ (fun k => ?_))
    | (with_reducible refine Eff.foldl ?_ (fun s x => ?_))
    | dsimp only
    | dsimp only [Option.getD_some, Option.getD_none]
    | split
    | (with_reducible apply Eff.of_rec (s := _))
    | (with_reducible exact .inl rfl)
    | (with_reducible rfl)
    | exact .inr rfl
    | (with_reducible exact .inl ⟨rfl, rfl, rfl, rfl⟩)
    | (with_reducible exact .inl (map_map_keep (fun _ => by first | rfl | ((try dsimp only); split <;> rfl))))
    | simp only [List.length_map, length_mapIf, length_setAt]
    | exact .inr ⟨rfl, by first | exact id | simp only [length_setAt, length_mapIf]⟩
    | exact .inr ⟨rfl, fun h => all_filter h⟩
    | exact .inr ⟨rfl, fun h => wf_set h _ _⟩
    | exact .inr ⟨rfl, fun h => wf_writeN h _ _⟩)

theorem wedgeGlove_eff (s : State) (g cause duration : Nat) (r : Reset) : Eff [.vectors, .side, .inject, .wire, .int, .gloves, .sessions, .queues, .outstanding, .conns] s (wedgeGlove s g cause duration r) := by
  unfold wedgeGlove
  repeat' (first
    | (with_reducible assumption)
    | (with_reducible exact Eff.refl _ _)
    | ((with_reducible show Eff _ _ (setGlove ..)); (with_reducible refine Eff.step ?_ (setGlove_eff_s _ _ _ (fun _ => by first | (with_reducible rfl) | ((try dsimp only); split <;> (with_reducible rfl)))) ?hc); case hc => rfl)
    | ((with_reducible show Eff _ _ (setGlove ..)); (with_reducible refine Eff.step ?_ (setGlove_eff_g _ _ _ (fun _ => by first | (with_reducible rfl) | ((try dsimp only); split <;> (with_reducible rfl)))) ?hc); case hc => rfl)
    | ((with_reducible show Eff _ _ (setGlove ..)); (with_reducible refine Eff.step ?_ (setGlove_eff _ _ _) ?hc); case hc => rfl)
    | ((with_reducible show Eff _ _ (dropCarried ..)); (with_reducible refine Eff.step ?_ (dropCarried_eff ..) ?hc); case hc => rfl)
    | ((with_reducible show Eff _ _ (postEvent ..)); (with_reducible refine Eff.step ?_ (postEvent_eff ..) ?hc); case hc => rfl)
    | ((with_reducible show Eff _ _ (addRecord ..)); (with_reducible refine Eff.step ?_ (addRecord_eff ..) ?hc); case hc => rfl)
    | ((with_reducible show Eff _ _ (settleVats ..)); (with_reducible refine Eff.step ?_ (settleVats_eff ..) ?hc); case hc => rfl)
    | ((with_reducible show Eff _ _ (answerResets ..)); (with_reducible refine Eff.step ?_ (answerResets_eff ..) ?hc); case hc => rfl)
    | (with_reducible refine Eff.mapGetD ?_ (fun k => ?_))
    | (with_reducible refine Eff.foldl ?_ (fun s x => ?_))
    | dsimp only
    | dsimp only [Option.getD_some, Option.getD_none]
    | split
    | simp only [List.length_map, length_mapIf, length_setAt])

theorem takeNonce_eff (s : State) (r : Reset) : Eff [.ent] s (takeNonce s r) := by
  unfold takeNonce
  repeat' (first
    | (with_reducible assumption)
    | (with_reducible exact Eff.refl _ _)
    | (with_reducible refine Eff.mapGetD ?_ (fun k => ?_))
    | (with_reducible refine Eff.foldl ?_ (fun s x => ?_))
    | dsimp only
    | dsimp only [Option.getD_some, Option.getD_none]
    | split
    | (with_reducible apply Eff.of_rec (s := _))
    | (with_reducible exact .inl rfl)
    | (with_reducible rfl)
    | exact .inr rfl
    | (with_reducible exact .inl ⟨rfl, rfl, rfl, rfl⟩)
    | (with_reducible exact .inl (map_map_keep (fun _ => by first | rfl | ((try dsimp only); split <;> rfl))))
    | simp only [List.length_map, length_mapIf, length_setAt]
    | exact .inr ⟨rfl, by first | exact id | simp only [length_setAt, length_mapIf]⟩
    | exact .inr ⟨rfl, fun h => all_filter h⟩
    | exact .inr ⟨rfl, fun h => wf_set h _ _⟩
    | exact .inr ⟨rfl, fun h => wf_writeN h _ _⟩)

theorem finishReset_eff (s : State) (g duration : Nat) (r : Reset) : Eff [.hostPort, .vectors, .side, .inject, .wire, .ent, .int, .gloves, .sessions, .queues, .outstanding, .conns, .free] s (finishReset s g duration r) := by
  unfold finishReset
  have h2 := ((takeNonce_eff s r).weaken (b := [.hostPort, .vectors, .side, .inject, .wire, .ent, .int, .gloves, .sessions, .queues, .outstanding, .conns, .free]) rfl).step (drawBytes_eff _ 16) rfl
  generalize drawBytes (takeNonce s r) 16 = d at h2 ⊢
  obtain ⟨nonce, s1⟩ := d
  dsimp only at h2 ⊢
  ((with_reducible refine Eff.step ?_ (settleVats_eff ..) ?hc); case hc => rfl)
  ((with_reducible refine Eff.step ?_ (answerResets_eff ..) ?hc); case hc => rfl)
  ((with_reducible refine Eff.step ?_ (postEvent_eff ..) ?hc); case hc => rfl)
  generalize (fun x : Glove => (if r.release = true then { resets := satAdd 65535 x.resets 1 } else _ : Glove)) = f
  have h3 := h2.step (setGlove_eff s1 g f) rfl
  split
  · exact h3.step (endFlr_eff ..) rfl
  · exact h3

theorem awaitNonce_eff (s : State) (g : Nat) : Eff [.gloves] s (awaitNonce s g) := by
  unfold awaitNonce
  repeat' (first
    | (with_reducible assumption)
    | (with_reducible exact Eff.refl _ _)
    | ((with_reducible show Eff _ _ (setGlove ..)); (with_reducible refine Eff.step ?_ (setGlove_eff_s _ _ _ (fun _ => by first | (with_reducible rfl) | ((try dsimp only); split <;> (with_reducible rfl)))) ?hc); case hc => rfl)
    | ((with_reducible show Eff _ _ (setGlove ..)); (with_reducible refine Eff.step ?_ (setGlove_eff_g _ _ _ (fun _ => by first | (with_reducible rfl) | ((try dsimp only); split <;> (with_reducible rfl)))) ?hc); case hc => rfl)
    | ((with_reducible show Eff _ _ (setGlove ..)); (with_reducible refine Eff.step ?_ (setGlove_eff _ _ _) ?hc); case hc => rfl)
    | (with_reducible refine Eff.mapGetD ?_ (fun k => ?_))
    | (with_reducible refine Eff.foldl ?_ (fun s x => ?_))
    | dsimp only
    | dsimp only [Option.getD_some, Option.getD_none]
    | split
    | simp only [List.length_map, length_mapIf, length_setAt])

theorem execGloveResetEnd_eff (glove durationUs : Nat) (readBackZero : Bool) (s : State) {t : State} (h : execGloveResetEnd glove durationUs readBackZero s = .next t) : Eff [.hostPort, .vectors, .side, .inject, .wire, .ent, .keySlots, .int, .gloves, .sessions, .queues, .outstanding, .windows, .conns, .casks, .vintages, .free] s t := by
  unfold execGloveResetEnd at h
  try dsimp only [bind, Except.bind, Except.map, pure, Except.pure, Option.map] at h
  repeat' (first
    | (split at h)
    | (replace h := ok_fst h; subst h)
    | (replace h := Except.ok.inj h; subst h)
    | (replace h := Host.Outcome.next.inj h; subst h)
    | (replace h := Option.some.inj h; subst h)
    | cases h
    | (dsimp only at h))
  all_goals repeat' (first
    | (with_reducible assumption)
    | (with_reducible exact Eff.refl _ _)
    | ((with_reducible show Eff _ _ (wedgeGlove ..)); (with_reducible refine Eff.step ?_ (wedgeGlove_eff ..) ?hc); case hc => rfl)
    | ((with_reducible show Eff _ _ (teardown ..)); (with_reducible refine Eff.step ?_ (teardown_eff ..) ?hc); case hc => rfl)
    | ((with_reducible show Eff _ _ (awaitNonce ..)); (with_reducible refine Eff.step ?_ (awaitNonce_eff ..) ?hc); case hc => rfl)
    | ((with_reducible show Eff _ _ (finishReset ..)); (with_reducible refine Eff.step ?_ (finishReset_eff ..) ?hc); case hc => rfl)
    | (with_reducible refine Eff.mapGetD ?_ (fun k => ?_))
    | (with_reducible refine Eff.foldl ?_ (fun s x => ?_))
    | dsimp only
    | dsimp only [Option.getD_some, Option.getD_none]
    | split
    | simp only [List.length_map, length_mapIf, length_setAt])

theorem execQuiescenceTimeout_eff (glove durationUs : Nat) (s : State) {t : State} (h : execQuiescenceTimeout glove durationUs s = .next t) : Eff [.vectors, .side, .inject, .wire, .int, .gloves, .sessions, .queues, .outstanding, .conns] s t := by
  unfold execQuiescenceTimeout at h
  repeat' (first
    | (split at h)
    | (replace h := Host.Outcome.next.inj h; subst h))
  all_goals repeat' (first
    | (with_reducible exact Eff.refl _ _)
    | ((with_reducible show Eff _ _ (wedgeGlove ..)); (with_reducible refine Eff.step ?_ (wedgeGlove_eff ..) ?hc); case hc => rfl))

theorem flrFunction_eff (cycle : Nat) (s : State) (fn : Nat) : Eff [.hostPort, .vectors, .side, .inject, .wire, .gloves, .sessions, .queues, .outstanding, .conns, .casks, .vintages] s (flrFunction cycle s fn) := by
  unfold flrFunction
  repeat' (first
    | (with_reducible exact Eff.refl _ _)
    | ((with_reducible show Eff _ _ (endFlr ..)); (with_reducible refine Eff.step ?_ (endFlr_eff ..) ?hc); case hc => rfl)
    | ((with_reducible show Eff _ _ (startReset ..)); (with_reducible refine Eff.step ?_ (startReset_eff ..) ?hc); case hc => rfl)
    | dsimp only
    | split
    | (with_reducible apply Eff.of_rec (s := _))
    | (with_reducible exact .inl rfl)
    | exact .inr rfl
    | (with_reducible exact .inl ⟨rfl, rfl, rfl, rfl⟩))

theorem execFlrVf_eff (fn cycle : Nat) (s : State) {t : State} (h : execFlrVf fn cycle s = .next t) : Eff [.clock, .hostPort, .vectors, .side, .inject, .wire, .gloves, .sessions, .queues, .outstanding, .conns, .casks, .vintages] s t := by
  unfold execFlrVf at h
  try dsimp only [bind, Except.bind, Except.map, pure, Except.pure, Option.map] at h
  repeat' (first
    | (replace h := Host.Outcome.next.inj h; subst h)
    | (replace h := Option.some.inj h; subst h))
  all_goals repeat' (first
    | (with_reducible assumption)
    | (with_reducible exact Eff.refl _ _)
    | ((with_reducible show Eff _ _ (flrFunction ..)); (with_reducible refine Eff.step ?_ (flrFunction_eff ..) ?hc); case hc => rfl)
    | (with_reducible refine Eff.foldl ?_ (fun s x => ?_))
    | dsimp only
    | dsimp only [Option.getD_some, Option.getD_none]
    | split
    | (with_reducible apply Eff.of_rec (s := _))
    | (with_reducible exact .inl rfl)
    | (with_reducible rfl)
    | exact .inr rfl
    | (with_reducible exact .inl ⟨rfl, rfl, rfl, rfl⟩)
    | (with_reducible exact .inl (map_map_keep (fun _ => by first | rfl | ((try dsimp only); split <;> rfl))))
    | simp only [List.length_map, length_mapIf, length_setAt]
    | exact .inr ⟨rfl, by first | exact id | simp only [length_setAt, length_mapIf]⟩
    | exact .inr ⟨rfl, fun h => all_filter h⟩
    | exact .inr ⟨rfl, fun h => wf_set h _ _⟩
    | exact .inr ⟨rfl, fun h => wf_writeN h _ _⟩)

theorem execFlrComplete_eff (fn : Nat) (s : State) {t : State} (h : execFlrComplete fn s = .next t) : Eff [.hostPort, .vectors, .gloves] s t := by
  unfold execFlrComplete at h
  repeat' (first
    | (split at h)
    | (replace h := Host.Outcome.next.inj h; subst h))
  all_goals repeat' (first
    | (with_reducible exact Eff.refl _ _)
    | ((with_reducible show Eff _ _ (setGlove ..)); (with_reducible refine Eff.step ?_ (setGlove_eff_g _ _ _ (fun _ => by first | (with_reducible rfl) | ((try dsimp only); split <;> (with_reducible rfl)))) ?hc); case hc => rfl)
    | ((with_reducible show Eff _ _ (endFlr ..)); (with_reducible refine Eff.step ?_ (endFlr_eff ..) ?hc); case hc => rfl))

theorem clearVfEnable_eff (s : State) (cycle : Nat) : Eff [.hostPort, .vectors, .side, .inject, .wire, .gloves, .sessions, .queues, .outstanding, .conns, .casks, .vintages] s (clearVfEnable s cycle) := by
  unfold clearVfEnable
  repeat' (first
    | (with_reducible assumption)
    | (with_reducible exact Eff.refl _ _)
    | ((with_reducible show Eff _ _ (flrFunction ..)); (with_reducible refine Eff.step ?_ (flrFunction_eff ..) ?hc); case hc => rfl)
    | (with_reducible refine Eff.foldl ?_ (fun s x => ?_))
    | dsimp only
    | dsimp only [Option.getD_some, Option.getD_none]
    | split
    | (with_reducible apply Eff.of_rec (s := _))
    | (with_reducible exact .inl rfl)
    | (with_reducible rfl)
    | exact .inr rfl
    | (with_reducible exact .inl ⟨rfl, rfl, rfl, rfl⟩)
    | (with_reducible exact .inl (map_map_keep (fun _ => by first | rfl | ((try dsimp only); split <;> rfl))))
    | simp only [List.length_map, length_mapIf, length_setAt]
    | exact .inr ⟨rfl, by first | exact id | simp only [length_setAt, length_mapIf]⟩
    | exact .inr ⟨rfl, fun h => all_filter h⟩
    | exact .inr ⟨rfl, fun h => wf_set h _ _⟩
    | exact .inr ⟨rfl, fun h => wf_writeN h _ _⟩)

theorem execVfEnableClear_eff (cycle : Nat) (s : State) {t : State} (h : execVfEnableClear cycle s = .next t) : Eff [.clock, .hostPort, .vectors, .side, .inject, .wire, .gloves, .sessions, .queues, .outstanding, .conns, .casks, .vintages] s t := by
  unfold execVfEnableClear at h
  try dsimp only [bind, Except.bind, Except.map, pure, Except.pure, Option.map] at h
  repeat' (first
    | (replace h := Host.Outcome.next.inj h; subst h)
    | (replace h := Option.some.inj h; subst h))
  all_goals repeat' (first
    | (with_reducible assumption)
    | (with_reducible exact Eff.refl _ _)
    | ((with_reducible show Eff _ _ (clearVfEnable ..)); (with_reducible refine Eff.step ?_ (clearVfEnable_eff ..) ?hc); case hc => rfl)
    | (with_reducible refine Eff.foldl ?_ (fun s x => ?_))
    | dsimp only
    | dsimp only [Option.getD_some, Option.getD_none]
    | split
    | (with_reducible apply Eff.of_rec (s := _))
    | (with_reducible exact .inl rfl)
    | (with_reducible rfl)
    | exact .inr rfl
    | (with_reducible exact .inl ⟨rfl, rfl, rfl, rfl⟩)
    | (with_reducible exact .inl (map_map_keep (fun _ => by first | rfl | ((try dsimp only); split <;> rfl))))
    | simp only [List.length_map, length_mapIf, length_setAt]
    | exact .inr ⟨rfl, by first | exact id | simp only [length_setAt, length_mapIf]⟩
    | exact .inr ⟨rfl, fun h => all_filter h⟩
    | exact .inr ⟨rfl, fun h => wf_set h _ _⟩
    | exact .inr ⟨rfl, fun h => wf_writeN h _ _⟩)

theorem execVfEnableSet_eff (numVfs : Nat) (s : State) {t : State} (h : execVfEnableSet numVfs s = .next t) : Eff [.hostPort] s t := by
  unfold execVfEnableSet at h
  repeat' (first
    | (replace h := Except.ok.inj h; subst h)
    | (replace h := Host.Outcome.next.inj h; subst h)
    | (dsimp only at h))
  all_goals repeat' (first
    | (with_reducible assumption)
    | (with_reducible exact Eff.refl _ _)
    | (with_reducible refine Eff.foldl ?_ (fun s x => ?_))
    | dsimp only
    | dsimp only [Option.getD_some, Option.getD_none]
    | split
    | (with_reducible apply Eff.of_rec (s := _))
    | (with_reducible exact .inl rfl)
    | (with_reducible rfl)
    | exact .inr rfl
    | (with_reducible exact .inl ⟨rfl, rfl, rfl, rfl⟩)
    | (with_reducible exact .inl (map_map_keep (fun _ => by first | rfl | ((try dsimp only); split <;> rfl))))
    | simp only [List.length_map, length_mapIf, length_setAt]
    | exact .inr ⟨rfl, by first | exact id | simp only [length_setAt, length_mapIf]⟩
    | exact .inr ⟨rfl, fun h => all_filter h⟩
    | exact .inr ⟨rfl, fun h => wf_set h _ _⟩
    | exact .inr ⟨rfl, fun h => wf_writeN h _ _⟩)

theorem dropVintner_eff (s : State) : Eff [.keySlots, .queues, .staged, .outstanding, .windows] s (dropVintner s) := by
  unfold dropVintner
  repeat' (first
    | (with_reducible assumption)
    | (with_reducible exact Eff.refl _ _)
    | ((with_reducible show Eff _ _ (revokeWindow ..)); (with_reducible refine Eff.step ?_ (revokeWindow_eff ..) ?hc); case hc => rfl)
    | (with_reducible refine Eff.foldl ?_ (fun s x => ?_))
    | dsimp only
    | dsimp only [Option.getD_some, Option.getD_none]
    | split
    | (with_reducible apply Eff.of_rec (s := _))
    | (with_reducible exact .inl rfl)
    | (with_reducible rfl)
    | exact .inr rfl
    | (with_reducible exact .inl ⟨rfl, rfl, rfl, rfl⟩)
    | (with_reducible exact .inl (map_map_keep (fun _ => by first | rfl | ((try dsimp only); split <;> rfl))))
    | simp only [List.length_map, length_mapIf, length_setAt]
    | exact .inr ⟨rfl, by first | exact id | simp only [length_setAt, length_mapIf]⟩
    | exact .inr ⟨rfl, fun h => all_filter h⟩
    | exact .inr ⟨rfl, fun h => wf_set h _ _⟩
    | exact .inr ⟨rfl, fun h => wf_writeN h _ _⟩)

theorem execFlrPf_eff (cycle : Nat) (s : State) {t : State} (h : execFlrPf cycle s = .next t) : Eff (.clock :: .hostPort :: .keySlots :: .gloves :: .windows :: .casks :: .vintages :: answering) s t := by
  unfold execFlrPf at h
  try dsimp only [bind, Except.bind, Except.map, pure, Except.pure, Option.map] at h
  repeat' (first
    | (split at h)
    | (replace h := ok_fst h; subst h)
    | (replace h := Except.ok.inj h; subst h)
    | (replace h := Host.Outcome.next.inj h; subst h)
    | (replace h := Option.some.inj h; subst h)
    | cases h
    | (dsimp only at h))
  all_goals repeat' (first
    | (with_reducible assumption)
    | (with_reducible exact Eff.refl _ _)
    | ((with_reducible show Eff _ _ (clearVfEnable ..)); (with_reducible refine Eff.step ?_ (clearVfEnable_eff ..) ?hc); case hc => rfl)
    | ((with_reducible show Eff _ _ (dropVintner ..)); (with_reducible refine Eff.step ?_ (dropVintner_eff ..) ?hc); case hc => rfl)
    | ((with_reducible show Eff _ _ (endFlr ..)); (with_reducible refine Eff.step ?_ (endFlr_eff ..) ?hc); case hc => rfl)
    | (with_reducible refine Eff.mapGetD ?_ (fun k => ?_))
    | (with_reducible refine Eff.foldl ?_ (fun s x => ?_))
    | dsimp only
    | dsimp only [Option.getD_some, Option.getD_none]
    | split
    | (with_reducible apply Eff.of_rec (s := _))
    | (with_reducible exact .inl rfl)
    | (with_reducible rfl)
    | exact .inr rfl
    | (with_reducible exact .inl ⟨rfl, rfl, rfl, rfl⟩)
    | (with_reducible exact .inl (map_map_keep (fun _ => by first | rfl | ((try dsimp only); split <;> rfl))))
    | simp only [List.length_map, length_mapIf, length_setAt]
    | exact .inr ⟨rfl, by first | exact id | simp only [length_setAt, length_mapIf]⟩
    | exact .inr ⟨rfl, fun h => all_filter h⟩
    | exact .inr ⟨rfl, fun h => wf_set h _ _⟩
    | exact .inr ⟨rfl, fun h => wf_writeN h _ _⟩)

end Sys2Proof.Machine
end

