-- ==== Sys2Proof/Laws/EffectsQueue.lean ====
section
/-! SUPPORT. The effect of each operation of queues, work requests, client records, checkpoints and releases:
the parts of the state it may change (`Eff`, Laws/Effects.lean). -/

set_option autoImplicit false
set_option linter.unusedTactic false
set_option linter.unreachableTactic false
set_option linter.unusedSimpArgs false
set_option Elab.async false

namespace Sys2Proof.Machine

/-! ### Machine/Queues.lean -/

theorem answerUndispatched_eff (s : State) (p : Packet) (a : Answer) : Eff [.vectors, .side, .inject, .wire, .sessions, .queues, .conns] s (answerUndispatched s p a) :=
  deliverBy_eff (fun s q e => postTo_eff s q e) s p a

theorem consumeSlots_eff (s : State) (q n : Nat) : Eff [.queues] s (consumeSlots s q n) := by
  unfold consumeSlots
  repeat' (first
    | (with_reducible exact Eff.refl _ _)
    | ((with_reducible show Eff _ _ (setQueue ..)); (with_reducible refine Eff.step ?_ (setQueue_eff ..) ?hc); case hc => rfl))

theorem cmdNop_eff {p : Packet} {s t : State} {x : Done} (h : (cmdNop).body p s = .ok (t, x)) : Eff [] s t := by
  unfold cmdNop at h
  repeat' (first
    | (replace h := ok_fst h; subst h))
  all_goals repeat' (first
    | (with_reducible exact Eff.refl _ _))

theorem execNop_eff (p : Packet) (s : State) {t : State} (h : execNop p s = .next t) : Eff answering s t := by
  exact runCmd_eff (fun _ _ _ _ h => (cmdNop_eff (h := h) ..).weaken rfl) rfl (by first | exact .inl (fun _ _ => rfl) | exact .inr rfl) h

theorem cmdQueueCreate_eff {p : Packet} {s t : State} {x : Done} (h : (cmdQueueCreate).body p s = .ok (t, x)) : Eff [.queues] s t := by
  unfold cmdQueueCreate at h
  try dsimp only [bind, Except.bind, Except.map, pure, Except.pure, Option.map] at h
  repeat' (first
    | (split at h)
    | cases h)
  all_goals repeat' (first
    | (with_reducible exact Eff.refl _ _)
    | dsimp only
    | (with_reducible apply Eff.of_rec (s := _))
    | (with_reducible exact .inl rfl)
    | exact .inr rfl
    | (with_reducible exact .inl ⟨rfl, rfl, rfl, rfl⟩))

theorem execQueueCreate_eff (p : Packet) (s : State) {t : State} (h : execQueueCreate p s = .next t) : Eff answering s t := by
  exact runCmd_eff (fun _ _ _ _ h => (cmdQueueCreate_eff (h := h) ..).weaken rfl) rfl (by first | exact .inl (fun _ _ => rfl) | exact .inr rfl) h

theorem flushStaged_eff (s : State) (q f : Nat) : Eff answering s (flushStaged s q f).1 := by
  unfold flushStaged
  repeat' (first
    | (with_reducible exact Eff.refl _ _)
    | ((with_reducible show Eff _ _ (deliver ..)); (with_reducible refine Eff.step ?_ (deliver_eff ..) ?hc); case hc => rfl)
    | (with_reducible refine Eff.foldl ?_ (fun s x => ?_))
    | dsimp only
    | (with_reducible apply Eff.of_rec (s := _))
    | (with_reducible exact .inl rfl)
    | exact .inr rfl
    | (with_reducible exact .inl ⟨rfl, rfl, rfl, rfl⟩))

theorem flushRing_eff (n : Nat) (s : State) (id f : Nat) :
    Eff [.vectors, .side, .inject, .wire, .sessions, .queues, .outstanding, .conns] s (flushRing n s id f).1 := by
  induction n generalizing s with
  | zero => exact Eff.refl _ _
  | succ n ih =>
    rw [flushRing]
    dsimp only
    split
    · exact Eff.refl _ _
    split
    · exact Eff.refl _ _
    split
    · exact Eff.refl _ _
    split
    · ((with_reducible refine Eff.step ?_ (consumeSlots_eff ..) ?hc); case hc => rfl)
      exact (answerUndispatched_eff ..).weaken rfl
    split
    · exact (setQueue_eff ..).weaken rfl
    · ((with_reducible refine Eff.step ?_ (ih _) ?hc); case hc => rfl)
      ((with_reducible refine Eff.step ?_ (consumeSlots_eff ..) ?hc); case hc => rfl)
      exact (answerUndispatched_eff ..).weaken rfl

theorem discardUnfetched_eff (s : State) (q : Queue) (f : Nat) : Eff [.vectors, .side, .inject, .wire, .sessions, .queues, .outstanding, .conns] s (discardUnfetched s q f).1 := by
  unfold discardUnfetched
  repeat' (first
    | (with_reducible assumption)
    | (with_reducible exact Eff.refl _ _)
    | ((with_reducible show Eff _ _ (consumeSlots ..)); (with_reducible refine Eff.step ?_ (consumeSlots_eff ..) ?hc); case hc => rfl)
    | ((with_reducible refine Eff.step ?_ (Eff.fst_of (by assumption) (flushRing_eff ..)) ?hc); case hc => rfl)
    | ((with_reducible refine Eff.step ?_ (flushRing_eff ..) ?hc); case hc => rfl)
    | (with_reducible refine Eff.mapGetD ?_ (fun k => ?_))
    | (with_reducible refine Eff.foldl ?_ (fun s x => ?_))
    | dsimp only
    | dsimp only [Option.getD_some, Option.getD_none]
    | split
    | simp only [List.length_map, length_mapIf, length_setAt])

theorem cmdQueueDestroy_eff {p : Packet} {s t : State} {x : Done} (h : (cmdQueueDestroy).body p s = .ok (t, x)) : Eff answering s t := by
  unfold cmdQueueDestroy at h
  try dsimp only [bind, Except.bind, Except.map, pure, Except.pure, Option.map] at h
  repeat' (first
    | (split at h)
    | (replace h := ok_fst h; subst h)
    | (replace h := Except.ok.inj h; subst h)
    | (replace h := Host.Outcome.next.inj h; subst h)
    | (replace h := Option.some.inj h; subst h)
    | cases h
    | (dsimp only at h))
  all_goals repeat' (first
    | (with_reducible assumption)
    | (with_reducible exact Eff.refl _ _)
    | ((with_reducible show Eff _ _ (reply ..)); (with_reducible refine Eff.step ?_ (reply_eff ..) ?hc); case hc => rfl)
    | ((with_reducible refine Eff.step ?_ (Eff.fst_of (by assumption) (flushStaged_eff ..)) ?hc); case hc => rfl)
    | ((with_reducible refine Eff.step ?_ (flushStaged_eff ..) ?hc); case hc => rfl)
    | ((with_reducible refine Eff.step ?_ (Eff.fst_of (by assumption) (discardUnfetched_eff ..)) ?hc); case hc => rfl)
    | ((with_reducible refine Eff.step ?_ (discardUnfetched_eff ..) ?hc); case hc => rfl)
    | ((with_reducible show Eff _ _ (setQueue ..)); (with_reducible refine Eff.step ?_ (setQueue_eff ..) ?hc); case hc => rfl)
    | ((with_reducible show Eff _ _ (removeQueue ..)); (with_reducible refine Eff.step ?_ (removeQueue_eff ..) ?hc); case hc => rfl)
    | (with_reducible refine Eff.mapGetD ?_ (fun k => ?_))
    | (with_reducible refine Eff.foldl ?_ (fun s x => ?_))
    | dsimp only
    | dsimp only [Option.getD_some, Option.getD_none]
    | split
    | simp only [List.length_map, length_mapIf, length_setAt])

theorem execQueueDestroy_eff (p : Packet) (s : State) {t : State} (h : execQueueDestroy p s = .next t) : Eff answering s t := by
  exact runCmd_eff (fun _ _ _ _ h => (cmdQueueDestroy_eff (h := h) ..).weaken rfl) rfl (by first | exact .inl (fun _ _ => rfl) | exact .inr rfl) h

theorem cmdQueueFlush_eff {p : Packet} {s t : State} {x : Done} (h : (cmdQueueFlush).body p s = .ok (t, x)) : Eff answering s t := by
  unfold cmdQueueFlush at h
  try dsimp only [bind, Except.bind, Except.map, pure, Except.pure, Option.map] at h
  repeat' (first
    | (split at h)
    | (replace h := ok_fst h; subst h)
    | (replace h := Except.ok.inj h; subst h)
    | (replace h := Host.Outcome.next.inj h; subst h)
    | (replace h := Option.some.inj h; subst h)
    | cases h
    | (dsimp only at h))
  all_goals repeat' (first
    | (with_reducible assumption)
    | (with_reducible exact Eff.refl _ _)
    | ((with_reducible refine Eff.step ?_ (Eff.fst_of (by assumption) (flushStaged_eff ..)) ?hc); case hc => rfl)
    | ((with_reducible refine Eff.step ?_ (flushStaged_eff ..) ?hc); case hc => rfl)
    | ((with_reducible refine Eff.step ?_ (Eff.fst_of (by assumption) (discardUnfetched_eff ..)) ?hc); case hc => rfl)
    | ((with_reducible refine Eff.step ?_ (discardUnfetched_eff ..) ?hc); case hc => rfl)
    | ((with_reducible show Eff _ _ (setQueue ..)); (with_reducible refine Eff.step ?_ (setQueue_eff ..) ?hc); case hc => rfl)
    | (with_reducible refine Eff.mapGetD ?_ (fun k => ?_))
    | (with_reducible refine Eff.foldl ?_ (fun s x => ?_))
    | dsimp only
    | dsimp only [Option.getD_some, Option.getD_none]
    | split
    | simp only [List.length_map, length_mapIf, length_setAt])

theorem execQueueFlush_eff (p : Packet) (s : State) {t : State} (h : execQueueFlush p s = .next t) : Eff answering s t := by
  exact runCmd_eff (fun _ _ _ _ h => (cmdQueueFlush_eff (h := h) ..).weaken rfl) rfl (by first | exact .inl (fun _ _ => rfl) | exact .inr rfl) h

theorem cmdQueueQuery_eff {p : Packet} {s t : State} {x : Done} (h : (cmdQueueQuery).body p s = .ok (t, x)) : Eff [.staged] s t := by
  unfold cmdQueueQuery at h
  try dsimp only [bind, Except.bind, Except.map, pure, Except.pure, Option.map] at h
  repeat' (first
    | (split at h)
    | cases h)
  all_goals repeat' (first
    | (with_reducible exact Eff.refl _ _))

theorem execQueueQuery_eff (p : Packet) (s : State) {t : State} (h : execQueueQuery p s = .next t) : Eff answering s t := by
  exact runCmd_eff (fun _ _ _ _ h => (cmdQueueQuery_eff (h := h) ..).weaken rfl) rfl (by first | exact .inl (fun _ _ => rfl) | exact .inr rfl) h

theorem failCommandRing_eff (s : State) (q : Queue) (slot : Nat) (st : Status) : Eff [.vectors, .side, .inject, .wire, .sessions, .queues, .outstanding, .conns] s (failCommandRing s q slot st) := by
  unfold failCommandRing
  repeat' (first
    | (with_reducible exact Eff.refl _ _)
    | ((with_reducible show Eff _ _ (setQueue ..)); (with_reducible refine Eff.step ?_ (setQueue_eff ..) ?hc); case hc => rfl)
    | ((with_reducible show Eff _ _ (answerUndispatched ..)); (with_reducible refine Eff.step ?_ (answerUndispatched_eff ..) ?hc); case hc => rfl)
    | split)

/-! ### Machine/Requests.lean -/

theorem failRequest_eff (s : State) (c : Conn) (queue : Nat) (e : List Byte) (st : Status) (detail : Nat) : Eff [.vectors, .sessions, .queues] s (failRequest s c queue e st detail) := by
  unfold failRequest
  repeat' (first
    | (with_reducible exact Eff.refl _ _)
    | ((with_reducible show Eff _ _ (completeRequest ..)); (with_reducible refine Eff.step ?_ (completeRequest_eff ..) ?hc); case hc => rfl))

theorem takeMsg_eff (s : State) (cid : Nat) : Eff [.conns] s (takeMsg s cid).2 := by
  unfold takeMsg
  repeat' (first
    | (with_reducible exact Eff.refl _ _)
    | ((with_reducible show Eff _ _ (setConn ..)); (with_reducible refine Eff.step ?_ (setConn_eff ..) ?hc); case hc => rfl))

theorem sendRequest_eff (s : State) (c : Conn) (queue : Nat) (e : List Byte) (ext : Nat → List Byte) (cask pos : Nat) (parts : List (List Byte)) (th : Option TrellisHeader) : Eff [.vectors, .inject, .wire, .sessions, .queues, .conns] s (sendRequest s c queue e ext cask pos parts th) := by
  unfold sendRequest
  repeat' (first
    | (with_reducible exact Eff.refl _ _)
    | ((with_reducible refine Eff.step ?_ (takeMsg_eff ..) ?hc); case hc => rfl)
    | ((with_reducible show Eff _ _ (setConn ..)); (with_reducible refine Eff.step ?_ (setConn_eff ..) ?hc); case hc => rfl)
    | ((with_reducible show Eff _ _ (submit ..)); (with_reducible refine Eff.step ?_ (submit_eff ..) ?hc); case hc => rfl)
    | (with_reducible refine Eff.foldl ?_ (fun s x => ?_)))

theorem sendIssued_eff (s : State) (c : Conn) (queue : Nat) (e ext : List Byte) (offset left : Nat) : Eff [.vectors, .inject, .wire, .sessions, .queues, .conns] s (sendIssued s c queue e ext offset left) := by
  unfold sendIssued
  repeat' (first
    | (with_reducible exact Eff.refl _ _)
    | ((with_reducible refine Eff.step ?_ (takeMsg_eff ..) ?hc); case hc => rfl)
    | ((with_reducible show Eff _ _ (setConn ..)); (with_reducible refine Eff.step ?_ (setConn_eff ..) ?hc); case hc => rfl)
    | ((with_reducible show Eff _ _ (submit ..)); (with_reducible refine Eff.step ?_ (submit_eff ..) ?hc); case hc => rfl))



theorem sourceBytes_eff (s : State) (c : Conn) (w : Window) (off n : Nat) {l : List Byte} {t : State}
    (h : sourceBytes s c w off n = .ok (l, t)) : Eff [.sessions] s t := by
  unfold sourceBytes at h
  split at h
  · split at h
    · cases h
    · exact windowBytes_eff (h := h) ..
  · exact windowBytes_eff (h := h) ..

theorem requestSource_ok {s : State} {c : Conn} {queue : Nat} {e : List Byte} {right n : Nat} {w : Window}
    {l : List Byte} {t : State} (h : requestSource s c queue e right n = .ok (w, l, t)) : Eff [.sessions] s t := by
  unfold requestSource at h
  split at h
  · cases h
  split at h
  · cases h
  split at h
  · next hw => cases h; exact sourceBytes_eff (h := hw) ..
  · cases h

theorem requestSource_err {s : State} {c : Conn} {queue : Nat} {e : List Byte} {right n : Nat} {t : State}
    (h : requestSource s c queue e right n = .error t) : Eff [.vectors, .sessions, .queues, .conns] s t := by
  unfold requestSource at h
  split at h
  · have h := Except.error.inj h; subst h; exact (failRequest_eff ..).weaken rfl
  split at h
  · have h := Except.error.inj h; subst h; exact (failRequest_eff ..).weaken rfl
  split at h
  · cases h
  · have h := Except.error.inj h
    subst h
    ((with_reducible refine Eff.step ?_ (failRequest_eff ..) ?hc); case hc => rfl)
    exact Eff.step ((setConn_eff ..).weaken rfl) (dmaReport_eff ..) rfl

-- SKIP requestSource Except State (Window × List Byte × State)

theorem runPartial_eff (s : State) (c : Conn) (queue : Nat) (e : List Byte) : Eff [.vectors, .inject, .wire, .sessions, .queues, .conns] s (runPartial s c queue e) := by
  unfold runPartial
  repeat' (first
    | (with_reducible exact Eff.refl _ _)
    | ((with_reducible refine Eff.step ?_ (requestSource_ok (by assumption)) ?hc); case hc => rfl)
    | ((with_reducible refine Eff.step ?_ (requestSource_err (by assumption)) ?hc); case hc => rfl)
    | ((with_reducible show Eff _ _ (failRequest ..)); (with_reducible refine Eff.step ?_ (failRequest_eff ..) ?hc); case hc => rfl)
    | ((with_reducible refine Eff.step ?_ (sendRequest_eff ..) ?hc); case hc => rfl)
    | dsimp only
    | split)

theorem runRequest_eff (s : State) (queue : Nat) (e : List Byte) : Eff [.vectors, .inject, .wire, .sessions, .queues, .conns] s (runRequest s queue e) := by
  unfold runRequest
  repeat' (first
    | (with_reducible exact Eff.refl _ _)
    | ((with_reducible show Eff _ _ (failRequest ..)); (with_reducible refine Eff.step ?_ (failRequest_eff ..) ?hc); case hc => rfl)
    | ((with_reducible show Eff _ _ (sendIssued ..)); (with_reducible refine Eff.step ?_ (sendIssued_eff ..) ?hc); case hc => rfl)
    | ((with_reducible refine Eff.step ?_ (requestSource_ok (by assumption)) ?hc); case hc => rfl)
    | ((with_reducible refine Eff.step ?_ (requestSource_err (by assumption)) ?hc); case hc => rfl)
    | ((with_reducible show Eff _ _ (runPartial ..)); (with_reducible refine Eff.step ?_ (runPartial_eff ..) ?hc); case hc => rfl)
    | ((with_reducible show Eff _ _ (sendRequest ..)); (with_reducible refine Eff.step ?_ (sendRequest_eff ..) ?hc); case hc => rfl)
    | split)

theorem addWait_eff (s : State) (g queue : Nat) : Eff [.gloves] s (addWait s g queue) := by
  unfold addWait
  repeat' (first
    | (with_reducible exact Eff.refl _ _)
    | ((with_reducible show Eff _ _ (setGlove ..)); (with_reducible refine Eff.step ?_ (setGlove_eff_g _ _ _ (fun _ => by first | (with_reducible rfl) | ((try dsimp only); split <;> (with_reducible rfl)))) ?hc); case hc => rfl))

theorem dropWait_eff (s : State) (g queue : Nat) : Eff [.gloves] s (dropWait s g queue) := by
  unfold dropWait
  repeat' (first
    | (with_reducible exact Eff.refl _ _)
    | ((with_reducible show Eff _ _ (setGlove ..)); (with_reducible refine Eff.step ?_ (setGlove_eff_g _ _ _ (fun _ => by first | (with_reducible rfl) | ((try dsimp only); split <;> (with_reducible rfl)))) ?hc); case hc => rfl))

theorem executeHead_eff (s : State) (g queue : Nat) (e : List Byte) : Eff [.vectors, .inject, .wire, .gloves, .sessions, .queues, .conns] s (executeHead s g queue e) := by
  unfold executeHead
  repeat' (first
    | (with_reducible exact Eff.refl _ _)
    | ((with_reducible show Eff _ _ (dropWait ..)); (with_reducible refine Eff.step ?_ (dropWait_eff ..) ?hc); case hc => rfl)
    | ((with_reducible show Eff _ _ (setGlove ..)); (with_reducible refine Eff.step ?_ (setGlove_eff_g _ _ _ (fun _ => by first | (with_reducible rfl) | ((try dsimp only); split <;> (with_reducible rfl)))) ?hc); case hc => rfl)
    | ((with_reducible show Eff _ _ (consumeSlots ..)); (with_reducible refine Eff.step ?_ (consumeSlots_eff ..) ?hc); case hc => rfl)
    | ((with_reducible show Eff _ _ (runRequest ..)); (with_reducible refine Eff.step ?_ (runRequest_eff ..) ?hc); case hc => rfl)
    | dsimp only
    | split)

theorem failSendRing_eff (s : State) (q : Queue) (st : Status) : Eff [.vectors, .sessions, .queues] s (failSendRing s q st) := by
  unfold failSendRing
  repeat' (first
    | (with_reducible exact Eff.refl _ _)
    | ((with_reducible show Eff _ _ (postCompletion ..)); (with_reducible refine Eff.step ?_ (postCompletion_eff ..) ?hc); case hc => rfl)
    | ((with_reducible show Eff _ _ (setQueue ..)); (with_reducible refine Eff.step ?_ (setQueue_eff ..) ?hc); case hc => rfl)
    | split)

theorem execWorkRequestExecute_eff (queue : Nat) (s : State) {t : State} (h : execWorkRequestExecute queue s = .next t) : Eff [.vectors, .inject, .wire, .gloves, .sessions, .queues, .conns] s t := by
  unfold execWorkRequestExecute at h
  try dsimp only [bind, Except.bind, Except.map, pure, Except.pure, Option.map] at h
  repeat' (first
    | (split at h)
    | (replace h := ok_fst h; subst h)
    | (replace h := Except.ok.inj h; subst h)
    | (replace h := Host.Outcome.next.inj h; subst h)
    | (replace h := Option.some.inj h; subst h)
    | cases h
    | (dsimp only at h))
  all_goals repeat' (first
    | (with_reducible assumption)
    | (with_reducible exact Eff.refl _ _)
    | ((with_reducible show Eff _ _ (failSendRing ..)); (with_reducible refine Eff.step ?_ (failSendRing_eff ..) ?hc); case hc => rfl)
    | ((with_reducible show Eff _ _ (addWait ..)); (with_reducible refine Eff.step ?_ (addWait_eff ..) ?hc); case hc => rfl)
    | ((with_reducible show Eff _ _ (executeHead ..)); (with_reducible refine Eff.step ?_ (executeHead_eff ..) ?hc); case hc => rfl)
    | (with_reducible refine Eff.mapGetD ?_ (fun k => ?_))
    | (with_reducible refine Eff.foldl ?_ (fun s x => ?_))
    | dsimp only
    | dsimp only [Option.getD_some, Option.getD_none]
    | split
    | simp only [List.length_map, length_mapIf, length_setAt])

theorem execCounterWaitRelease_eff (queue : Nat) (s : State) {t : State} (h : execCounterWaitRelease queue s = .next t) : Eff [.vectors, .inject, .wire, .gloves, .sessions, .queues, .conns] s t := by
  unfold execCounterWaitRelease at h
  repeat' (first
    | (split at h)
    | (replace h := Host.Outcome.next.inj h; subst h))
  all_goals repeat' (first
    | (with_reducible exact Eff.refl _ _)
    | ((with_reducible show Eff _ _ (executeHead ..)); (with_reducible refine Eff.step ?_ (executeHead_eff ..) ?hc); case hc => rfl))

theorem fireRequest_eff (g : Nat) (s : State) (t : Trigger) : Eff [.vectors, .inject, .wire, .sessions, .queues, .conns] s (fireRequest g s t) := by
  unfold fireRequest
  repeat' (first
    | (with_reducible assumption)
    | (with_reducible exact Eff.refl _ _)
    | ((with_reducible show Eff _ _ (runRequest ..)); (with_reducible refine Eff.step ?_ (runRequest_eff ..) ?hc); case hc => rfl)
    | ((with_reducible show Eff _ _ (endTrigger ..)); (with_reducible refine Eff.step ?_ (endTrigger_eff ..) ?hc); case hc => rfl)
    | (with_reducible refine Eff.mapGetD ?_ (fun k => ?_))
    | (with_reducible refine Eff.foldl ?_ (fun s x => ?_))
    | dsimp only
    | dsimp only [Option.getD_some, Option.getD_none]
    | split
    | simp only [List.length_map, length_mapIf, length_setAt])

theorem fireTag_eff (s : State) (g tag : Nat) : Eff [.vectors, .inject, .wire, .gloves, .sessions, .queues, .conns] s (fireTag s g tag) := by
  unfold fireTag
  repeat' (first
    | (with_reducible assumption)
    | (with_reducible exact Eff.refl _ _)
    | ((with_reducible show Eff _ _ (setGlove ..)); (with_reducible refine Eff.step ?_ (setGlove_eff_s _ _ _ (fun _ => by first | (with_reducible rfl) | ((try dsimp only); split <;> (with_reducible rfl)))) ?hc); case hc => rfl)
    | ((with_reducible show Eff _ _ (setGlove ..)); (with_reducible refine Eff.step ?_ (setGlove_eff_g _ _ _ (fun _ => by first | (with_reducible rfl) | ((try dsimp only); split <;> (with_reducible rfl)))) ?hc); case hc => rfl)
    | ((with_reducible show Eff _ _ (setGlove ..)); (with_reducible refine Eff.step ?_ (setGlove_eff _ _ _) ?hc); case hc => rfl)
    | ((with_reducible show Eff _ _ (fireRequest ..)); (with_reducible refine Eff.step ?_ (fireRequest_eff ..) ?hc); case hc => rfl)
    | (with_reducible refine Eff.mapGetD ?_ (fun k => ?_))
    | (with_reducible refine Eff.foldl ?_ (fun s x => ?_))
    | dsimp only
    | dsimp only [Option.getD_some, Option.getD_none]
    | split
    | simp only [List.length_map, length_mapIf, length_setAt])

theorem endTableWait_eff (s : State) (queue : Nat) : Eff [.vectors, .sessions, .queues] s (endTableWait s queue) := by
  unfold endTableWait
  repeat' (first
    | (with_reducible assumption)
    | (with_reducible exact Eff.refl _ _)
    | ((with_reducible show Eff _ _ (failRequest ..)); (with_reducible refine Eff.step ?_ (failRequest_eff ..) ?hc); case hc => rfl)
    | ((with_reducible show Eff _ _ (consumeSlots ..)); (with_reducible refine Eff.step ?_ (consumeSlots_eff ..) ?hc); case hc => rfl)
    | (with_reducible refine Eff.mapGetD ?_ (fun k => ?_))
    | (with_reducible refine Eff.foldl ?_ (fun s x => ?_))
    | dsimp only
    | dsimp only [Option.getD_some, Option.getD_none]
    | split
    | simp only [List.length_map, length_mapIf, length_setAt])

/-! ### Machine/Lees.lean -/

theorem caskWf_applyAdjust {c : Cask} (h : caskWf c = true) (v : Vintage) (add : Bool) (u stamp : Nat) (values : List Nat)
    (row : Adjustment) : caskWf (applyAdjust v add u stamp values row c) = true := by
  have h1 := caskWf_placeValues h v.printDraw (!add) none 0 values
  unfold applyAdjust
  generalize placeValues v.printDraw (!add) none c 0 values = c1 at h1 ⊢
  dsimp only
  split
  · exact caskWf_of h1 rfl rfl rfl
  · exact caskWf_of h1 rfl rfl rfl

theorem conflictEvent_eff (s : State) (g vid cask u : Nat) : Eff [.vectors, .sessions, .queues] s (conflictEvent s g vid cask u) := by
  unfold conflictEvent
  repeat' (first
    | (with_reducible exact Eff.refl _ _)
    | ((with_reducible show Eff _ _ (postEvent ..)); (with_reducible refine Eff.step ?_ (postEvent_eff ..) ?hc); case hc => rfl))

theorem showHeld_eff (s : State) (g : Nat) (h : Nat × Option Nat × Option Nat) : Eff [.vectors, .inject, .wire, .gloves, .sessions, .queues, .conns] s (showHeld s g h) := by
  unfold showHeld
  repeat' (first
    | (with_reducible assumption)
    | (with_reducible exact Eff.refl _ _)
    | ((with_reducible show Eff _ _ (setQueue ..)); (with_reducible refine Eff.step ?_ (setQueue_eff ..) ?hc); case hc => rfl)
    | ((with_reducible show Eff _ _ (fireTag ..)); (with_reducible refine Eff.step ?_ (fireTag_eff ..) ?hc); case hc => rfl)
    | (with_reducible refine Eff.mapGetD ?_ (fun k => ?_))
    | (with_reducible refine Eff.foldl ?_ (fun s x => ?_))
    | dsimp only
    | dsimp only [Option.getD_some, Option.getD_none]
    | split
    | simp only [List.length_map, length_mapIf, length_setAt])

theorem rackClient_eff (s : State) (g vid u : Nat) : Eff [.vectors, .inject, .wire, .gloves, .sessions, .queues, .windows, .conns, .vintages] s (rackClient s g vid u) := by
  unfold rackClient
  repeat' (first
    | (with_reducible assumption)
    | (with_reducible exact Eff.refl _ _)
    | ((with_reducible show Eff _ _ (setVintage ..)); (with_reducible refine Eff.step ?_ (setVintage_eff ..) ?hc); case hc => rfl)
    | ((with_reducible show Eff _ _ (conflictEvent ..)); (with_reducible refine Eff.step ?_ (conflictEvent_eff ..) ?hc); case hc => rfl)
    | ((with_reducible show Eff _ _ (showHeld ..)); (with_reducible refine Eff.step ?_ (showHeld_eff ..) ?hc); case hc => rfl)
    | (with_reducible refine Eff.mapGetD ?_ (fun k => ?_))
    | (with_reducible refine Eff.foldl ?_ (fun s x => ?_))
    | dsimp only
    | dsimp only [Option.getD_some, Option.getD_none]
    | split
    | (with_reducible apply Eff.of_rec (s := _))
    | (with_reducible exact .inl rfl)
    | (with_reducible rfl)
    | exact .inr rfl
    | (with_reducible exact .inl ⟨rfl, rfl, rfl, rfl⟩)
    | (with_reducible exact .inl (map_map_keep (fun _ => by first | rfl | ((try dsimp only); split <;> rfl))))
    | simp only [List.length_map, length_mapIf, length_setAt]
    | exact .inr ⟨rfl, by first | exact id | simp only [length_setAt, length_mapIf]⟩
    | exact .inr ⟨rfl, fun h => all_filter h⟩
    | exact .inr ⟨rfl, fun h => wf_set h _ _⟩
    | exact .inr ⟨rfl, fun h => wf_writeN h _ _⟩)

theorem cmdLeesRack_eff {p : Packet} {s t : State} {x : Done} (h : (cmdLeesRack).body p s = .ok (t, x)) : Eff [.vectors, .inject, .wire, .gloves, .sessions, .queues, .windows, .conns, .vintages] s t := by
  unfold cmdLeesRack at h
  try dsimp only [bind, Except.bind, Except.map, pure, Except.pure, Option.map] at h
  repeat' (first
    | (split at h)
    | cases h)
  all_goals repeat' (first
    | (with_reducible exact Eff.refl _ _)
    | ((with_reducible show Eff _ _ (rackClient ..)); (with_reducible refine Eff.step ?_ (rackClient_eff ..) ?hc); case hc => rfl)
    | (with_reducible refine Eff.foldl ?_ (fun s x => ?_)))

theorem execLeesRack_eff (p : Packet) (s : State) {t : State} (h : execLeesRack p s = .next t) : Eff (.gloves :: .windows :: .vintages :: answering) s t := by
  exact runCmd_eff (fun _ _ _ _ h => (cmdLeesRack_eff (h := h) ..).weaken rfl) rfl (by first | exact .inl (fun _ _ => rfl) | exact .inr rfl) h

theorem cmdLeesRetract_eff {p : Packet} {s t : State} {x : Done} (h : (cmdLeesRetract).body p s = .ok (t, x)) : Eff [.vintages] s t := by
  unfold cmdLeesRetract at h
  try dsimp only [bind, Except.bind, Except.map, pure, Except.pure, Option.map] at h
  repeat' (first
    | (split at h)
    | cases h)
  all_goals repeat' (first
    | (with_reducible exact Eff.refl _ _)
    | ((with_reducible show Eff _ _ (retractClient ..)); (with_reducible refine Eff.step ?_ (retractClient_eff ..) ?hc); case hc => rfl)
    | (with_reducible refine Eff.foldl ?_ (fun s x => ?_)))

theorem execLeesRetract_eff (p : Packet) (s : State) {t : State} (h : execLeesRetract p s = .next t) : Eff (.vintages :: answering) s t := by
  exact runCmd_eff (fun _ _ _ _ h => (cmdLeesRetract_eff (h := h) ..).weaken rfl) rfl (by first | exact .inl (fun _ _ => rfl) | exact .inr rfl) h

theorem rebase_eff (s : State) (g vid : Nat) : Eff [.casks] s (rebase s g vid) := by
  unfold rebase
  repeat' (first
    | (with_reducible exact Eff.refl _ _)
    | ((with_reducible show Eff _ _ (setCask ..)); (with_reducible refine Eff.step ?_ (setCask_eff _ _ _ _ (fun _ hx => by first | (with_reducible exact caskWf_of hx rfl rfl rfl) | (with_reducible exact caskWf_of (caskWf_placeValues hx _ _ _ _ _) rfl rfl rfl) | ((try dsimp only); split <;> (with_reducible exact caskWf_of hx rfl rfl rfl)) | (simp only [caskWf, Bool.and_eq_true, Option.map_none, Option.getD_none, and_true] at hx ⊢; exact hx.1) | exact (caskWf_iff _).mpr ⟨rfl, ((caskWf_iff _).mp hx).2⟩)) ?hc); case hc => rfl)
    | (with_reducible refine Eff.foldl ?_ (fun s x => ?_))
    | split)

theorem cmdCaskAdjust_eff {p : Packet} {s t : State} {x : Done} (h : (cmdCaskAdjust).body p s = .ok (t, x)) : Eff [.casks, .vintages] s t := by
  unfold cmdCaskAdjust at h
  obtain ⟨v, _, h⟩ := of_bind_ok h
  obtain ⟨c, _, h⟩ := of_bind_ok h
  obtain ⟨st, _, h⟩ := of_bind_ok h
  obtain ⟨row, _, h⟩ := of_bind_ok h
  obtain ⟨_, _, h⟩ := of_bind_ok h
  have h := ok_fst h
  subst h
  ((with_reducible refine Eff.step ?_ (rebase_eff ..) ?hc); case hc => rfl)
  have h1 := setCask_eff s p.ctx c.id (applyAdjust v (p.u8 4 == 1) (p.u32 8) p.stamp.count ((List.range (caskCount st)).map (coord st)) row)
    (fun c h => caskWf_applyAdjust h ..)
  generalize setCask s p.ctx c.id _ = s1 at h1 ⊢
  have h2 : Eff [.casks, .vintages] s s1 := h1.weaken rfl
  repeat' split
  all_goals first | exact h2 | (((with_reducible refine Eff.step ?_ (setVintage_eff ..) ?hc); case hc => rfl); exact h2)

theorem execCaskAdjust_eff (p : Packet) (s : State) {t : State} (h : execCaskAdjust p s = .next t) : Eff (.casks :: .vintages :: answering) s t := by
  exact runCmd_eff (fun _ _ _ _ h => (cmdCaskAdjust_eff (h := h) ..).weaken rfl) rfl (by first | exact .inl (fun _ _ => rfl) | exact .inr rfl) h

/-! ### Machine/Checkpoints.lean -/

theorem caskWf_readyHeaders {c : Cask} (h : caskWf c = true) (s : State) (v : Vintage) (x : Glove) :
    caskWf (readyHeaders s v x c) = true := caskWf_of h rfl rfl rfl

theorem wf_spoilImage (c : Cask) (errors : List (Nat × Nat)) {image : Mem} (h : Memory.wf image = true) :
    Memory.wf (spoilImage c errors image) = true := by
  unfold spoilImage
  have key : ∀ (l : List (Nat × Nat)) (k : Cask), Memory.wf k.data = true →
      Memory.wf (l.foldl (fun k e => if e.1 < caskCount c then setCoord k e.1 (e.2 % caskModulus c (limbOf c e.1)) else k) k).data = true := by
    intro l
    induction l with
    | nil => exact fun k hk => hk
    | cons e l ih =>
      intro k hk
      refine ih _ ?_
      dsimp only
      split
      · exact wf_writeN hk _ _
      · exact hk
  exact key errors _ h

theorem dropDue_eff (s : State) (g : Nat) : Eff [.gloves] s (dropDue s g) := by
  unfold dropDue
  repeat' (first
    | (with_reducible exact Eff.refl _ _)
    | ((with_reducible show Eff _ _ (setGlove ..)); (with_reducible refine Eff.step ?_ (setGlove_eff_g _ _ _ (fun _ => by first | (with_reducible rfl) | ((try dsimp only); split <;> (with_reducible rfl)))) ?hc); case hc => rfl))

theorem enterReady_eff (s : State) (v : Vintage) : Eff [.vectors, .gloves, .sessions, .queues, .casks, .vintages] s (enterReady s v) := by
  unfold enterReady
  dsimp only
  ((with_reducible refine Eff.step ?_ (vintageEvent_eff ..) ?hc); case hc => rfl)
  refine Eff.foldl ((setVintage_eff ..).weaken rfl) (fun s c => ?_)
  ((with_reducible refine Eff.step ?_ (setGlove_eff_g _ _ _ (fun _ => rfl)) ?hc); case hc => rfl)
  exact (setCask_eff _ _ _ _ (fun c h => caskWf_readyHeaders h ..)).weaken rfl

theorem tryReady_eff (s : State) (g vid : Nat) : Eff [.vectors, .gloves, .sessions, .queues, .casks, .vintages] s (tryReady s g vid) := by
  unfold tryReady
  repeat' (first
    | (with_reducible exact Eff.refl _ _)
    | ((with_reducible show Eff _ _ (enterReady ..)); (with_reducible refine Eff.step ?_ (enterReady_eff ..) ?hc); case hc => rfl)
    | split)

theorem execVintageReady_eff (glove vintage : Nat) (s : State) {t : State} (h : execVintageReady glove vintage s = .next t) : Eff [.vectors, .gloves, .sessions, .queues, .casks, .vintages] s t := by
  unfold execVintageReady at h
  try dsimp only [bind, Except.bind, Except.map, pure, Except.pure, Option.map] at h
  repeat' (first
    | (split at h)
    | (replace h := ok_fst h; subst h)
    | (replace h := Except.ok.inj h; subst h)
    | (replace h := Host.Outcome.next.inj h; subst h)
    | (replace h := Option.some.inj h; subst h)
    | cases h
    | (dsimp only at h))
  all_goals repeat' (first
    | (with_reducible assumption)
    | (with_reducible exact Eff.refl _ _)
    | (with_reducible refine unlessStalled_eff ?_ ?_)
    | ((with_reducible show Eff _ _ (tryReady ..)); (with_reducible refine Eff.step ?_ (tryReady_eff ..) ?hc); case hc => rfl)
    | (with_reducible refine Eff.mapGetD ?_ (fun k => ?_))
    | (with_reducible refine Eff.foldl ?_ (fun s x => ?_))
    | dsimp only
    | dsimp only [Option.getD_some, Option.getD_none]
    | split
    | simp only [List.length_map, length_mapIf, length_setAt])

theorem takeClose_eff (s : State) (g vid : Nat) : Eff [.vectors, .side, .inject, .wire, .keySlots, .gloves, .sessions, .queues, .outstanding, .windows, .conns, .casks, .vintages] s (takeClose s g vid) := by
  unfold takeClose
  repeat' (first
    | (with_reducible exact Eff.refl _ _)
    | ((with_reducible show Eff _ _ (dropDue ..)); (with_reducible refine Eff.step ?_ (dropDue_eff ..) ?hc); case hc => rfl)
    | ((with_reducible show Eff _ _ (sealVintage ..)); (with_reducible refine Eff.step ?_ (sealVintage_eff ..) ?hc); case hc => rfl)
    | split)

theorem execShareCloseDue_eff (glove vintage : Nat) (s : State) {t : State} (h : execShareCloseDue glove vintage s = .next t) : Eff [.vectors, .gloves, .sessions, .queues, .casks, .vintages] s t := by
  unfold execShareCloseDue at h
  repeat' (first
    | (split at h)
    | (replace h := Host.Outcome.next.inj h; subst h))
  all_goals repeat' (first
    | (with_reducible exact Eff.refl _ _)
    | ((with_reducible show Eff _ _ (shareClose ..)); (with_reducible refine Eff.step ?_ (shareClose_eff ..) ?hc); case hc => rfl)
    | ((with_reducible show Eff _ _ (dropDue ..)); (with_reducible refine Eff.step ?_ (dropDue_eff ..) ?hc); case hc => rfl)
    | ((with_reducible show Eff _ _ (tryReady ..)); (with_reducible refine Eff.step ?_ (tryReady_eff ..) ?hc); case hc => rfl))

theorem execCheckpointDue_eff (glove vintage : Nat) (s : State) {t : State} (h : execCheckpointDue glove vintage s = .next t) : Eff [.gloves, .casks] s t := by
  unfold execCheckpointDue at h
  try dsimp only [bind, Except.bind, Except.map, pure, Except.pure, Option.map] at h
  repeat' (first
    | (split at h)
    | (replace h := Host.Outcome.next.inj h; subst h))
  all_goals repeat' (first
    | (with_reducible exact Eff.refl _ _)
    | ((with_reducible show Eff _ _ (dropDue ..)); (with_reducible refine Eff.step ?_ (dropDue_eff ..) ?hc); case hc => rfl)
    | ((with_reducible show Eff _ _ (setCask ..)); (with_reducible refine Eff.step ?_ (setCask_eff _ _ _ _ (fun _ hx => by first | (with_reducible exact caskWf_of hx rfl rfl rfl) | (with_reducible exact caskWf_of (caskWf_placeValues hx _ _ _ _ _) rfl rfl rfl) | ((try dsimp only); split <;> (with_reducible exact caskWf_of hx rfl rfl rfl)) | (simp only [caskWf, Bool.and_eq_true, Option.map_none, Option.getD_none, and_true] at hx ⊢; exact hx.1) | exact (caskWf_iff _).mpr ⟨rfl, ((caskWf_iff _).mp hx).2⟩)) ?hc); case hc => rfl)
    | (with_reducible refine Eff.foldl ?_ (fun s x => ?_)))

theorem execKeyRotationDue_eff (glove : Nat) (s : State) {t : State} (h : execKeyRotationDue glove s = .next t) : Eff [.gloves] s t := by
  unfold execKeyRotationDue at h
  repeat' (first
    | (split at h)
    | (replace h := Host.Outcome.next.inj h; subst h))
  all_goals repeat' (first
    | (with_reducible exact Eff.refl _ _)
    | ((with_reducible show Eff _ _ (setGlove ..)); (with_reducible refine Eff.step ?_ (setGlove_eff_g _ _ _ (fun _ => by first | (with_reducible rfl) | ((try dsimp only); split <;> (with_reducible rfl)))) ?hc); case hc => rfl)
    | ((with_reducible show Eff _ _ (dropDue ..)); (with_reducible refine Eff.step ?_ (dropDue_eff ..) ?hc); case hc => rfl))

theorem execCheckpointCut_eff (glove cask : Nat) (s : State) {t : State} (h : execCheckpointCut glove cask s = .next t) : Eff [.casks] s t := by
  unfold execCheckpointCut at h
  repeat' (first
    | (replace h := Host.Outcome.next.inj h; subst h))
  all_goals repeat' (first
    | (with_reducible exact Eff.refl _ _)
    | ((with_reducible show Eff _ _ (takeCut ..)); (with_reducible refine Eff.step ?_ (takeCut_eff ..) ?hc); case hc => rfl))

theorem execCheckpointCopyDone_eff (glove cask : Nat) (errors : List (Nat × Nat)) (s : State) {t : State} (h : execCheckpointCopyDone glove cask errors s = .next t) : Eff [.casks] s t := by
  have h := Host.Outcome.next.inj h
  subst h
  refine setCask_eff _ _ _ _ (fun c hc => ?_)
  have hc' := (caskWf_iff c).mp hc
  split
  · next cp hcp =>
    split
    · exact hc
    · refine (caskWf_iff _).mpr ⟨hc'.1, hc'.2.1, fun y hy => ?_⟩
      have hy := Option.some.inj hy
      subst hy
      exact wf_spoilImage _ _ (hc'.2.2 cp hcp)
  · exact hc

theorem execCheckpointVerifyDone_eff (glove cask : Nat) (s : State) {t : State} (h : execCheckpointVerifyDone glove cask s = .next t) : Eff [.vectors, .inject, .wire, .int, .sessions, .queues, .conns, .casks, .vintages] s t := by
  unfold execCheckpointVerifyDone at h
  split at h
  · have h := Host.Outcome.next.inj h; subst h; exact Eff.refl _ _
  next c hc =>
  split at h
  · next cp v hcp hv =>
    split at h
    · have h := Host.Outcome.next.inj h; subst h; exact Eff.refl _ _
    dsimp only at h
    split at h
    · have h := Host.Outcome.next.inj h; subst h
      refine unlessStalled_eff (Eff.refl _ _) ?_
      ((with_reducible refine Eff.step ?_ (rebase_eff ..) ?hc); case hc => rfl)
      ((with_reducible refine Eff.step ?_ (runCorrections_eff ..) ?hc); case hc => rfl)
      exact (acceptCheckpoint_eff _ _ _ _ _ (fun hs => ((caskWf_iff c).mp (caskOf_wf hs hc)).2.2 cp hcp)).weaken rfl
    · have h := Host.Outcome.next.inj h; subst h
      refine unlessStalled_eff (Eff.refl _ _) ?_
      ((with_reducible refine Eff.step ?_ (startRollback_eff ..) ?hc); case hc => rfl)
      exact Eff.refl _ _
  · have h := Host.Outcome.next.inj h; subst h; exact Eff.refl _ _

theorem execRollbackRestoreDone_eff (glove cask : Nat) (s : State) {t : State} (h : execRollbackRestoreDone glove cask s = .next t) : Eff [.vectors, .inject, .wire, .sessions, .queues, .conns, .casks, .vintages] s t := by
  unfold execRollbackRestoreDone at h
  try dsimp only [bind, Except.bind, Except.map, pure, Except.pure, Option.map] at h
  repeat' (first
    | (split at h)
    | (replace h := ok_fst h; subst h)
    | (replace h := Except.ok.inj h; subst h)
    | (replace h := Host.Outcome.next.inj h; subst h)
    | (replace h := Option.some.inj h; subst h)
    | cases h
    | (dsimp only at h))
  all_goals repeat' (first
    | (with_reducible assumption)
    | (with_reducible exact Eff.refl _ _)
    | (with_reducible refine unlessStalled_eff ?_ ?_)
    | ((with_reducible show Eff _ _ (rebase ..)); (with_reducible refine Eff.step ?_ (rebase_eff ..) ?hc); case hc => rfl)
    | ((with_reducible show Eff _ _ (finishRollback ..)); (with_reducible refine Eff.step ?_ (finishRollback_eff ..) ?hc); case hc => rfl)
    | (with_reducible refine Eff.mapGetD ?_ (fun k => ?_))
    | (with_reducible refine Eff.foldl ?_ (fun s x => ?_))
    | dsimp only
    | dsimp only [Option.getD_some, Option.getD_none]
    | split
    | simp only [List.length_map, length_mapIf, length_setAt])

/-! ### Machine/Recipes.lean -/

theorem mem_insertBy {α : Type} (key : α → Nat) (x y : α) (l : List α) (h : y ∈ insertBy key x l) : y = x ∨ y ∈ l := by
  induction l with
  | nil => simpa [insertBy] using h
  | cons z l ih =>
    unfold insertBy at h
    split at h
    · simpa using h
    · rcases List.mem_cons.mp h with rfl | h
      · exact .inr List.mem_cons_self
      · exact (ih h).imp id (List.mem_cons_of_mem _)

theorem mem_sortBy {α : Type} (key : α → Nat) (l : List α) {y : α} (h : y ∈ sortBy key l) : y ∈ l := by
  have go : ∀ (l acc : List α), y ∈ l.foldl (fun acc x => insertBy key x acc) acc → y ∈ l ∨ y ∈ acc := by
    intro l
    induction l with
    | nil => exact fun acc h => .inr h
    | cons z l ih =>
      intro acc h
      rcases ih _ h with h | h
      · exact .inl (List.mem_cons_of_mem _ h)
      · rcases mem_insertBy key z y acc h with rfl | h
        · exact .inl List.mem_cons_self
        · exact .inr h
  simpa using go l [] h

theorem mem_accumulateCasks {s : State} {g v : Nat} {c : Cask} (h : c ∈ accumulateCasks s g v) : c ∈ s.casks := by
  unfold accumulateCasks casksBound at h
  exact (List.mem_filter.mp (List.mem_filter.mp h).1).1

theorem refCask_wf {s : State} {g v r : Nat} {c : Cask} (hs : ShapeOk s) (h : refCask s g v r = some c) : caskWf c = true := by
  unfold refCask at h
  split at h
  · exact List.all_eq_true.mp hs.casks c (mem_accumulateCasks (mem_sortBy _ _ (List.mem_of_getElem? h)))
  · split at h
    · exact caskOf_wf hs (Option.filter_eq_some_iff.mp h).1
    · cases h

theorem cmdRecipeLoad_eff {p : Packet} {s t : State} {x : Done} (h : (cmdRecipeLoad).body p s = .ok (t, x)) : Eff [.gloves] s t := by
  unfold cmdRecipeLoad at h
  try dsimp only [bind, Except.bind, Except.map, pure, Except.pure, Option.map] at h
  repeat' (first
    | (split at h)
    | cases h)
  all_goals repeat' (first
    | (with_reducible exact Eff.refl _ _)
    | ((with_reducible show Eff _ _ (setGlove ..)); (with_reducible refine Eff.step ?_ (setGlove_eff_g _ _ _ (fun _ => by first | (with_reducible rfl) | ((try dsimp only); split <;> (with_reducible rfl)))) ?hc); case hc => rfl))

theorem execRecipeLoad_eff (p : Packet) (s : State) {t : State} (h : execRecipeLoad p s = .next t) : Eff (.gloves :: answering) s t := by
  exact runCmd_eff (fun _ _ _ _ h => (cmdRecipeLoad_eff (h := h) ..).weaken rfl) rfl (by first | exact .inl (fun _ _ => rfl) | exact .inr rfl) h

theorem cmdRecipeFree_eff {p : Packet} {s t : State} {x : Done} (h : (cmdRecipeFree).body p s = .ok (t, x)) : Eff [.gloves] s t := by
  unfold cmdRecipeFree at h
  repeat' (first
    | (replace h := ok_fst h; subst h))
  all_goals repeat' (first
    | (with_reducible exact Eff.refl _ _)
    | ((with_reducible show Eff _ _ (setGlove ..)); (with_reducible refine Eff.step ?_ (setGlove_eff_g _ _ _ (fun _ => by first | (with_reducible rfl) | ((try dsimp only); split <;> (with_reducible rfl)))) ?hc); case hc => rfl))

theorem execRecipeFree_eff (p : Packet) (s : State) {t : State} (h : execRecipeFree p s = .next t) : Eff (.gloves :: answering) s t := by
  exact runCmd_eff (fun _ _ _ _ h => (cmdRecipeFree_eff (h := h) ..).weaken rfl) rfl (by first | exact .inl (fun _ _ => rfl) | exact .inr rfl) h

theorem writeRef_eff (s : State) (g vid : Nat) (t : Temps) (r : Nat) (vals : List Nat) : Eff [.casks] s (writeRef s g vid t r vals).1 := by
  unfold writeRef
  split
  · exact Eff.refl _ _
  · split
    · next c hc =>
      refine Eff.cask (Eff.refl _ _) (fun hs x hx => ?_) rfl
      exact caskWf_data hx (wf_writeN ((caskWf_iff c).mp (refCask_wf hs hc)).1 _ _)
    · exact Eff.refl _ _

theorem runStep_eff (g vid survivors : Nat) (acc : State × Temps) (st : List Byte) : Eff [.casks] acc.1 (runStep g vid survivors acc st).1 := by
  unfold runStep
  repeat' (first
    | (with_reducible exact Eff.refl _ _)
    | ((with_reducible refine Eff.step ?_ (writeRef_eff ..) ?hc); case hc => rfl)
    | ((with_reducible show Eff _ _ (setCask ..)); (with_reducible refine Eff.step ?_ (setCask_eff _ _ _ _ (fun _ hx => by first | (with_reducible exact caskWf_of hx rfl rfl rfl) | (with_reducible exact caskWf_of (caskWf_placeValues hx _ _ _ _ _) rfl rfl rfl) | ((try dsimp only); split <;> (with_reducible exact caskWf_of hx rfl rfl rfl)) | (simp only [caskWf, Bool.and_eq_true, Option.map_none, Option.getD_none, and_true] at hx ⊢; exact hx.1) | exact (caskWf_iff _).mpr ⟨rfl, ((caskWf_iff _).mp hx).2⟩)) ?hc); case hc => rfl)
    | split)

/-! ### Machine/Release.lean -/

theorem caskWf_addNoise {c : Cask} (h : caskWf c = true) (sigma draw tile : Nat) : caskWf (addNoise sigma draw tile c) = true := by
  unfold addNoise
  exact caskWf_foldl (fun c i h => caskWf_setCoord h _ _) _ h

theorem startRelease_eff (p : Packet) (s : State) (v : Vintage) (keys : List Nat) : Eff [.ent, .gloves, .vintages, .free] s (startRelease p s v keys).1 := by
  unfold startRelease
  repeat' (first
    | (with_reducible exact Eff.refl _ _)
    | ((with_reducible show Eff _ _ (setVintage ..)); (with_reducible refine Eff.step ?_ (setVintage_eff ..) ?hc); case hc => rfl)
    | ((with_reducible show Eff _ _ (takeBlocks ..)); (with_reducible refine Eff.step ?_ (takeBlocks_eff ..) ?hc); case hc => rfl)
    | dsimp only
    | split
    | (with_reducible apply Eff.of_rec (s := _))
    | (with_reducible exact .inl rfl)
    | exact .inr rfl
    | (with_reducible exact .inl ⟨rfl, rfl, rfl, rfl⟩))

theorem cmdVintageRelease_eff {p : Packet} {s t : State} {x : Done} (h : (cmdVintageRelease).body p s = .ok (t, x)) : Eff [.ent, .gloves, .vintages, .free] s t := by
  unfold cmdVintageRelease at h
  try dsimp only [bind, Except.bind, Except.map, pure, Except.pure, Option.map] at h
  repeat' (first
    | (split at h)
    | (replace h := ok_fst h; subst h)
    | (replace h := Host.Outcome.next.inj h; subst h)
    | cases h)
  all_goals repeat' (first
    | (with_reducible exact Eff.refl _ _)
    | ((with_reducible refine Eff.step ?_ (startRelease_eff ..) ?hc); case hc => rfl))

theorem execVintageRelease_eff (p : Packet) (s : State) {t : State} (h : execVintageRelease p s = .next t) : Eff (.ent :: .gloves :: .vintages :: .free :: answering) s t := by
  exact runCmd_eff (fun _ _ _ _ h => (cmdVintageRelease_eff (h := h) ..).weaken rfl) rfl (by first | exact .inl (fun _ _ => rfl) | exact .inr rfl) h

theorem execReleaseCommit_eff (glove vintage : Nat) (s : State) {t : State} (h : execReleaseCommit glove vintage s = .next t) : Eff [.outstanding, .vintages] s t := by
  unfold execReleaseCommit at h
  repeat' (first
    | (split at h)
    | (replace h := Host.Outcome.next.inj h; subst h))
  all_goals repeat' (first
    | (with_reducible exact Eff.refl _ _)
    | ((with_reducible show Eff _ _ (setVintage ..)); (with_reducible refine Eff.step ?_ (setVintage_eff ..) ?hc); case hc => rfl)
    | dsimp only
    | (with_reducible apply Eff.of_rec (s := _))
    | (with_reducible exact .inl rfl)
    | exact .inr rfl
    | (with_reducible exact .inl ⟨rfl, rfl, rfl, rfl⟩))

theorem releaseMasked_eff (s : State) (v : Vintage) : Eff [.casks] s (releaseMasked s v) := by
  unfold releaseMasked
  exact Eff.foldl_fst (Eff.refl _ _) (fun acc x => runStep_eff ..)

theorem releaseEncrypted_eff (s : State) (v : Vintage) (r : Release) : Eff [.gloves, .casks] s (releaseEncrypted s v r) := by
  unfold releaseEncrypted
  ((with_reducible refine Eff.step ?_ (setGlove_eff_g _ _ _ (fun _ => rfl)) ?hc); case hc => rfl)
  refine Eff.step (a := [.casks]) (Eff.refl _ _) (setCask_eff _ _ _ _ (fun c h => ?_)) rfl
  refine caskWf_foldl (fun c x h => ?_) _ h
  exact caskWf_putHeader (caskWf_foldl (fun c l hc => caskWf_putPoly hc _ _ _ _) _ h) _ _

theorem createExports_eff (s : State) (v : Vintage) (r : Release) : Eff [.windows] s (createExports s v r) := by
  unfold createExports
  repeat' (first
    | (with_reducible assumption)
    | (with_reducible exact Eff.refl _ _)
    | (with_reducible refine Eff.mapGetD ?_ (fun k => ?_))
    | (with_reducible refine Eff.foldl ?_ (fun s x => ?_))
    | dsimp only
    | dsimp only [Option.getD_some, Option.getD_none]
    | split
    | (with_reducible apply Eff.of_rec (s := _))
    | (with_reducible exact .inl rfl)
    | (with_reducible rfl)
    | exact .inr rfl
    | (with_reducible exact .inl ⟨rfl, rfl, rfl, rfl⟩)
    | (with_reducible exact .inl (map_map_keep (fun _ => by first | rfl | ((try dsimp only); split <;> rfl))))
    | simp only [List.length_map, length_mapIf, length_setAt]
    | exact .inr ⟨rfl, by first | exact id | simp only [length_setAt, length_mapIf]⟩
    | exact .inr ⟨rfl, fun h => all_filter h⟩
    | exact .inr ⟨rfl, fun h => wf_set h _ _⟩
    | exact .inr ⟨rfl, fun h => wf_writeN h _ _⟩)

theorem releasedEvent_eff (s : State) (v : Vintage) (r : Release) : Eff [.vectors, .sessions, .queues] s (releasedEvent s v r) := by
  unfold releasedEvent
  repeat' (first
    | (with_reducible exact Eff.refl _ _)
    | ((with_reducible show Eff _ _ (postEvent ..)); (with_reducible refine Eff.step ?_ (postEvent_eff ..) ?hc); case hc => rfl))

theorem execReleaseComplete_eff (glove vintage : Nat) (s : State) {t : State} (h : execReleaseComplete glove vintage s = .next t) : Eff [.vectors, .side, .inject, .wire, .gloves, .sessions, .queues, .outstanding, .windows, .conns, .casks, .vintages] s t := by
  unfold execReleaseComplete at h
  try dsimp only [bind, Except.bind, Except.map, pure, Except.pure, Option.map] at h
  repeat' (first
    | (split at h)
    | (replace h := ok_fst h; subst h)
    | (replace h := Except.ok.inj h; subst h)
    | (replace h := Host.Outcome.next.inj h; subst h)
    | (replace h := Option.some.inj h; subst h)
    | cases h
    | (dsimp only at h))
  all_goals repeat' (first
    | (with_reducible assumption)
    | (with_reducible exact Eff.refl _ _)
    | ((with_reducible show Eff _ _ (releaseEncrypted ..)); (with_reducible refine Eff.step ?_ (releaseEncrypted_eff ..) ?hc); case hc => rfl)
    | ((with_reducible show Eff _ _ (releaseMasked ..)); (with_reducible refine Eff.step ?_ (releaseMasked_eff ..) ?hc); case hc => rfl)
    | ((with_reducible show Eff _ _ (createExports ..)); (with_reducible refine Eff.step ?_ (createExports_eff ..) ?hc); case hc => rfl)
    | ((with_reducible show Eff _ _ (setVintage ..)); (with_reducible refine Eff.step ?_ (setVintage_eff ..) ?hc); case hc => rfl)
    | ((with_reducible show Eff _ _ (releasedEvent ..)); (with_reducible refine Eff.step ?_ (releasedEvent_eff ..) ?hc); case hc => rfl)
    | (with_reducible refine unlessStalled_eff ?_ ?_)
    | ((with_reducible show Eff _ _ (reply ..)); (with_reducible refine Eff.step ?_ (reply_eff ..) ?hc); case hc => rfl)
    | (with_reducible refine Eff.mapGetD ?_ (fun k => ?_))
    | (with_reducible refine Eff.foldl ?_ (fun s x => ?_))
    | dsimp only
    | dsimp only [Option.getD_some, Option.getD_none]
    | split
    | simp only [List.length_map, length_mapIf, length_setAt])

end Sys2Proof.Machine
end

