-- ==== Sys2Proof/Laws/EffectsHealth.lean ====
section
/-! SUPPORT. The effect of each operation of the integrity controller, the boot, attestation and the Entropy Unit:
the parts of the state it may change (`Eff`, Laws/Effects.lean). -/

set_option autoImplicit false
set_option linter.unusedTactic false
set_option linter.unreachableTactic false
set_option linter.unusedSimpArgs false
set_option Elab.async false

namespace Sys2Proof.Machine

/-! ### Machine/Integrity.lean -/

theorem int_eff (s : State) (i : Integrity) (h : i.vats.length = s.int.vats.length) : Eff [.int] s { s with int := i } := by
    apply Eff.of_rec (s := s) (Eff.refl _ _)
    all_goals first | (with_reducible exact .inl rfl) | (with_reducible rfl) | (with_reducible exact .inl ⟨rfl, rfl, rfl, rfl⟩) | exact .inr rfl | exact .inr ⟨rfl, h⟩

theorem suspectVat_eff (s : State) (glove v : Nat) : Eff [.vectors, .int, .sessions, .queues] s (suspectVat s glove v) := by
  unfold suspectVat
  repeat' (first
    | (with_reducible exact Eff.refl _ _)
    | ((with_reducible show Eff _ _ (changeVat ..)); (with_reducible refine Eff.step ?_ (changeVat_eff ..) ?hc); case hc => rfl)
    | split)

theorem startScan_eff (s : State) : Eff [.vectors, .int, .sessions, .queues, .free] s (startScan s) := by
  unfold startScan
  dsimp only [drawFree, drawBytes]
  repeat' (first
    | (with_reducible assumption)
    | (with_reducible exact Eff.refl _ _)
    | ((with_reducible refine Eff.step ?_ (Eff.snd_of (by assumption) (drawFree_eff ..)) ?hc); case hc => rfl)
    | ((with_reducible refine Eff.step ?_ (drawFree_eff ..) ?hc); case hc => rfl)
    | ((with_reducible show Eff _ _ (changeVat ..)); (with_reducible refine Eff.step ?_ (changeVat_eff ..) ?hc); case hc => rfl)
    | ((with_reducible show Eff _ _ (setVat ..)); (with_reducible refine Eff.step ?_ (setVat_eff ..) ?hc); case hc => rfl)
    | (with_reducible refine Eff.mapGetD ?_ (fun k => ?_))
    | (with_reducible refine Eff.foldl ?_ (fun s x => ?_))
    | dsimp only
    | dsimp only [Option.getD_some, Option.getD_none]
    | split
    | (with_reducible apply Eff.of_rec (s := _))
    | (with_reducible exact .inl rfl)
    | (with_reducible rfl)
    | exact .inr rfl
    | (with_reducible exact .inl ⟨rfl, rfl, rfl, rfl⟩)
    | (with_reducible exact .inl (map_map_keep (fun _ => by first | rfl | ((try dsimp only); split <;> rfl))))
    | simp only [List.length_map, length_mapIf, length_setAt]
    | exact .inr ⟨rfl, by first | exact id | simp only [length_setAt, length_mapIf]⟩
    | exact .inr ⟨rfl, fun h => all_filter h⟩
    | exact .inr ⟨rfl, fun h => wf_set h _ _⟩
    | exact .inr ⟨rfl, fun h => wf_writeN h _ _⟩)

theorem leaveService_eff (s : State) (vat : Nat) : Eff [.vectors, .int, .gloves, .sessions, .queues, .casks, .free] s (leaveService s vat) := by
  unfold leaveService
  repeat' (first
    | (with_reducible exact Eff.refl _ _)
    | ((with_reducible show Eff _ _ (setVat ..)); (with_reducible refine Eff.step ?_ (setVat_eff ..) ?hc); case hc => rfl)
    | ((with_reducible show Eff _ _ (setGlove ..)); (with_reducible refine Eff.step ?_ (setGlove_eff_g _ _ _ (fun _ => by first | (with_reducible rfl) | ((try dsimp only); split <;> (with_reducible rfl)))) ?hc); case hc => rfl)
    | ((with_reducible show Eff _ _ (startScan ..)); (with_reducible refine Eff.step ?_ (startScan_eff ..) ?hc); case hc => rfl)
    | ((with_reducible show Eff _ _ (restripeIdle ..)); (with_reducible refine Eff.step ?_ (restripeIdle_eff ..) ?hc); case hc => rfl)
    | (with_reducible refine Eff.foldl ?_ (fun s x => ?_))
    | (with_reducible apply Eff.of_rec (s := _))
    | (with_reducible exact .inl rfl)
    | exact .inr rfl
    | (with_reducible exact .inl ⟨rfl, rfl, rfl, rfl⟩)
    | simp only [List.length_map, length_mapIf, length_setAt]
    | exact .inr ⟨rfl, by first | exact id | simp only [length_setAt, length_mapIf]⟩)

theorem execVatLeaveService_eff (vat : Nat) (s : State) {t : State} (h : execVatLeaveService vat s = .next t) : Eff [.vectors, .int, .gloves, .sessions, .queues, .casks, .free] s t := by
  unfold execVatLeaveService at h
  repeat' (first
    | (split at h)
    | (replace h := Host.Outcome.next.inj h; subst h))
  all_goals repeat' (first
    | (with_reducible exact Eff.refl _ _)
    | ((with_reducible show Eff _ _ (leaveService ..)); (with_reducible refine Eff.step ?_ (leaveService_eff ..) ?hc); case hc => rfl))

theorem execRestripeDone_eff (glove : Nat) (s : State) {t : State} (h : execRestripeDone glove s = .next t) : Eff [.vectors, .int, .gloves, .sessions, .queues, .conns, .casks] s t := by
  unfold execRestripeDone at h
  split at h
  · have h := Host.Outcome.next.inj h
    subst h
    ((with_reducible refine Eff.step ?_ (int_eff _ _ rfl) ?hc); case hc => rfl)
    ((with_reducible refine Eff.step ?_ (settleVats_eff ..) ?hc); case hc => rfl)
    exact (restripeGlove_eff ..).weaken rfl
  · have h := Host.Outcome.next.inj h; subst h; exact Eff.refl _ _

theorem copyChecked_eff (s : State) (c : Cask) (i : Nat) (errors : List (Nat × Nat)) (eccGood : Bool) (hc : ShapeOk s → caskWf c = true) :
    Eff [.vectors, .int, .sessions, .queues, .conns, .casks] s (copyChecked s c i errors eccGood) := by
  have taken : Eff [.casks] s (setCask s c.glove c.id (fun _ => copiedCask c i errors)) :=
    setCask_eff_s _ _ _ _ (fun hs x _ => by
      have h := (caskWf_iff c).mp (hc hs)
      exact (caskWf_iff _).mpr ⟨wf_spoilImage _ _ h.1, h.2⟩)
  unfold copyChecked
  dsimp only
  repeat' (first
    | (with_reducible exact Eff.refl _ _)
    | exact taken.weaken rfl
    | ((with_reducible show Eff _ _ (redoStripes ..)); (with_reducible refine Eff.step ?_ (redoStripes_eff ..) ?hc); case hc => rfl)
    | ((with_reducible show Eff _ _ (startRollback ..)); (with_reducible refine Eff.step ?_ (startRollback_eff ..) ?hc); case hc => rfl)
    | ((with_reducible show Eff _ _ (withholdCask ..)); (with_reducible refine Eff.step ?_ (withholdCask_eff ..) ?hc); case hc => rfl)
    | split)

theorem execCarryVerifyDone_eff (glove cask : Nat) (copy : StripeCopy) (s : State) {t : State} (h : execCarryVerifyDone glove cask copy s = .next t) : Eff [.vectors, .int, .sessions, .queues, .conns, .casks] s t := by
  unfold execCarryVerifyDone at h
  split at h
  · have h1 := int_eff s { s.int with verifying := s.int.verifying.filter (· != (glove, cask)) } rfl
    dsimp only at h
    generalize ({ s with int := { s.int with verifying := s.int.verifying.filter (· != (glove, cask)) } } : State) = s1 at h h1
    split at h
    · have h := Host.Outcome.next.inj h; subst h; exact h1.weaken rfl
    · next c hc =>
      split at h
      · have h := Host.Outcome.next.inj h
        subst h
        refine unlessStalled_eff (Eff.refl _ _) ?_
        exact (h1.weaken rfl).step (copyChecked_eff _ _ _ _ _ (fun hs => caskOf_wf hs hc)) rfl
      · have h := Host.Outcome.next.inj h; subst h; exact h1.weaken rfl
  · have h := Host.Outcome.next.inj h; subst h; exact Eff.refl _ _

theorem reissueWaiting_eff (s : State) : Eff [.int, .casks] s (reissueWaiting s) := by
  unfold reissueWaiting
  repeat' (first
    | (with_reducible assumption)
    | (with_reducible exact Eff.refl _ _)
    | ((with_reducible show Eff _ _ (redoStripes ..)); (with_reducible refine Eff.step ?_ (redoStripes_eff ..) ?hc); case hc => rfl)
    | (with_reducible refine Eff.mapGetD ?_ (fun k => ?_))
    | (with_reducible refine Eff.foldl ?_ (fun s x => ?_))
    | dsimp only
    | dsimp only [Option.getD_some, Option.getD_none]
    | split
    | (with_reducible apply Eff.of_rec (s := _))
    | (with_reducible exact .inl rfl)
    | (with_reducible rfl)
    | exact .inr rfl
    | (with_reducible exact .inl ⟨rfl, rfl, rfl, rfl⟩)
    | (with_reducible exact .inl (map_map_keep (fun _ => by first | rfl | ((try dsimp only); split <;> rfl))))
    | simp only [List.length_map, length_mapIf, length_setAt]
    | exact .inr ⟨rfl, by first | exact id | simp only [length_setAt, length_mapIf]⟩
    | exact .inr ⟨rfl, fun h => all_filter h⟩
    | exact .inr ⟨rfl, fun h => wf_set h _ _⟩
    | exact .inr ⟨rfl, fun h => wf_writeN h _ _⟩)

theorem settleWaiting_eff (s : State) : Eff [.int, .casks] s (settleWaiting s) := by
  unfold settleWaiting
  repeat' (first
    | (with_reducible assumption)
    | (with_reducible exact Eff.refl _ _)
    | ((with_reducible show Eff _ _ (reissueWaiting ..)); (with_reducible refine Eff.step ?_ (reissueWaiting_eff ..) ?hc); case hc => rfl)
    | (with_reducible refine Eff.mapGetD ?_ (fun k => ?_))
    | (with_reducible refine Eff.foldl ?_ (fun s x => ?_))
    | dsimp only
    | dsimp only [Option.getD_some, Option.getD_none]
    | split
    | simp only [List.length_map, length_mapIf, length_setAt])

theorem scanEnded_eff (s : State) (vat : Nat) (pass : Bool) (misr : Nat) : Eff [.vectors, .int, .sessions, .queues] s (scanEnded s vat pass misr) := by
  unfold scanEnded
  repeat' (first
    | (with_reducible assumption)
    | (with_reducible exact Eff.refl _ _)
    | ((with_reducible show Eff _ _ (addRecord ..)); (with_reducible refine Eff.step ?_ (addRecord_eff ..) ?hc); case hc => rfl)
    | ((with_reducible show Eff _ _ (setVat ..)); (with_reducible refine Eff.step ?_ (setVat_eff ..) ?hc); case hc => rfl)
    | ((with_reducible show Eff _ _ (changeVat ..)); (with_reducible refine Eff.step ?_ (changeVat_eff ..) ?hc); case hc => rfl)
    | ((with_reducible show Eff _ _ (retireVat ..)); (with_reducible refine Eff.step ?_ (retireVat_eff ..) ?hc); case hc => rfl)
    | (with_reducible refine Eff.mapGetD ?_ (fun k => ?_))
    | (with_reducible refine Eff.foldl ?_ (fun s x => ?_))
    | dsimp only
    | dsimp only [Option.getD_some, Option.getD_none]
    | split
    | simp only [List.length_map, length_mapIf, length_setAt])

theorem execScanDone_eff (vat : Nat) (pass : Bool) (misr : Nat) (s : State) {t : State} (h : execScanDone vat pass misr s = .next t) : Eff [.vectors, .int, .sessions, .queues, .casks, .free] s t := by
  unfold execScanDone at h
  try dsimp only [bind, Except.bind, Except.map, pure, Except.pure, Option.map] at h
  repeat' (first
    | (split at h)
    | (replace h := ok_fst h; subst h)
    | (replace h := Except.ok.inj h; subst h)
    | (replace h := Host.Outcome.next.inj h; subst h)
    | (replace h := Option.some.inj h; subst h)
    | cases h
    | (dsimp only at h))
  all_goals repeat' (first
    | (with_reducible assumption)
    | (with_reducible exact Eff.refl _ _)
    | ((with_reducible show Eff _ _ (scanEnded ..)); (with_reducible refine Eff.step ?_ (scanEnded_eff ..) ?hc); case hc => rfl)
    | ((with_reducible show Eff _ _ (startScan ..)); (with_reducible refine Eff.step ?_ (startScan_eff ..) ?hc); case hc => rfl)
    | ((with_reducible show Eff _ _ (reissueWaiting ..)); (with_reducible refine Eff.step ?_ (reissueWaiting_eff ..) ?hc); case hc => rfl)
    | (with_reducible refine Eff.mapGetD ?_ (fun k => ?_))
    | (with_reducible refine Eff.foldl ?_ (fun s x => ?_))
    | dsimp only
    | dsimp only [Option.getD_some, Option.getD_none]
    | split
    | simp only [List.length_map, length_mapIf, length_setAt])

theorem execProbationComplete_eff (vat : Nat) (s : State) {t : State} (h : execProbationComplete vat s = .next t) : Eff [.vectors, .int, .gloves, .sessions, .queues] s t := by
  unfold execProbationComplete at h
  repeat' (first
    | (split at h)
    | (replace h := Host.Outcome.next.inj h; subst h))
  all_goals repeat' (first
    | (with_reducible exact Eff.refl _ _)
    | ((with_reducible show Eff _ _ (changeVat ..)); (with_reducible refine Eff.step ?_ (changeVat_eff ..) ?hc); case hc => rfl)
    | ((with_reducible show Eff _ _ (setVat ..)); (with_reducible refine Eff.step ?_ (setVat_eff ..) ?hc); case hc => rfl)
    | ((with_reducible show Eff _ _ (setGlove ..)); (with_reducible refine Eff.step ?_ (setGlove_eff_g _ _ _ (fun _ => by first | (with_reducible rfl) | ((try dsimp only); split <;> (with_reducible rfl)))) ?hc); case hc => rfl)
    | ((with_reducible show Eff _ _ (restripeIdle ..)); (with_reducible refine Eff.step ?_ (restripeIdle_eff ..) ?hc); case hc => rfl)
    | (with_reducible refine Eff.foldl ?_ (fun s x => ?_)))

theorem setTaste_eff (s : State) (g : Nat) (t : TasteClass) : Eff [.gloves] s (setTaste s g t) := by
  unfold setTaste
  repeat' (first
    | (with_reducible assumption)
    | (with_reducible exact Eff.refl _ _)
    | ((with_reducible show Eff _ _ (setGlove ..)); (with_reducible refine Eff.step ?_ (setGlove_eff_s _ _ _ (fun _ => by first | (with_reducible rfl) | ((try dsimp only); split <;> (with_reducible rfl)))) ?hc); case hc => rfl)
    | ((with_reducible show Eff _ _ (setGlove ..)); (with_reducible refine Eff.step ?_ (setGlove_eff_g _ _ _ (fun _ => by first | (with_reducible rfl) | ((try dsimp only); split <;> (with_reducible rfl)))) ?hc); case hc => rfl)
    | ((with_reducible show Eff _ _ (setGlove ..)); (with_reducible refine Eff.step ?_ (setGlove_eff _ _ _) ?hc); case hc => rfl)
    | (with_reducible refine Eff.mapGetD ?_ (fun k => ?_))
    | (with_reducible refine Eff.foldl ?_ (fun s x => ?_))
    | dsimp only
    | dsimp only [Option.getD_some, Option.getD_none]
    | split
    | simp only [List.length_map, length_mapIf, length_setAt])

theorem countTaste_eff (s : State) (g vat k tile : Nat) : Eff [.int, .gloves] s (countTaste s g vat k tile) := by
  unfold countTaste
  repeat' (first
    | (with_reducible assumption)
    | (with_reducible exact Eff.refl _ _)
    | ((with_reducible show Eff _ _ (setTaste ..)); (with_reducible refine Eff.step ?_ (setTaste_eff ..) ?hc); case hc => rfl)
    | (with_reducible refine Eff.mapGetD ?_ (fun k => ?_))
    | (with_reducible refine Eff.foldl ?_ (fun s x => ?_))
    | dsimp only
    | dsimp only [Option.getD_some, Option.getD_none]
    | split
    | (with_reducible apply Eff.of_rec (s := _))
    | (with_reducible exact .inl rfl)
    | (with_reducible rfl)
    | exact .inr rfl
    | (with_reducible exact .inl ⟨rfl, rfl, rfl, rfl⟩)
    | (with_reducible exact .inl (map_map_keep (fun _ => by first | rfl | ((try dsimp only); split <;> rfl))))
    | simp only [List.length_map, length_mapIf, length_setAt]
    | exact .inr ⟨rfl, by first | exact id | simp only [length_setAt, length_mapIf]⟩
    | exact .inr ⟨rfl, fun h => all_filter h⟩
    | exact .inr ⟨rfl, fun h => wf_set h _ _⟩
    | exact .inr ⟨rfl, fun h => wf_writeN h _ _⟩)

theorem fillBuffers_eff (s : State) (vats : List Nat) (results : List (List Nat)) : Eff [.int] s (fillBuffers s vats results) := by
  unfold fillBuffers
  repeat' (first
    | (with_reducible assumption)
    | (with_reducible exact Eff.refl _ _)
    | ((with_reducible show Eff _ _ (setVat ..)); (with_reducible refine Eff.step ?_ (setVat_eff ..) ?hc); case hc => rfl)
    | (with_reducible refine Eff.mapGetD ?_ (fun k => ?_))
    | (with_reducible refine Eff.foldl ?_ (fun s x => ?_))
    | dsimp only
    | dsimp only [Option.getD_some, Option.getD_none]
    | split
    | simp only [List.length_map, length_mapIf, length_setAt])

theorem startChase_eff (s : State) (g vat k : Nat) : Eff [.int] s (startChase s g vat k) := by
  unfold startChase
  repeat' (first
    | (with_reducible assumption)
    | (with_reducible exact Eff.refl _ _)
    | (with_reducible refine Eff.mapGetD ?_ (fun k => ?_))
    | (with_reducible refine Eff.foldl ?_ (fun s x => ?_))
    | dsimp only
    | dsimp only [Option.getD_some, Option.getD_none]
    | split
    | (with_reducible apply Eff.of_rec (s := _))
    | (with_reducible exact .inl rfl)
    | (with_reducible rfl)
    | exact .inr rfl
    | (with_reducible exact .inl ⟨rfl, rfl, rfl, rfl⟩)
    | (with_reducible exact .inl (map_map_keep (fun _ => by first | rfl | ((try dsimp only); split <;> rfl))))
    | simp only [List.length_map, length_mapIf, length_setAt]
    | exact .inr ⟨rfl, by first | exact id | simp only [length_setAt, length_mapIf]⟩
    | exact .inr ⟨rfl, fun h => all_filter h⟩
    | exact .inr ⟨rfl, fun h => wf_set h _ _⟩
    | exact .inr ⟨rfl, fun h => wf_writeN h _ _⟩)

theorem execChaseEnd_eff (glove vat cls : Nat) (s : State) {t : State} (h : execChaseEnd glove vat cls s = .next t) : Eff [.int] s t := by
  unfold execChaseEnd at h
  try dsimp only [bind, Except.bind, Except.map, pure, Except.pure, Option.map] at h
  repeat' (first
    | (split at h)
    | (replace h := ok_fst h; subst h)
    | (replace h := Except.ok.inj h; subst h)
    | (replace h := Host.Outcome.next.inj h; subst h)
    | (replace h := Option.some.inj h; subst h)
    | cases h
    | (dsimp only at h))
  all_goals repeat' (first
    | (with_reducible assumption)
    | (with_reducible exact Eff.refl _ _)
    | (with_reducible refine Eff.mapGetD ?_ (fun k => ?_))
    | (with_reducible refine Eff.foldl ?_ (fun s x => ?_))
    | dsimp only
    | dsimp only [Option.getD_some, Option.getD_none]
    | split
    | (with_reducible apply Eff.of_rec (s := _))
    | (with_reducible exact .inl rfl)
    | (with_reducible rfl)
    | exact .inr rfl
    | (with_reducible exact .inl ⟨rfl, rfl, rfl, rfl⟩)
    | (with_reducible exact .inl (map_map_keep (fun _ => by first | rfl | ((try dsimp only); split <;> rfl))))
    | simp only [List.length_map, length_mapIf, length_setAt]
    | exact .inr ⟨rfl, by first | exact id | simp only [length_setAt, length_mapIf]⟩
    | exact .inr ⟨rfl, fun h => all_filter h⟩
    | exact .inr ⟨rfl, fun h => wf_set h _ _⟩
    | exact .inr ⟨rfl, fun h => wf_writeN h _ _⟩)

theorem chargeRuns_eff (s : State) (g k tile : Nat) (vats : List Nat) (results : List (List Nat)) (runs : Nat) (value : List Nat) : Eff [.vectors, .int, .sessions, .queues] s (chargeRuns s g k tile vats results runs value) := by
  unfold chargeRuns
  dsimp only [drawFree, drawBytes]
  repeat' (first
    | (with_reducible assumption)
    | (with_reducible exact Eff.refl _ _)
    | ((with_reducible refine Eff.step ?_ (Eff.snd_of (by assumption) (drawFree_eff ..)) ?hc); case hc => rfl)
    | ((with_reducible refine Eff.step ?_ (drawFree_eff ..) ?hc); case hc => rfl)
    | ((with_reducible show Eff _ _ (chargeVat ..)); (with_reducible refine Eff.step ?_ (chargeVat_eff ..) ?hc); case hc => rfl)
    | ((with_reducible show Eff _ _ (startChase ..)); (with_reducible refine Eff.step ?_ (startChase_eff ..) ?hc); case hc => rfl)
    | (with_reducible refine Eff.mapGetD ?_ (fun k => ?_))
    | (with_reducible refine Eff.foldl ?_ (fun s x => ?_))
    | dsimp only
    | dsimp only [Option.getD_some, Option.getD_none]
    | split
    | (with_reducible apply Eff.of_rec (s := _))
    | (with_reducible exact .inl rfl)
    | (with_reducible rfl)
    | exact .inr rfl
    | (with_reducible exact .inl ⟨rfl, rfl, rfl, rfl⟩)
    | (with_reducible exact .inl (map_map_keep (fun _ => by first | rfl | ((try dsimp only); split <;> rfl))))
    | simp only [List.length_map, length_mapIf, length_setAt]
    | exact .inr ⟨rfl, by first | exact id | simp only [length_setAt, length_mapIf]⟩
    | exact .inr ⟨rfl, fun h => all_filter h⟩
    | exact .inr ⟨rfl, fun h => wf_set h _ _⟩
    | exact .inr ⟨rfl, fun h => wf_writeN h _ _⟩)

theorem runShadow_eff (g k tile : Nat) (value : List Nat) (s : State) (x : Nat × List Nat) : Eff [.vectors, .int, .sessions, .queues] s (runShadow g k tile value s x) := by
  unfold runShadow
  repeat' (first
    | (with_reducible assumption)
    | (with_reducible exact Eff.refl _ _)
    | ((with_reducible show Eff _ _ (setVat ..)); (with_reducible refine Eff.step ?_ (setVat_eff ..) ?hc); case hc => rfl)
    | ((with_reducible show Eff _ _ (changeVat ..)); (with_reducible refine Eff.step ?_ (changeVat_eff ..) ?hc); case hc => rfl)
    | ((with_reducible show Eff _ _ (chargeVat ..)); (with_reducible refine Eff.step ?_ (chargeVat_eff ..) ?hc); case hc => rfl)
    | (with_reducible refine Eff.mapGetD ?_ (fun k => ?_))
    | (with_reducible refine Eff.foldl ?_ (fun s x => ?_))
    | dsimp only
    | dsimp only [Option.getD_some, Option.getD_none]
    | split
    | simp only [List.length_map, length_mapIf, length_setAt])

theorem tasteAlways_eff (s : State) (g k : Nat) : Eff [.gloves] s (tasteAlways s g k) := by
  unfold tasteAlways
  repeat' (first
    | (with_reducible assumption)
    | (with_reducible exact Eff.refl _ _)
    | ((with_reducible show Eff _ _ (setTaste ..)); (with_reducible refine Eff.step ?_ (setTaste_eff ..) ?hc); case hc => rfl)
    | (with_reducible refine Eff.mapGetD ?_ (fun k => ?_))
    | (with_reducible refine Eff.foldl ?_ (fun s x => ?_))
    | dsimp only
    | dsimp only [Option.getD_some, Option.getD_none]
    | split
    | simp only [List.length_map, length_mapIf, length_setAt])

theorem pressMismatch_eff (s : State) (work : TastedWork) (wrong : List Nat) : Eff [.gloves, .casks] s (pressMismatch s work wrong) := by
  unfold pressMismatch
  repeat' (first
    | (with_reducible assumption)
    | (with_reducible exact Eff.refl _ _)
    | ((with_reducible show Eff _ _ (tasteAlways ..)); (with_reducible refine Eff.step ?_ (tasteAlways_eff ..) ?hc); case hc => rfl)
    | ((with_reducible show Eff _ _ (redoStripes ..)); (with_reducible refine Eff.step ?_ (redoStripes_eff ..) ?hc); case hc => rfl)
    | (with_reducible refine Eff.mapGetD ?_ (fun k => ?_))
    | (with_reducible refine Eff.foldl ?_ (fun s x => ?_))
    | dsimp only
    | dsimp only [Option.getD_some, Option.getD_none]
    | split
    | simp only [List.length_map, length_mapIf, length_setAt])

theorem completePiece_eff (s : State) (work : TastedWork) : Eff [.casks, .vintages] s (completePiece s work) := by
  unfold completePiece
  repeat' (first
    | (with_reducible exact Eff.refl _ _)
    | ((with_reducible show Eff _ _ (setVintage ..)); (with_reducible refine Eff.step ?_ (setVintage_eff ..) ?hc); case hc => rfl)
    | ((with_reducible show Eff _ _ (setCask ..)); (with_reducible refine Eff.step ?_ (setCask_eff _ _ _ _ (fun c h => caskWf_addNoise h _ _ _)) ?hc); case hc => rfl)
    | dsimp only
    | split)

theorem unresolvedOutcome_eff (s : State) (again : Bool) (primary : Nat) (w : TastedWork) : Eff [.vectors, .side, .inject, .wire, .int, .gloves, .sessions, .queues, .outstanding, .conns, .casks, .vintages] s (unresolvedOutcome s again primary w) := by
  cases w with
  | press g vid x =>
    unfold unresolvedOutcome
    dsimp only
    split
    · exact (setVintage_eff ..).weaken rfl
    · refine Eff.step (a := [.gloves]) ?_ (tasteAlways_eff ..) rfl
      exact (setCask_eff s g x (fun c => { c with redo := dedup (c.redo ++ stripeOn s g x primary) })
        (fun _ hx => caskWf_of hx rfl rfl rfl)).weaken rfl
  | lattice g k cask =>
    unfold unresolvedOutcome
    ((with_reducible refine Eff.step ?_ (int_eff _ _ rfl) ?hc); case hc => rfl)
    exact Eff.refl _ _
  | release g k vid =>
    unfold unresolvedOutcome
    dsimp only
    split
    · split
      · ((with_reducible refine Eff.step ?_ (reply_eff ..) ?hc); case hc => rfl)
        ((with_reducible refine Eff.step ?_ (setVintage_eff ..) ?hc); case hc => rfl)
        exact Eff.foldl (Eff.refl _ _) (fun s c => (withholdCask_eff ..).weaken rfl)
      · exact Eff.refl _ _
    · exact Eff.refl _ _
  | move g cask =>
    unfold unresolvedOutcome
    dsimp only
    split
    · split
      · exact (startRollback_eff ..).weaken rfl
      · exact (withholdCask_eff ..).weaken rfl
    · exact Eff.refl _ _

theorem unresolvedTile_eff (s : State) (work : TastedWork) (primary tile : Nat) (vats : List Nat) : Eff [.vectors, .side, .inject, .wire, .int, .gloves, .sessions, .queues, .outstanding, .conns, .casks, .vintages, .free] s (unresolvedTile s work primary tile vats) := by
  unfold unresolvedTile
  dsimp only [drawFree, drawBytes]
  repeat' (first
    | (with_reducible assumption)
    | (with_reducible exact Eff.refl _ _)
    | ((with_reducible refine Eff.step ?_ (Eff.snd_of (by assumption) (drawFree_eff ..)) ?hc); case hc => rfl)
    | ((with_reducible refine Eff.step ?_ (drawFree_eff ..) ?hc); case hc => rfl)
    | ((with_reducible show Eff _ _ (addRecord ..)); (with_reducible refine Eff.step ?_ (addRecord_eff ..) ?hc); case hc => rfl)
    | ((with_reducible show Eff _ _ (settleWaiting ..)); (with_reducible refine Eff.step ?_ (settleWaiting_eff ..) ?hc); case hc => rfl)
    | ((with_reducible show Eff _ _ (unresolvedOutcome ..)); (with_reducible refine Eff.step ?_ (unresolvedOutcome_eff ..) ?hc); case hc => rfl)
    | (with_reducible refine Eff.mapGetD ?_ (fun k => ?_))
    | (with_reducible refine Eff.foldl ?_ (fun s x => ?_))
    | dsimp only
    | dsimp only [Option.getD_some, Option.getD_none]
    | split
    | (with_reducible apply Eff.of_rec (s := _))
    | (with_reducible exact .inl rfl)
    | (with_reducible rfl)
    | exact .inr rfl
    | (with_reducible exact .inl ⟨rfl, rfl, rfl, rfl⟩)
    | (with_reducible exact .inl (map_map_keep (fun _ => by first | rfl | ((try dsimp only); split <;> rfl))))
    | simp only [List.length_map, length_mapIf, length_setAt]
    | exact .inr ⟨rfl, by first | exact id | simp only [length_setAt, length_mapIf]⟩
    | exact .inr ⟨rfl, fun h => all_filter h⟩
    | exact .inr ⟨rfl, fun h => wf_set h _ _⟩
    | exact .inr ⟨rfl, fun h => wf_writeN h _ _⟩)

theorem agreedTile_eff (s : State) (work : TastedWork) (tile : Nat) (vats : List Nat) (results : List (List Nat)) (runs : Nat) (value : List Nat) : Eff [.vectors, .int, .gloves, .sessions, .queues, .casks, .vintages] s (agreedTile s work tile vats results runs value) := by
  unfold agreedTile
  dsimp only
  refine Eff.foldl ?_ (fun s x => (runShadow_eff ..).weaken rfl)
  ((with_reducible refine Eff.step ?_ (completePiece_eff ..) ?hc); case hc => rfl)
  ((with_reducible refine Eff.step ?_ (pressMismatch_eff ..) ?hc); case hc => rfl)
  ((with_reducible refine Eff.step ?_ (chargeRuns_eff ..) ?hc); case hc => rfl)
  exact Eff.refl _ _

theorem execTasteArbitration_eff (work : TastedWork) (primary : Nat) (runs : TileRuns) (s : State) {t : State} (h : execTasteArbitration work primary runs s = .next t) : Eff [.vectors, .side, .inject, .wire, .int, .gloves, .sessions, .queues, .outstanding, .conns, .casks, .vintages, .free] s t := by
  unfold execTasteArbitration at h
  dsimp only at h
  split at h
  · have h := Host.Outcome.next.inj h
    subst h
    generalize tasteRuns primary _ _ = vats
    generalize arbitrate vats runs.results = a
    have h1 : Eff [.vectors, .side, .inject, .wire, .int, .gloves, .sessions, .queues, .outstanding, .conns, .casks, .vintages, .free] s
        (a.suspects.foldl (fun s v => suspectVat s (workGlove work) v)
          (fillBuffers (countTaste s (workGlove work) primary (workClass work) runs.tile) (vats.take a.runs) runs.results)) :=
      Eff.foldl (((countTaste_eff ..).weaken rfl).step (fillBuffers_eff ..) rfl) (fun s c => (suspectVat_eff ..).weaken rfl)
    refine unlessStalled_eff (Eff.refl _ _) ?_
    split
    · exact h1.step (unresolvedTile_eff ..) rfl
    · exact h1.step (agreedTile_eff ..) rfl
  · have h := Host.Outcome.next.inj h; subst h; exact Eff.refl _ _

theorem loadStore_eff (s : State) : Eff [.int, .free] s (loadStore s).2 := by
  unfold loadStore
  dsimp only [drawFree, drawBytes]
  repeat' (first
    | (with_reducible assumption)
    | (with_reducible exact Eff.refl _ _)
    | ((with_reducible refine Eff.step ?_ (Eff.snd_of (by assumption) (drawFree_eff ..)) ?hc); case hc => rfl)
    | ((with_reducible refine Eff.step ?_ (drawFree_eff ..) ?hc); case hc => rfl)
    | (with_reducible refine Eff.mapGetD ?_ (fun k => ?_))
    | (with_reducible refine Eff.foldl ?_ (fun s x => ?_))
    | dsimp only
    | dsimp only [Option.getD_some, Option.getD_none]
    | split
    | (with_reducible apply Eff.of_rec (s := _))
    | (with_reducible exact .inl rfl)
    | (with_reducible rfl)
    | exact .inr rfl
    | (with_reducible exact .inl ⟨rfl, rfl, rfl, rfl⟩)
    | (with_reducible exact .inl (map_map_keep (fun _ => by first | rfl | ((try dsimp only); split <;> rfl))))
    | simp only [List.length_map, length_mapIf, length_setAt]
    | exact .inr ⟨rfl, by first | exact id | simp only [length_setAt, length_mapIf]⟩
    | exact .inr ⟨rfl, fun h => all_filter h⟩
    | exact .inr ⟨rfl, fun h => wf_set h _ _⟩
    | exact .inr ⟨rfl, fun h => wf_writeN h _ _⟩)

theorem cmdIntVatCtrl_eff {p : Packet} {s t : State} {x : Done} (h : (cmdIntVatCtrl).body p s = .ok (t, x)) : Eff [.vectors, .int, .sessions, .queues, .casks, .free] s t := by
  unfold cmdIntVatCtrl at h
  dsimp only at h
  have h1 := loadStore_eff s
  generalize loadStore s = d at h h1
  obtain ⟨ok, s1⟩ := d
  dsimp only at h h1
  split at h
  · split at h
    · have h := ok_fst h
      subst h
      exact (h1.weaken rfl).step (changeVat_eff ..) rfl
    · have h := ok_fst h
      subst h
      ((with_reducible refine Eff.step ?_ (changeVat_eff ..) ?hc); case hc => rfl)
      ((with_reducible refine Eff.step ?_ (setVat_eff ..) ?hc); case hc => rfl)
      exact h1.weaken rfl
    · have h := ok_fst h
      subst h
      ((with_reducible refine Eff.step ?_ (settleWaiting_eff ..) ?hc); case hc => rfl)
      ((with_reducible refine Eff.step ?_ (startScan_eff ..) ?hc); case hc => rfl)
      ((with_reducible refine Eff.step ?_ (changeVat_eff ..) ?hc); case hc => rfl)
      exact h1.weaken rfl
  · have h := ok_fst h
    subst h
    exact h1.weaken rfl

theorem execIntVatCtrl_eff (p : Packet) (s : State) {t : State} (h : execIntVatCtrl p s = .next t) : Eff (.int :: .casks :: .free :: answering) s t := by
  exact runCmd_eff (fun _ _ _ _ h => (cmdIntVatCtrl_eff (h := h) ..).weaken rfl) rfl (by first | exact .inl (fun _ _ => rfl) | exact .inr rfl) h

theorem cmdIntBist_eff {p : Packet} {s t : State} {x : Done} (h : (cmdIntBist).body p s = .ok (t, x)) : Eff [.vectors, .int, .sessions, .queues, .free] s t := by
  unfold cmdIntBist at h
  try dsimp only [bind, Except.bind, Except.map, pure, Except.pure, Option.map] at h
  repeat' (first
    | (split at h)
    | (replace h := ok_fst h; subst h)
    | (replace h := Except.ok.inj h; subst h)
    | (replace h := Host.Outcome.next.inj h; subst h)
    | (replace h := Option.some.inj h; subst h)
    | cases h
    | (dsimp only at h))
  all_goals repeat' (first
    | (with_reducible assumption)
    | (with_reducible exact Eff.refl _ _)
    | ((with_reducible refine Eff.step ?_ (Eff.snd_of (by assumption) (loadStore_eff ..)) ?hc); case hc => rfl)
    | ((with_reducible refine Eff.step ?_ (loadStore_eff ..) ?hc); case hc => rfl)
    | ((with_reducible refine Eff.step ?_ (Eff.snd_of (by assumption) (drawFree_eff ..)) ?hc); case hc => rfl)
    | ((with_reducible refine Eff.step ?_ (drawFree_eff ..) ?hc); case hc => rfl)
    | ((with_reducible show Eff _ _ (addRecord ..)); (with_reducible refine Eff.step ?_ (addRecord_eff ..) ?hc); case hc => rfl)
    | (with_reducible refine Eff.mapGetD ?_ (fun k => ?_))
    | (with_reducible refine Eff.foldl ?_ (fun s x => ?_))
    | dsimp only
    | dsimp only [Option.getD_some, Option.getD_none]
    | split
    | (with_reducible apply Eff.of_rec (s := _))
    | (with_reducible exact .inl rfl)
    | (with_reducible rfl)
    | exact .inr rfl
    | (with_reducible exact .inl ⟨rfl, rfl, rfl, rfl⟩)
    | (with_reducible exact .inl (map_map_keep (fun _ => by first | rfl | ((try dsimp only); split <;> rfl))))
    | simp only [List.length_map, length_mapIf, length_setAt]
    | exact .inr ⟨rfl, by first | exact id | simp only [length_setAt, length_mapIf]⟩
    | exact .inr ⟨rfl, fun h => all_filter h⟩
    | exact .inr ⟨rfl, fun h => wf_set h _ _⟩
    | exact .inr ⟨rfl, fun h => wf_writeN h _ _⟩)

theorem execIntBist_eff (p : Packet) (s : State) {t : State} (h : execIntBist p s = .next t) : Eff (.int :: .free :: answering) s t := by
  exact runCmd_eff (fun _ _ _ _ h => (cmdIntBist_eff (h := h) ..).weaken rfl) rfl (by first | exact .inl (fun _ _ => rfl) | exact .inr rfl) h

theorem cmdIntHistoryRead_eff {p : Packet} {s t : State} {x : Done} (h : (cmdIntHistoryRead).body p s = .ok (t, x)) : Eff [.hostMem, .vectors, .side, .sessions, .outstanding, .casks] s t := by
  unfold cmdIntHistoryRead at h
  try dsimp only [bind, Except.bind, Except.map, pure, Except.pure, Option.map] at h
  repeat' (first
    | (split at h)
    | (replace h := ok_fst h; subst h)
    | (replace h := Except.ok.inj h; subst h)
    | (replace h := Host.Outcome.next.inj h; subst h)
    | (replace h := Option.some.inj h; subst h)
    | cases h
    | (dsimp only at h))
  all_goals repeat' (first
    | (with_reducible assumption)
    | (with_reducible exact Eff.refl _ _)
    | ((with_reducible refine Eff.step ?_ (writeWindow_eff (h := by assumption) ..) ?hc); case hc => rfl)
    | (with_reducible refine Eff.mapGetD ?_ (fun k => ?_))
    | (with_reducible refine Eff.foldl ?_ (fun s x => ?_))
    | dsimp only
    | dsimp only [Option.getD_some, Option.getD_none]
    | split
    | simp only [List.length_map, length_mapIf, length_setAt])

theorem execIntHistoryRead_eff (p : Packet) (s : State) {t : State} (h : execIntHistoryRead p s = .next t) : Eff (.hostMem :: .casks :: answering) s t := by
  exact runCmd_eff (fun _ _ _ _ h => (cmdIntHistoryRead_eff (h := h) ..).weaken rfl) rfl (by first | exact .inl (fun _ _ => rfl) | exact .inr rfl) h

theorem cmdIntQuery_eff {p : Packet} {s t : State} {x : Done} (h : (cmdIntQuery).body p s = .ok (t, x)) : Eff [.gloves, .free] s t := by
  unfold cmdIntQuery at h
  try dsimp only [bind, Except.bind, Except.map, pure, Except.pure, Option.map] at h
  repeat' (first
    | (split at h)
    | (replace h := ok_fst h; subst h)
    | (replace h := Except.ok.inj h; subst h)
    | (replace h := Host.Outcome.next.inj h; subst h)
    | (replace h := Option.some.inj h; subst h)
    | cases h
    | (dsimp only at h))
  all_goals repeat' (first
    | (with_reducible assumption)
    | (with_reducible exact Eff.refl _ _)
    | ((with_reducible refine Eff.step ?_ (Eff.snd_of (by assumption) (drawFree_eff ..)) ?hc); case hc => rfl)
    | ((with_reducible refine Eff.step ?_ (drawFree_eff ..) ?hc); case hc => rfl)
    | (with_reducible refine Eff.mapGetD ?_ (fun k => ?_))
    | (with_reducible refine Eff.foldl ?_ (fun s x => ?_))
    | dsimp only
    | dsimp only [Option.getD_some, Option.getD_none]
    | split
    | (with_reducible apply Eff.of_rec (s := _))
    | (with_reducible exact .inl rfl)
    | (with_reducible rfl)
    | exact .inr rfl
    | (with_reducible exact .inl ⟨rfl, rfl, rfl, rfl⟩)
    | (with_reducible exact .inl (map_map_keep (fun _ => by first | rfl | ((try dsimp only); split <;> rfl))))
    | simp only [List.length_map, length_mapIf, length_setAt]
    | exact .inr ⟨rfl, by first | exact id | simp only [length_setAt, length_mapIf]⟩
    | exact .inr ⟨rfl, fun h => all_filter h⟩
    | exact .inr ⟨rfl, fun h => wf_set h _ _⟩
    | exact .inr ⟨rfl, fun h => wf_writeN h _ _⟩)

theorem execIntQuery_eff (p : Packet) (s : State) {t : State} (h : execIntQuery p s = .next t) : Eff (.gloves :: .free :: answering) s t := by
  exact runCmd_eff (fun _ _ _ _ h => (cmdIntQuery_eff (h := h) ..).weaken rfl) rfl (by first | exact .inl (fun _ _ => rfl) | exact .inr rfl) h

/-! ### Machine/Boot.lean -/

theorem slotAtBoot_image (x : FwSlot) : (slotAtBoot x).image = x.image := by
  unfold slotAtBoot
  repeat' split
  all_goals rfl

theorem loseLogic_eff (s : State) : Eff booting s (loseLogic s) := by
  refine ⟨rfl, fun h => ShapeOk.mk rfl h.vats rfl rfl h.host h.rings rfl rfl rfl rfl h.images, Nat.le_refl _, Nat.le_refl _, fun k hk => ?_⟩
  cases k <;> first | rfl | exact absurd (by decide) hk

theorem tryBoot_eff (s : State) (l : List (Nat × Bool)) : Eff [.fw] s (tryBoot s l) := by
  induction l generalizing s with
  | nil => exact setFw_eff _ _ ⟨Nat.le_refl _, Nat.le_refl _, fun w => w⟩
  | cons x l ih =>
    obtain ⟨i, trial⟩ := x
    unfold tryBoot
    split
    · exact setFw_eff _ _ ⟨Nat.le_refl _, Nat.le_refl _, fun w => w⟩
    · ((with_reducible refine Eff.step ?_ (ih _) ?hc); case hc => rfl)
      exact setFw_eff _ _ (FwKeeps.slot _ _ (fun _ h => h))

theorem beginBoot_eff (s : State) : Eff [.cal, .rootStore, .fw] s (beginBoot s) := by
  unfold beginBoot
  ((with_reducible refine Eff.step ?_ (tryBoot_eff ..) ?hc); case hc => rfl)
  apply Eff.of_rec (s := s) (Eff.refl _ _)
  all_goals first | (with_reducible exact .inl rfl) | (with_reducible rfl) | (with_reducible exact .inl ⟨rfl, rfl, rfl, rfl⟩) | exact .inr rfl | exact .inr ⟨rfl, Nat.le_refl _, Nat.le_refl _, fun w => by
    simp only [fwWf, Bool.and_eq_true, slotAtBoot_image] at w ⊢; exact w⟩

theorem fullReset_eff (s : State) : Eff booting s (fullReset s) := by
  unfold fullReset
  repeat' (first
    | (with_reducible exact Eff.refl _ _)
    | ((with_reducible show Eff _ _ (loseLogic ..)); (with_reducible refine Eff.step ?_ (loseLogic_eff ..) ?hc); case hc => rfl)
    | ((with_reducible show Eff _ _ (beginBoot ..)); (with_reducible refine Eff.step ?_ (beginBoot_eff ..) ?hc); case hc => rfl)
    | split)

theorem execGblCtrlReset_eff (value : Word32) (s : State) {t : State} (h : execGblCtrlReset value s = .next t) : Eff booting s t := by
  unfold execGblCtrlReset at h
  repeat' (first
    | (split at h)
    | (replace h := Host.Outcome.next.inj h; subst h))
  all_goals repeat' (first
    | (with_reducible exact Eff.refl _ _)
    | ((with_reducible show Eff _ _ (fullReset ..)); (with_reducible refine Eff.step ?_ (fullReset_eff ..) ?hc); case hc => rfl))

theorem execMctpResetMessage_eff (serial : Nat) (s : State) {t : State} (h : execMctpResetMessage serial s = .next t) : Eff booting s t := by
  unfold execMctpResetMessage at h
  repeat' (first
    | (split at h)
    | (replace h := Host.Outcome.next.inj h; subst h))
  all_goals repeat' (first
    | (with_reducible exact Eff.refl _ _)
    | ((with_reducible show Eff _ _ (fullReset ..)); (with_reducible refine Eff.step ?_ (fullReset_eff ..) ?hc); case hc => rfl))

theorem execConventionalReset_eff (kind : LinkReset) (s : State) {t : State} (h : execConventionalReset kind s = .next t) : Eff booting s t := by
  unfold execConventionalReset at h
  repeat' (first
    | (split at h)
    | (replace h := Host.Outcome.next.inj h; subst h))
  all_goals repeat' (first
    | (with_reducible exact Eff.refl _ _)
    | ((with_reducible show Eff _ _ (fullReset ..)); (with_reducible refine Eff.step ?_ (fullReset_eff ..) ?hc); case hc => rfl)
    | dsimp only
    | (with_reducible apply Eff.of_rec (s := _))
    | (with_reducible exact .inl rfl)
    | exact .inr rfl)

theorem releasePerst_eff (s : State) : Eff [.cal, .pwr, .rootStore, .fw] s (releasePerst s) := by
  unfold releasePerst
  repeat' (first
    | (with_reducible assumption)
    | (with_reducible exact Eff.refl _ _)
    | ((with_reducible show Eff _ _ (beginBoot ..)); (with_reducible refine Eff.step ?_ (beginBoot_eff ..) ?hc); case hc => rfl)
    | (with_reducible refine Eff.mapGetD ?_ (fun k => ?_))
    | (with_reducible refine Eff.foldl ?_ (fun s x => ?_))
    | dsimp only
    | dsimp only [Option.getD_some, Option.getD_none]
    | split
    | (with_reducible apply Eff.of_rec (s := _))
    | (with_reducible exact .inl rfl)
    | (with_reducible rfl)
    | exact .inr rfl
    | (with_reducible exact .inl ⟨rfl, rfl, rfl, rfl⟩)
    | (with_reducible exact .inl (map_map_keep (fun _ => by first | rfl | ((try dsimp only); split <;> rfl))))
    | simp only [List.length_map, length_mapIf, length_setAt]
    | exact .inr ⟨rfl, by first | exact id | simp only [length_setAt, length_mapIf]⟩
    | exact .inr ⟨rfl, fun h => all_filter h⟩
    | exact .inr ⟨rfl, fun h => wf_set h _ _⟩
    | exact .inr ⟨rfl, fun h => wf_writeN h _ _⟩)

theorem execPerstDeassert_eff (s : State) {t : State} (h : execPerstDeassert s = .next t) : Eff [.cal, .pwr, .rootStore, .fw] s t := by
  unfold execPerstDeassert at h
  try dsimp only [bind, Except.bind, Except.map, pure, Except.pure, Option.map] at h
  repeat' (first
    | (split at h)
    | (replace h := ok_fst h; subst h)
    | (replace h := Except.ok.inj h; subst h)
    | (replace h := Host.Outcome.next.inj h; subst h)
    | (replace h := Option.some.inj h; subst h)
    | cases h
    | (dsimp only at h))
  all_goals repeat' (first
    | (with_reducible assumption)
    | (with_reducible exact Eff.refl _ _)
    | ((with_reducible show Eff _ _ (releasePerst ..)); (with_reducible refine Eff.step ?_ (releasePerst_eff ..) ?hc); case hc => rfl)
    | (with_reducible refine Eff.mapGetD ?_ (fun k => ?_))
    | (with_reducible refine Eff.foldl ?_ (fun s x => ?_))
    | dsimp only
    | dsimp only [Option.getD_some, Option.getD_none]
    | split
    | (with_reducible apply Eff.of_rec (s := _))
    | (with_reducible exact .inl rfl)
    | (with_reducible rfl)
    | exact .inr rfl
    | (with_reducible exact .inl ⟨rfl, rfl, rfl, rfl⟩)
    | (with_reducible exact .inl (map_map_keep (fun _ => by first | rfl | ((try dsimp only); split <;> rfl))))
    | simp only [List.length_map, length_mapIf, length_setAt]
    | exact .inr ⟨rfl, by first | exact id | simp only [length_setAt, length_mapIf]⟩
    | exact .inr ⟨rfl, fun h => all_filter h⟩
    | exact .inr ⟨rfl, fun h => wf_set h _ _⟩
    | exact .inr ⟨rfl, fun h => wf_writeN h _ _⟩)

theorem cmdModuleReset_eff {p : Packet} {s t : State} {x : Done} (h : (cmdModuleReset).body p s = .ok (t, x)) : Eff booting s t := by
  unfold cmdModuleReset at h
  repeat' (first
    | (replace h := ok_fst h; subst h))
  all_goals repeat' (first
    | (with_reducible exact Eff.refl _ _)
    | ((with_reducible show Eff _ _ (fullReset ..)); (with_reducible refine Eff.step ?_ (fullReset_eff ..) ?hc); case hc => rfl))

theorem execModuleReset_eff (p : Packet) (s : State) {t : State} (h : execModuleReset p s = .next t) : Eff booting s t := by
  exact runCmd_eff (fun _ _ _ _ h => (cmdModuleReset_eff (h := h) ..).weaken rfl) rfl (by first | exact .inl (fun _ _ => rfl) | exact .inr rfl) h

theorem startupBist_eff (s : State) (v : Nat) : Eff [.vectors, .int, .sessions, .queues, .free] s (startupBist s v) := by
  unfold startupBist
  dsimp only [drawFree, drawBytes]
  repeat' (first
    | (with_reducible exact Eff.refl _ _)
    | ((with_reducible refine Eff.step ?_ (drawFree_eff ..) ?hc); case hc => rfl)
    | ((with_reducible show Eff _ _ (changeVat ..)); (with_reducible refine Eff.step ?_ (changeVat_eff ..) ?hc); case hc => rfl)
    | ((with_reducible show Eff _ _ (addRecord ..)); (with_reducible refine Eff.step ?_ (addRecord_eff ..) ?hc); case hc => rfl)
    | split)

/-! ### Machine/Attest.lean -/

theorem lifeRank_next {a b : LifeCycle} (h : (nextLife a).contains b = true) : lifeRank a ≤ lifeRank b := by
  revert h
  cases a <;> cases b <;> decide

theorem cmdAttestReport_eff {p : Packet} {s t : State} {x : Done} (h : (cmdAttestReport).body p s = .ok (t, x)) : Eff [.hostMem, .vectors, .sessions, .outstanding, .casks] s t := by
  unfold cmdAttestReport at h
  try dsimp only [bind, Except.bind, Except.map, pure, Except.pure, Option.map] at h
  repeat' (first
    | (split at h)
    | cases h)
  all_goals repeat' (first
    | (with_reducible exact Eff.refl _ _)
    | ((with_reducible refine Eff.step ?_ (writeWindow_eff (h := by assumption) ..) ?hc); case hc => rfl))

theorem execAttestReport_eff (p : Packet) (s : State) {t : State} (h : execAttestReport p s = .next t) : Eff (.hostMem :: .casks :: answering) s t := by
  exact runCmd_eff (fun _ _ _ _ h => (cmdAttestReport_eff (h := h) ..).weaken rfl) rfl (by first | exact .inl (fun _ _ => rfl) | exact .inr rfl) h

theorem cmdCertRead_eff {p : Packet} {s t : State} {x : Done} (h : (cmdCertRead).body p s = .ok (t, x)) : Eff [.hostMem, .vectors, .sessions, .outstanding, .casks] s t := by
  unfold cmdCertRead at h
  try dsimp only [bind, Except.bind, Except.map, pure, Except.pure, Option.map] at h
  repeat' (first
    | (split at h)
    | cases h)
  all_goals repeat' (first
    | (with_reducible exact Eff.refl _ _)
    | ((with_reducible refine Eff.step ?_ (writeWindow_eff (h := by assumption) ..) ?hc); case hc => rfl))

theorem execCertRead_eff (p : Packet) (s : State) {t : State} (h : execCertRead p s = .next t) : Eff (.hostMem :: .casks :: answering) s t := by
  exact runCmd_eff (fun _ _ _ _ h => (cmdCertRead_eff (h := h) ..).weaken rfl) rfl (by first | exact .inl (fun _ _ => rfl) | exact .inr rfl) h

theorem cmdEndorseLoad_eff {p : Packet} {s t : State} {x : Done} (h : (cmdEndorseLoad).body p s = .ok (t, x)) : Eff [.fw, .sessions, .free] s t := by
  unfold cmdEndorseLoad at h
  obtain ⟨⟨bytes, s1⟩, hr, h⟩ := of_bind_ok h
  dsimp only at h
  have h0 := readWindow_eff (h := hr) ..
  split at h
  · cases h
  have h1 := storeWorks_eff s1
  generalize storeWorks s1 = d at h h1
  obtain ⟨works, s2⟩ := d
  dsimp only at h h1
  split at h
  · have h := ok_fst h
    subst h
    ((with_reducible refine Eff.step ?_ (setFw_eff _ _ (FwKeeps.life rfl (Nat.le_refl _) rfl rfl)) ?hc); case hc => rfl)
    exact (h0.weaken rfl).step h1 rfl
  · have h := ok_fst h
    subst h
    exact (h0.weaken rfl).step h1 rfl

theorem execEndorseLoad_eff (p : Packet) (s : State) {t : State} (h : execEndorseLoad p s = .next t) : Eff (.fw :: .free :: answering) s t := by
  exact runCmd_eff (fun _ _ _ _ h => (cmdEndorseLoad_eff (h := h) ..).weaken rfl) rfl (by first | exact .inl (fun _ _ => rfl) | exact .inr rfl) h

theorem transition_eff (s : State) (target : LifeCycle) (hl : lifeRank s.fw.lc ≤ lifeRank target) :
    Eff [.rootStore, .fw, .free] s (transition s target) := by
  unfold transition
  have h1 : Eff [.free] s (drawBytes s 32).2 := drawBytes_eff s 32
  have hf : (drawBytes s 32).2.fw = s.fw := rfl
  generalize drawBytes s 32 = d at h1 hf ⊢
  obtain ⟨root, s1⟩ := d
  dsimp only at h1 hf ⊢
  have h2 : Eff [.free] s (if target = .deployed then drawBytes s1 32 else ([], s1)).2 := by
    split
    · exact h1.step (drawBytes_eff s1 32) rfl
    · exact h1
  have hf2 : (if target = .deployed then drawBytes s1 32 else ([], s1)).2.fw = s.fw := by
    rw [← hf]; split <;> rfl
  generalize (if target = LifeCycle.deployed then drawBytes s1 32 else ([], s1)) = e at h2 hf2 ⊢
  obtain ⟨tenant, s2⟩ := e
  dsimp only at h2 hf2 ⊢
  apply Eff.of_rec (s := s2) (h2.weaken rfl)
  all_goals first | (with_reducible exact .inl rfl) | (with_reducible rfl) | (with_reducible exact .inl ⟨rfl, rfl, rfl, rfl⟩) | exact .inr rfl | exact .inr ⟨rfl, FwKeeps.life rfl (by rw [hf2]; exact hl) rfl rfl⟩

theorem lifeUp_of_state {p : Packet} {s : State} (hst : cmdLcTransition.state p s = .ok ()) :
    lifeRank s.fw.lc ≤ lifeRank (lifeOf (p.u8 0)) := by
  unfold cmdLcTransition at hst
  dsimp only at hst
  obtain ⟨_, hn, _⟩ := of_bind_ok hst
  unfold need at hn
  split at hn
  · split at hn
    · next hc =>
      have hc := eq_of_beq hc
      rw [hc]
      cases s.fw.lc <;> decide
    · cases hn
  · split at hn
    · next hc => exact lifeRank_next hc
    · cases hn

theorem lifeUp_of_checks {p : Packet} {s : State} (h : checks cmdLcTransition p s = .ok ()) :
    lifeRank s.fw.lc ≤ lifeRank (lifeOf (p.u8 0)) := by
  unfold checks at h
  obtain ⟨_, _, h⟩ := of_bind_ok h
  obtain ⟨_, _, h⟩ := of_bind_ok h
  obtain ⟨_, _, h⟩ := of_bind_ok h
  have hst : cmdLcTransition.state p s = .ok () := by
    generalize cmdLcTransition.state p s = z at h
    dsimp only [bind, Except.bind, fail] at h
    repeat' split at h
    all_goals first | exact h | cases h
  exact lifeUp_of_state hst

theorem cmdLcTransition_eff {p : Packet} {s t : State} {x : Done} (hl : lifeRank s.fw.lc ≤ lifeRank (lifeOf (p.u8 0)))
    (h : (cmdLcTransition).body p s = .ok (t, x)) : Eff (.free :: booting) s t := by
  unfold cmdLcTransition at h
  dsimp only at h
  have h1 := storeWorks_eff s
  have hf : (storeWorks s).2.fw = s.fw := rfl
  generalize storeWorks s = d at h h1 hf
  obtain ⟨works, s1⟩ := d
  dsimp only at h h1 hf
  split at h
  · have h := ok_fst h
    subst h
    ((with_reducible refine Eff.step ?_ (fullReset_eff ..) ?hc); case hc => rfl)
    ((with_reducible refine Eff.step ?_ (transition_eff _ _ (by rw [hf]; exact hl)) ?hc); case hc => rfl)
    exact h1.weaken rfl
  · have h := ok_fst h
    subst h
    exact h1.weaken rfl

theorem execLcTransition_eff (p : Packet) (s : State) {t : State} (h : execLcTransition p s = .next t) : Eff (.free :: booting) s t := by
  cases h
  exact dispatch_eff1 (fun hc t d h => (cmdLcTransition_eff (lifeUp_of_checks hc) h).weaken rfl)
    (fun hc n t d h => (cmdLcTransition_eff (by
      have hl := lifeUp_of_checks hc
      have hf : (takeBlocks s p.ctx n).fw = s.fw := by unfold takeBlocks; split <;> rfl
      rw [hf]; exact hl) h).weaken rfl) rfl (.inr rfl)

theorem cmdDebugSet_eff {p : Packet} {s t : State} {x : Done} (h : (cmdDebugSet).body p s = .ok (t, x)) : Eff [.fw, .sessions, .free] s t := by
  unfold cmdDebugSet at h
  try dsimp only [bind, Except.bind, Except.map, pure, Except.pure, Option.map] at h
  repeat' (first
    | (split at h)
    | cases h)
  all_goals repeat' (first
    | (with_reducible exact Eff.refl _ _)
    | ((with_reducible refine Eff.step ?_ (readWindow_eff (h := by assumption) ..) ?hc); case hc => rfl)
    | ((with_reducible refine Eff.step ?_ (storeWorks_eff ..) ?hc); case hc => rfl)
    | ((with_reducible show Eff _ _ (setFw ..)); (with_reducible refine Eff.step ?_ (setFw_eff _ _ (by first | exact FwKeeps.slot _ _ (fun _ h => h) | exact FwKeeps.slot _ _ (fun _ h => wf_writeN h _ _) | exact FwKeeps.slot _ _ (fun _ h => rfl) | exact FwKeeps.confirm _ | exact FwKeeps.life rfl (Nat.le_refl _) rfl rfl | exact ⟨Nat.le_refl _, Nat.le_refl _, fun w => w⟩)) ?hc); case hc => rfl))

theorem execDebugSet_eff (p : Packet) (s : State) {t : State} (h : execDebugSet p s = .next t) : Eff (.fw :: .free :: answering) s t := by
  exact runCmd_eff (fun _ _ _ _ h => (cmdDebugSet_eff (h := h) ..).weaken rfl) rfl (by first | exact .inl (fun _ _ => rfl) | exact .inr rfl) h

/-! ### Machine/Entropy.lean -/

theorem entropyEvent_eff (s : State) (code : Nat) (failed : Bool) (source cause promoted discarded : Nat) : Eff [.vectors, .sessions, .queues] s (entropyEvent s code failed source cause promoted discarded) := by
  unfold entropyEvent
  repeat' (first
    | (with_reducible exact Eff.refl _ _)
    | ((with_reducible show Eff _ _ (postEvent ..)); (with_reducible refine Eff.step ?_ (postEvent_eff ..) ?hc); case hc => rfl))

theorem failDraws_eff (s : State) : Eff [.vectors, .side, .inject, .wire, .gloves, .sessions, .queues, .outstanding, .conns, .casks, .vintages] s (failDraws s) := by
  unfold failDraws
  repeat' (first
    | (with_reducible exact Eff.refl _ _)
    | ((with_reducible show Eff _ _ (endWaiting ..)); (with_reducible refine Eff.step ?_ (endWaiting_eff ..) ?hc); case hc => rfl)
    | (with_reducible refine Eff.foldl ?_ (fun s x => ?_)))



theorem ent_eff (s : State) (e : Entropy) (h : e.sources.length = s.ent.sources.length) : Eff [.ent] s { s with ent := e } := by
  apply Eff.of_rec (s := s) (Eff.refl _ _)
  all_goals first | (with_reducible exact .inl rfl) | (with_reducible rfl) | (with_reducible exact .inl ⟨rfl, rfl, rfl, rfl⟩) | exact .inr rfl | exact .inr ⟨rfl, h⟩

theorem setEntState_eff (s : State) (st : EntState) (promoted : Nat) : Eff [.vectors, .side, .inject, .wire, .ent, .gloves, .sessions, .queues, .outstanding, .conns, .casks, .vintages] s (setEntState s st promoted) := by
  unfold setEntState
  repeat' (first
    | (with_reducible exact Eff.refl _ _)
    | ((with_reducible show Eff _ _ (entropyEvent ..)); (with_reducible refine Eff.step ?_ (entropyEvent_eff ..) ?hc); case hc => rfl)
    | ((with_reducible show Eff _ _ (failDraws ..)); (with_reducible refine Eff.step ?_ (failDraws_eff ..) ?hc); case hc => rfl)
    | dsimp only
    | split
    | (with_reducible apply Eff.of_rec (s := _))
    | (with_reducible exact .inl rfl)
    | (with_reducible exact .inl ⟨rfl, rfl, rfl, rfl⟩)
    | exact .inr ⟨rfl, by first | exact id | simp only [length_setAt, length_mapIf]⟩)

theorem setSource_eff (s : State) (i : Nat) (f : Source → Source) : Eff [.ent] s (setSource s i f) := by
  unfold setSource
  repeat' (first
    | (with_reducible exact Eff.refl _ _)
    | dsimp only
    | (with_reducible apply Eff.of_rec (s := _))
    | (with_reducible exact .inl rfl)
    | (with_reducible exact .inl ⟨rfl, rfl, rfl, rfl⟩)
    | exact .inr ⟨rfl, by first | exact id | simp only [length_setAt, length_mapIf]⟩)

theorem failSource_eff (s : State) (i test : Nat) (startup : Bool) : Eff [.vectors, .ent, .int, .sessions, .queues] s (failSource s i test startup) := by
  unfold failSource
  repeat' (first
    | (with_reducible exact Eff.refl _ _)
    | ((with_reducible show Eff _ _ (setSource ..)); (with_reducible refine Eff.step ?_ (setSource_eff ..) ?hc); case hc => rfl)
    | ((with_reducible show Eff _ _ (addRecord ..)); (with_reducible refine Eff.step ?_ (addRecord_eff ..) ?hc); case hc => rfl))

theorem measureSources_eff (s : State) : Eff [.ent, .free] s (measureSources s) := by
  unfold measureSources
  dsimp only [drawFree]
  apply Eff.of_rec (s := s) (Eff.refl _ _)
  all_goals first
    | (with_reducible exact .inl rfl)
    | (with_reducible rfl)
    | (with_reducible exact .inl ⟨rfl, rfl, rfl, rfl⟩)
    | exact .inr rfl
    | exact .inr ⟨rfl, by simp⟩

theorem promoteSources_eff (s : State) : Eff [.vectors, .side, .inject, .wire, .ent, .gloves, .sessions, .queues, .outstanding, .conns, .casks, .vintages] s (promoteSources s) := by
  unfold promoteSources
  split
  · exact Eff.refl _ _
  dsimp only
  ((with_reducible refine Eff.step ?_ (setEntState_eff ..) ?hc); case hc => rfl)
  generalize hs : (s.ent.promote.foldl _ s) = s1
  have h1 : Eff [.vectors, .side, .inject, .wire, .ent, .gloves, .sessions, .queues, .outstanding, .conns, .casks, .vintages] s s1 := by
    subst hs
    refine Eff.foldl (Eff.refl _ _) (fun s i => ?_)
    split
    · exact (setSource_eff ..).weaken rfl
    · exact Eff.refl _ _
  exact h1.step (ent_eff s1 { s1.ent with promote := [] } rfl) rfl

theorem giveBlock_eff (s : State) (ctx : Nat) : Eff [.ent, .keySlots, .gloves, .outstanding, .free] s (giveBlock s ctx) := by
  unfold giveBlock
  repeat' (first
    | (with_reducible assumption)
    | (with_reducible exact Eff.refl _ _)
    | ((with_reducible show Eff _ _ (remaskNext ..)); (with_reducible refine Eff.step ?_ (remaskNext_eff ..) ?hc); case hc => rfl)
    | ((with_reducible show Eff _ _ (setGlove ..)); (with_reducible refine Eff.step ?_ (setGlove_eff_s _ _ _ (fun _ => by first | (with_reducible rfl) | ((try dsimp only); split <;> (with_reducible rfl)))) ?hc); case hc => rfl)
    | ((with_reducible show Eff _ _ (setGlove ..)); (with_reducible refine Eff.step ?_ (setGlove_eff_g _ _ _ (fun _ => by first | (with_reducible rfl) | ((try dsimp only); split <;> (with_reducible rfl)))) ?hc); case hc => rfl)
    | ((with_reducible show Eff _ _ (setGlove ..)); (with_reducible refine Eff.step ?_ (setGlove_eff _ _ _) ?hc); case hc => rfl)
    | (with_reducible refine Eff.mapGetD ?_ (fun k => ?_))
    | (with_reducible refine Eff.foldl ?_ (fun s x => ?_))
    | dsimp only
    | dsimp only [Option.getD_some, Option.getD_none]
    | split
    | (with_reducible apply Eff.of_rec (s := _))
    | (with_reducible exact .inl rfl)
    | (with_reducible rfl)
    | exact .inr rfl
    | (with_reducible exact .inl ⟨rfl, rfl, rfl, rfl⟩)
    | (with_reducible exact .inl (map_map_keep (fun _ => by first | rfl | ((try dsimp only); split <;> rfl))))
    | simp only [List.length_map, length_mapIf, length_setAt]
    | exact .inr ⟨rfl, by first | exact id | simp only [length_setAt, length_mapIf]⟩
    | exact .inr ⟨rfl, fun h => all_filter h⟩
    | exact .inr ⟨rfl, fun h => wf_set h _ _⟩
    | exact .inr ⟨rfl, fun h => wf_writeN h _ _⟩)

theorem mainBlock_eff (s : State) : Eff [.ent, .keySlots, .gloves, .outstanding, .free] s (mainBlock s) := by
  unfold mainBlock
  repeat' (first
    | (with_reducible assumption)
    | (with_reducible exact Eff.refl _ _)
    | ((with_reducible show Eff _ _ (giveBlock ..)); (with_reducible refine Eff.step ?_ (giveBlock_eff ..) ?hc); case hc => rfl)
    | (with_reducible refine Eff.mapGetD ?_ (fun k => ?_))
    | (with_reducible refine Eff.foldl ?_ (fun s x => ?_))
    | dsimp only
    | dsimp only [Option.getD_some, Option.getD_none]
    | split
    | (with_reducible apply Eff.of_rec (s := _))
    | (with_reducible exact .inl rfl)
    | (with_reducible rfl)
    | exact .inr rfl
    | (with_reducible exact .inl ⟨rfl, rfl, rfl, rfl⟩)
    | (with_reducible exact .inl (map_map_keep (fun _ => by first | rfl | ((try dsimp only); split <;> rfl))))
    | simp only [List.length_map, length_mapIf, length_setAt]
    | exact .inr ⟨rfl, by first | exact id | simp only [length_setAt, length_mapIf]⟩
    | exact .inr ⟨rfl, fun h => all_filter h⟩
    | exact .inr ⟨rfl, fun h => wf_set h _ _⟩
    | exact .inr ⟨rfl, fun h => wf_writeN h _ _⟩)

theorem mainBoundary_eff (s : State) : Eff [.vectors, .side, .inject, .wire, .ent, .keySlots, .gloves, .sessions, .queues, .outstanding, .conns, .casks, .vintages, .free] s (mainBoundary s) := by
  unfold mainBoundary
  repeat' (first
    | (with_reducible assumption)
    | (with_reducible exact Eff.refl _ _)
    | ((with_reducible show Eff _ _ (mainBlock ..)); (with_reducible refine Eff.step ?_ (mainBlock_eff ..) ?hc); case hc => rfl)
    | ((with_reducible show Eff _ _ (measureSources ..)); (with_reducible refine Eff.step ?_ (measureSources_eff ..) ?hc); case hc => rfl)
    | ((with_reducible show Eff _ _ (promoteSources ..)); (with_reducible refine Eff.step ?_ (promoteSources_eff ..) ?hc); case hc => rfl)
    | (with_reducible refine Eff.mapGetD ?_ (fun k => ?_))
    | (with_reducible refine Eff.foldl ?_ (fun s x => ?_))
    | dsimp only
    | dsimp only [Option.getD_some, Option.getD_none]
    | split
    | (with_reducible apply Eff.of_rec (s := _))
    | (with_reducible exact .inl rfl)
    | (with_reducible rfl)
    | exact .inr rfl
    | (with_reducible exact .inl ⟨rfl, rfl, rfl, rfl⟩)
    | (with_reducible exact .inl (map_map_keep (fun _ => by first | rfl | ((try dsimp only); split <;> rfl))))
    | simp only [List.length_map, length_mapIf, length_setAt]
    | exact .inr ⟨rfl, by first | exact id | simp only [length_setAt, length_mapIf]⟩
    | exact .inr ⟨rfl, fun h => all_filter h⟩
    | exact .inr ⟨rfl, fun h => wf_set h _ _⟩
    | exact .inr ⟨rfl, fun h => wf_writeN h _ _⟩)

theorem spareBoundary_eff (s : State) : Eff [.ent, .keySlots, .gloves, .outstanding, .free] s (spareBoundary s) := by
  unfold spareBoundary
  repeat' (first
    | (with_reducible assumption)
    | (with_reducible exact Eff.refl _ _)
    | ((with_reducible show Eff _ _ (giveBlock ..)); (with_reducible refine Eff.step ?_ (giveBlock_eff ..) ?hc); case hc => rfl)
    | (with_reducible refine Eff.mapGetD ?_ (fun k => ?_))
    | (with_reducible refine Eff.foldl ?_ (fun s x => ?_))
    | dsimp only
    | dsimp only [Option.getD_some, Option.getD_none]
    | split
    | (with_reducible apply Eff.of_rec (s := _))
    | (with_reducible exact .inl rfl)
    | (with_reducible rfl)
    | exact .inr rfl
    | (with_reducible exact .inl ⟨rfl, rfl, rfl, rfl⟩)
    | (with_reducible exact .inl (map_map_keep (fun _ => by first | rfl | ((try dsimp only); split <;> rfl))))
    | simp only [List.length_map, length_mapIf, length_setAt]
    | exact .inr ⟨rfl, by first | exact id | simp only [length_setAt, length_mapIf]⟩
    | exact .inr ⟨rfl, fun h => all_filter h⟩
    | exact .inr ⟨rfl, fun h => wf_set h _ _⟩
    | exact .inr ⟨rfl, fun h => wf_writeN h _ _⟩)

theorem execEntropyBlockRelease_eff (reserve : Bool) (s : State) {t : State} (h : execEntropyBlockRelease reserve s = .next t) : Eff [.vectors, .side, .inject, .wire, .ent, .keySlots, .gloves, .sessions, .queues, .outstanding, .conns, .casks, .vintages, .free] s t := by
  unfold execEntropyBlockRelease at h
  try dsimp only [bind, Except.bind, Except.map, pure, Except.pure, Option.map] at h
  repeat' (first
    | (split at h)
    | (replace h := ok_fst h; subst h)
    | (replace h := Except.ok.inj h; subst h)
    | (replace h := Host.Outcome.next.inj h; subst h)
    | (replace h := Option.some.inj h; subst h)
    | cases h
    | (dsimp only at h))
  all_goals repeat' (first
    | (with_reducible assumption)
    | (with_reducible exact Eff.refl _ _)
    | ((with_reducible show Eff _ _ (spareBoundary ..)); (with_reducible refine Eff.step ?_ (spareBoundary_eff ..) ?hc); case hc => rfl)
    | ((with_reducible show Eff _ _ (mainBoundary ..)); (with_reducible refine Eff.step ?_ (mainBoundary_eff ..) ?hc); case hc => rfl)
    | (with_reducible refine Eff.mapGetD ?_ (fun k => ?_))
    | (with_reducible refine Eff.foldl ?_ (fun s x => ?_))
    | dsimp only
    | dsimp only [Option.getD_some, Option.getD_none]
    | split
    | simp only [List.length_map, length_mapIf, length_setAt])

theorem quarantine_eff (test : Nat) (s : State) (l : List Nat) :
    Eff [.vectors, .ent, .int, .sessions, .queues] s (quarantine test s l).1 := by
  induction l generalizing s with
  | nil => exact Eff.refl _ _
  | cons i rest ih =>
    have h1 : Eff [.vectors, .ent, .int, .sessions, .queues] s (failSource s i test false) := (failSource_eff ..).weaken rfl
    rw [quarantine]
    dsimp only
    split
    · exact (h1.step (setSource_eff ..) rfl).step (ih _) rfl
    · exact h1.step (ih _) rfl

theorem execHealthTestFail_eff (test : HealthTest) (source other window spareWindow : Nat) (s : State) {t : State} (h : execHealthTestFail test source other window spareWindow s = .next t) : Eff [.vectors, .side, .inject, .wire, .ent, .int, .gloves, .sessions, .queues, .outstanding, .conns, .casks, .vintages] s t := by
  unfold execHealthTestFail at h
  dsimp only at h
  generalize (List.filter _ (dedup _) : List Nat) = hit at h
  split at h
  · have h := Host.Outcome.next.inj h; subst h; exact Eff.refl _ _
  · have h := Host.Outcome.next.inj h
    subst h
    refine Eff.foldl ?_ (fun s x => (entropyEvent_eff ..).weaken rfl)
    ((with_reducible refine Eff.step ?_ (setEntState_eff ..) ?hc); case hc => rfl)
    ((with_reducible refine Eff.step ?_ (quarantine_eff ..) ?hc); case hc => rfl)
    ((with_reducible refine Eff.step ?_ (ent_eff _ _ rfl) ?hc); case hc => rfl)
    exact Eff.refl _ _

theorem failTrial_eff (s : State) (i : Nat) : Eff [.vectors, .ent, .int, .sessions, .queues, .free] s (failTrial s i) := by
  unfold failTrial
  dsimp only [drawFree, drawBytes]
  repeat' (first
    | (with_reducible assumption)
    | (with_reducible exact Eff.refl _ _)
    | ((with_reducible refine Eff.step ?_ (Eff.snd_of (by assumption) (drawFree_eff ..)) ?hc); case hc => rfl)
    | ((with_reducible refine Eff.step ?_ (drawFree_eff ..) ?hc); case hc => rfl)
    | ((with_reducible show Eff _ _ (failSource ..)); (with_reducible refine Eff.step ?_ (failSource_eff ..) ?hc); case hc => rfl)
    | ((with_reducible show Eff _ _ (setSource ..)); (with_reducible refine Eff.step ?_ (setSource_eff ..) ?hc); case hc => rfl)
    | (with_reducible refine Eff.mapGetD ?_ (fun k => ?_))
    | (with_reducible refine Eff.foldl ?_ (fun s x => ?_))
    | dsimp only
    | dsimp only [Option.getD_some, Option.getD_none]
    | split
    | (with_reducible apply Eff.of_rec (s := _))
    | (with_reducible exact .inl rfl)
    | (with_reducible rfl)
    | exact .inr rfl
    | (with_reducible exact .inl ⟨rfl, rfl, rfl, rfl⟩)
    | (with_reducible exact .inl (map_map_keep (fun _ => by first | rfl | ((try dsimp only); split <;> rfl))))
    | simp only [List.length_map, length_mapIf, length_setAt]
    | exact .inr ⟨rfl, by first | exact id | simp only [length_setAt, length_mapIf]⟩
    | exact .inr ⟨rfl, fun h => all_filter h⟩
    | exact .inr ⟨rfl, fun h => wf_set h _ _⟩
    | exact .inr ⟨rfl, fun h => wf_writeN h _ _⟩)

theorem seatSources_eff (s : State) : Eff [.ent] s (seatSources s) := by
  unfold seatSources
  repeat' (first
    | (with_reducible assumption)
    | (with_reducible exact Eff.refl _ _)
    | ((with_reducible show Eff _ _ (setSource ..)); (with_reducible refine Eff.step ?_ (setSource_eff ..) ?hc); case hc => rfl)
    | (with_reducible refine Eff.mapGetD ?_ (fun k => ?_))
    | (with_reducible refine Eff.foldl ?_ (fun s x => ?_))
    | dsimp only
    | dsimp only [Option.getD_some, Option.getD_none]
    | split
    | simp only [List.length_map, length_mapIf, length_setAt])

theorem execEntropyStartupDone_eff (passed : List Bool) (s : State) {t : State} (h : execEntropyStartupDone passed s = .next t) : Eff [.vectors, .side, .inject, .wire, .ent, .int, .gloves, .sessions, .queues, .outstanding, .conns, .casks, .vintages, .free] s t := by
  unfold execEntropyStartupDone at h
  try dsimp only [bind, Except.bind, Except.map, pure, Except.pure, Option.map] at h
  repeat' (first
    | (split at h)
    | (replace h := ok_fst h; subst h)
    | (replace h := Except.ok.inj h; subst h)
    | (replace h := Host.Outcome.next.inj h; subst h)
    | (replace h := Option.some.inj h; subst h)
    | cases h
    | (dsimp only at h))
  all_goals repeat' (first
    | (with_reducible assumption)
    | (with_reducible exact Eff.refl _ _)
    | ((with_reducible show Eff _ _ (failTrial ..)); (with_reducible refine Eff.step ?_ (failTrial_eff ..) ?hc); case hc => rfl)
    | ((with_reducible show Eff _ _ (setSource ..)); (with_reducible refine Eff.step ?_ (setSource_eff ..) ?hc); case hc => rfl)
    | ((with_reducible show Eff _ _ (seatSources ..)); (with_reducible refine Eff.step ?_ (seatSources_eff ..) ?hc); case hc => rfl)
    | ((with_reducible show Eff _ _ (measureSources ..)); (with_reducible refine Eff.step ?_ (measureSources_eff ..) ?hc); case hc => rfl)
    | ((with_reducible refine Eff.step ?_ (setEntState_eff ..) ?hc); case hc => rfl)
    | ((with_reducible show Eff _ _ (entropyEvent ..)); (with_reducible refine Eff.step ?_ (entropyEvent_eff ..) ?hc); case hc => rfl)
    | (with_reducible refine Eff.mapGetD ?_ (fun k => ?_))
    | (with_reducible refine Eff.foldl ?_ (fun s x => ?_))
    | dsimp only
    | dsimp only [Option.getD_some, Option.getD_none]
    | split
    | simp only [List.length_map, length_mapIf, length_setAt])

theorem cmdEntRead_eff {p : Packet} {s t : State} {x : Done} (h : (cmdEntRead).body p s = .ok (t, x)) : Eff [.hostMem, .vectors, .sessions, .outstanding, .casks, .free] s t := by
  unfold cmdEntRead at h
  try dsimp only [bind, Except.bind, Except.map, pure, Except.pure, Option.map] at h
  repeat' (first
    | (split at h)
    | cases h
    | (dsimp only at h))
  all_goals repeat' (first
    | (with_reducible exact Eff.refl _ _)
    | ((with_reducible refine Eff.step ?_ (Eff.snd_of (by assumption) (drawBytes_eff ..)) ?hc); case hc => rfl)
    | ((with_reducible refine Eff.step ?_ (drawBytes_eff ..) ?hc); case hc => rfl)
    | ((with_reducible refine Eff.step ?_ (writeWindow_eff (h := by assumption) ..) ?hc); case hc => rfl)
    | (with_reducible refine Eff.foldl ?_ (fun s x => ?_))
    | split
    | (with_reducible apply Eff.of_rec (s := _))
    | (with_reducible exact .inl rfl)
    | (with_reducible rfl)
    | exact .inr rfl
    | (with_reducible exact .inl ⟨rfl, rfl, rfl, rfl⟩)
    | (with_reducible exact .inl (map_map_keep (fun _ => by first | rfl | ((try dsimp only); split <;> rfl))))
    | simp only [List.length_map, length_mapIf, length_setAt]
    | exact .inr ⟨rfl, by first | exact id | simp only [length_setAt, length_mapIf]⟩
    | exact .inr ⟨rfl, fun h => all_filter h⟩
    | exact .inr ⟨rfl, fun h => wf_set h _ _⟩
    | exact .inr ⟨rfl, fun h => wf_writeN h _ _⟩)

theorem execEntRead_eff (p : Packet) (s : State) {t : State} (h : execEntRead p s = .next t) : Eff (.hostMem :: .ent :: .gloves :: .casks :: .free :: answering) s t := by
  exact runCmd_eff (fun _ _ _ _ h => (cmdEntRead_eff (h := h) ..).weaken rfl) rfl (by first | exact .inl (fun _ _ => rfl) | exact .inr rfl) h

theorem cmdEntStatus_eff {p : Packet} {s t : State} {x : Done} (h : (cmdEntStatus).body p s = .ok (t, x)) : Eff [] s t := by
  unfold cmdEntStatus at h
  repeat' (first
    | (split at h)
    | (replace h := Host.Outcome.next.inj h; subst h)
    | (replace h := Option.some.inj h; subst h)
    | cases h
    | (dsimp only at h))
  all_goals repeat' (first
    | (with_reducible assumption)
    | (with_reducible exact Eff.refl _ _)
    | (with_reducible refine Eff.mapGetD ?_ (fun k => ?_))
    | (with_reducible refine Eff.foldl ?_ (fun s x => ?_))
    | dsimp only
    | dsimp only [Option.getD_some, Option.getD_none]
    | split
    | simp only [List.length_map, length_mapIf, length_setAt])

theorem execEntStatus_eff (p : Packet) (s : State) {t : State} (h : execEntStatus p s = .next t) : Eff answering s t := by
  exact runCmd_eff (fun _ _ _ _ h => (cmdEntStatus_eff (h := h) ..).weaken rfl) rfl (by first | exact .inl (fun _ _ => rfl) | exact .inr rfl) h

theorem retestSource_eff (s : State) (i : Nat) (back : Bool) : Eff [.vectors, .ent, .int, .sessions, .queues, .free] s (retestSource s i back).1 := by
  unfold retestSource
  dsimp only [drawFree, drawBytes]
  repeat' (first
    | (with_reducible assumption)
    | (with_reducible exact Eff.refl _ _)
    | ((with_reducible refine Eff.step ?_ (drawFree_eff ..) ?hc); case hc => rfl)
    | ((with_reducible show Eff _ _ (setSource ..)); (with_reducible refine Eff.step ?_ (setSource_eff ..) ?hc); case hc => rfl)
    | ((with_reducible show Eff _ _ (failSource ..)); (with_reducible refine Eff.step ?_ (failSource_eff ..) ?hc); case hc => rfl)
    | ((with_reducible show Eff _ _ (entropyEvent ..)); (with_reducible refine Eff.step ?_ (entropyEvent_eff ..) ?hc); case hc => rfl)
    | (with_reducible refine Eff.foldl ?_ (fun s x => ?_))
    | split
    | (with_reducible apply Eff.of_rec (s := _))
    | (with_reducible exact .inl rfl)
    | (with_reducible rfl)
    | exact .inr rfl
    | (with_reducible exact .inl ⟨rfl, rfl, rfl, rfl⟩)
    | (with_reducible exact .inl (map_map_keep (fun _ => by first | rfl | ((try dsimp only); split <;> rfl))))
    | simp only [List.length_map, length_mapIf, length_setAt]
    | exact .inr ⟨rfl, by first | exact id | simp only [length_setAt, length_mapIf]⟩
    | exact .inr ⟨rfl, fun h => all_filter h⟩
    | exact .inr ⟨rfl, fun h => wf_set h _ _⟩
    | exact .inr ⟨rfl, fun h => wf_writeN h _ _⟩)

theorem cmdEntSourceCtrl_eff {p : Packet} {s t : State} {x : Done} (h : (cmdEntSourceCtrl).body p s = .ok (t, x)) : Eff [.vectors, .ent, .int, .sessions, .queues, .free] s t := by
  unfold cmdEntSourceCtrl at h
  try dsimp only [bind, Except.bind, Except.map, pure, Except.pure, Option.map] at h
  repeat' (first
    | (split at h)
    | cases h
    | (dsimp only at h))
  all_goals repeat' (first
    | (with_reducible exact Eff.refl _ _)
    | ((with_reducible show Eff _ _ (setSource ..)); (with_reducible refine Eff.step ?_ (setSource_eff ..) ?hc); case hc => rfl)
    | ((with_reducible refine Eff.step ?_ (Eff.fst_of (by assumption) (retestSource_eff ..)) ?hc); case hc => rfl)
    | ((with_reducible refine Eff.step ?_ (retestSource_eff ..) ?hc); case hc => rfl)
    | (with_reducible refine Eff.foldl ?_ (fun s x => ?_))
    | split
    | (with_reducible apply Eff.of_rec (s := _))
    | (with_reducible exact .inl rfl)
    | (with_reducible rfl)
    | exact .inr rfl
    | (with_reducible exact .inl ⟨rfl, rfl, rfl, rfl⟩)
    | (with_reducible exact .inl (map_map_keep (fun _ => by first | rfl | ((try dsimp only); split <;> rfl))))
    | simp only [List.length_map, length_mapIf, length_setAt]
    | exact .inr ⟨rfl, by first | exact id | simp only [length_setAt, length_mapIf]⟩
    | exact .inr ⟨rfl, fun h => all_filter h⟩
    | exact .inr ⟨rfl, fun h => wf_set h _ _⟩
    | exact .inr ⟨rfl, fun h => wf_writeN h _ _⟩)

theorem execEntSourceCtrl_eff (p : Packet) (s : State) {t : State} (h : execEntSourceCtrl p s = .next t) : Eff (.ent :: .int :: .free :: answering) s t := by
  exact runCmd_eff (fun _ _ _ _ h => (cmdEntSourceCtrl_eff (h := h) ..).weaken rfl) rfl (by first | exact .inl (fun _ _ => rfl) | exact .inr rfl) h

theorem rawFailure_eff (s : State) (i draw : Nat) : Eff [.vectors, .ent, .int, .sessions, .queues] s (rawFailure s i draw) := by
  unfold rawFailure
  repeat' (first
    | (with_reducible assumption)
    | (with_reducible exact Eff.refl _ _)
    | ((with_reducible show Eff _ _ (failSource ..)); (with_reducible refine Eff.step ?_ (failSource_eff ..) ?hc); case hc => rfl)
    | ((with_reducible show Eff _ _ (entropyEvent ..)); (with_reducible refine Eff.step ?_ (entropyEvent_eff ..) ?hc); case hc => rfl)
    | (with_reducible refine Eff.mapGetD ?_ (fun k => ?_))
    | (with_reducible refine Eff.foldl ?_ (fun s x => ?_))
    | dsimp only
    | dsimp only [Option.getD_some, Option.getD_none]
    | split
    | simp only [List.length_map, length_mapIf, length_setAt])

theorem cmdEntRawRead_eff {p : Packet} {s t : State} {x : Done} (h : (cmdEntRawRead).body p s = .ok (t, x)) : Eff [.hostMem, .vectors, .ent, .int, .sessions, .queues, .outstanding, .casks, .free] s t := by
  unfold cmdEntRawRead at h
  try dsimp only [bind, Except.bind, Except.map, pure, Except.pure, Option.map] at h
  repeat' (first
    | (split at h)
    | (replace h := ok_fst h; subst h)
    | (replace h := Except.ok.inj h; subst h)
    | (replace h := Host.Outcome.next.inj h; subst h)
    | (replace h := Option.some.inj h; subst h)
    | cases h
    | (dsimp only at h))
  all_goals repeat' (first
    | (with_reducible assumption)
    | (with_reducible exact Eff.refl _ _)
    | ((with_reducible refine Eff.step ?_ (Eff.snd_of (by assumption) (drawFree_eff ..)) ?hc); case hc => rfl)
    | ((with_reducible refine Eff.step ?_ (drawFree_eff ..) ?hc); case hc => rfl)
    | ((with_reducible refine Eff.step ?_ (writeWindow_eff (h := by assumption) ..) ?hc); case hc => rfl)
    | ((with_reducible show Eff _ _ (rawFailure ..)); (with_reducible refine Eff.step ?_ (rawFailure_eff ..) ?hc); case hc => rfl)
    | (with_reducible refine Eff.mapGetD ?_ (fun k => ?_))
    | (with_reducible refine Eff.foldl ?_ (fun s x => ?_))
    | dsimp only
    | dsimp only [Option.getD_some, Option.getD_none]
    | split
    | (with_reducible apply Eff.of_rec (s := _))
    | (with_reducible exact .inl rfl)
    | (with_reducible rfl)
    | exact .inr rfl
    | (with_reducible exact .inl ⟨rfl, rfl, rfl, rfl⟩)
    | (with_reducible exact .inl (map_map_keep (fun _ => by first | rfl | ((try dsimp only); split <;> rfl))))
    | simp only [List.length_map, length_mapIf, length_setAt]
    | exact .inr ⟨rfl, by first | exact id | simp only [length_setAt, length_mapIf]⟩
    | exact .inr ⟨rfl, fun h => all_filter h⟩
    | exact .inr ⟨rfl, fun h => wf_set h _ _⟩
    | exact .inr ⟨rfl, fun h => wf_writeN h _ _⟩)

theorem execEntRawRead_eff (p : Packet) (s : State) {t : State} (h : execEntRawRead p s = .next t) : Eff (.hostMem :: .ent :: .int :: .casks :: .free :: answering) s t := by
  exact runCmd_eff (fun _ _ _ _ h => (cmdEntRawRead_eff (h := h) ..).weaken rfl) rfl (by first | exact .inl (fun _ _ => rfl) | exact .inr rfl) h

end Sys2Proof.Machine
end

