-- ==== Sys2Proof/Laws/EffectsWire.lean ====
section
/-! SUPPORT. The effect of each operation of fetching, arriving packets and their placement:
the parts of the state it may change (`Eff`, Laws/Effects.lean). -/

set_option autoImplicit false
set_option linter.unusedTactic false
set_option linter.unreachableTactic false
set_option linter.unusedSimpArgs false
set_option Elab.async false

namespace Sys2Proof.Machine

/-! ### Machine/Fetch.lean -/

theorem serialize_eff (s : State) (p : Packet) (tick : Bool) : Eff (.clock :: .gloves :: .casks :: .vintages :: answering) s (serialize s p tick) := by
  unfold serialize
  repeat' (first
    | (with_reducible assumption)
    | (with_reducible exact Eff.refl _ _)
    | ((with_reducible refine Eff.step ?_ (Eff.snd_of (by assumption) (serializeTick_eff ..)) ?hc); case hc => rfl)
    | ((with_reducible refine Eff.step ?_ (serializeTick_eff ..) ?hc); case hc => rfl)
    | ((with_reducible show Eff _ _ (fenceAt ..)); (with_reducible refine Eff.step ?_ (fenceAt_eff ..) ?hc); case hc => rfl)
    | (with_reducible refine Eff.mapGetD ?_ (fun k => ?_))
    | (with_reducible refine Eff.foldl ?_ (fun s x => ?_))
    | dsimp only
    | dsimp only [Option.getD_some, Option.getD_none]
    | split
    | (with_reducible apply Eff.of_rec (s := _))
    | (with_reducible exact .inl rfl)
    | (with_reducible rfl)
    | exact .inr rfl
    | (with_reducible exact .inl ⟨rfl, rfl, rfl, rfl⟩)
    | (with_reducible exact .inl (map_map_keep (fun _ => by first | rfl | ((try dsimp only); split <;> rfl))))
    | simp only [List.length_map, length_mapIf, length_setAt]
    | exact .inr ⟨rfl, by first | exact id | simp only [length_setAt, length_mapIf]⟩
    | exact .inr ⟨rfl, fun h => all_filter h⟩
    | exact .inr ⟨rfl, fun h => wf_set h _ _⟩
    | exact .inr ⟨rfl, fun h => wf_writeN h _ _⟩)

theorem takePacket_eff (s : State) (q : Queue) (h : List Byte) (cycle : Nat) : Eff (.clock :: .gloves :: .casks :: .vintages :: answering) s (takePacket s q h cycle) := by
  unfold takePacket
  repeat' (first
    | (with_reducible exact Eff.refl _ _)
    | ((with_reducible show Eff _ _ (consumeSlots ..)); (with_reducible refine Eff.step ?_ (consumeSlots_eff ..) ?hc); case hc => rfl)
    | ((with_reducible show Eff _ _ (answerUndispatched ..)); (with_reducible refine Eff.step ?_ (answerUndispatched_eff ..) ?hc); case hc => rfl)
    | ((with_reducible show Eff _ _ (setQueue ..)); (with_reducible refine Eff.step ?_ (setQueue_eff ..) ?hc); case hc => rfl)
    | ((with_reducible show Eff _ _ (serialize ..)); (with_reducible refine Eff.step ?_ (serialize_eff ..) ?hc); case hc => rfl)
    | split)

theorem failHeader_eff (s : State) (q : Queue) (h : List Byte) (cycle : Nat) : Eff [.vectors, .side, .inject, .wire, .sessions, .queues, .outstanding, .conns] s (failHeader s q h cycle) := by
  unfold failHeader
  repeat' (first
    | (with_reducible exact Eff.refl _ _)
    | ((with_reducible show Eff _ _ (setQueue ..)); (with_reducible refine Eff.step ?_ (setQueue_eff ..) ?hc); case hc => rfl)
    | ((with_reducible show Eff _ _ (answerUndispatched ..)); (with_reducible refine Eff.step ?_ (answerUndispatched_eff ..) ?hc); case hc => rfl))

theorem execCommandFetch_eff (queue cycle : Nat) (s : State) {t : State} (h : execCommandFetch queue cycle s = .next t) : Eff (.clock :: .gloves :: .casks :: .vintages :: answering) s t := by
  unfold execCommandFetch at h
  try dsimp only [bind, Except.bind, Except.map, pure, Except.pure, Option.map] at h
  repeat' (first
    | (split at h)
    | (replace h := ok_fst h; subst h)
    | (replace h := Except.ok.inj h; subst h)
    | (replace h := Host.Outcome.next.inj h; subst h)
    | (replace h := Option.some.inj h; subst h)
    | cases h
    | (dsimp only at h))
  all_goals repeat' (first
    | (with_reducible assumption)
    | (with_reducible exact Eff.refl _ _)
    | ((with_reducible show Eff _ _ (failCommandRing ..)); (with_reducible refine Eff.step ?_ (failCommandRing_eff ..) ?hc); case hc => rfl)
    | ((with_reducible show Eff _ _ (failHeader ..)); (with_reducible refine Eff.step ?_ (failHeader_eff ..) ?hc); case hc => rfl)
    | ((with_reducible show Eff _ _ (takePacket ..)); (with_reducible refine Eff.step ?_ (takePacket_eff ..) ?hc); case hc => rfl)
    | (with_reducible refine Eff.mapGetD ?_ (fun k => ?_))
    | (with_reducible refine Eff.foldl ?_ (fun s x => ?_))
    | dsimp only
    | dsimp only [Option.getD_some, Option.getD_none]
    | split
    | simp only [List.length_map, length_mapIf, length_setAt])

theorem execStagedPromotion_eff (order : Nat) (s : State) {t : State} (h : execStagedPromotion order s = .next t) : Eff [.staged] s t := by
  unfold execStagedPromotion at h
  repeat' (first
    | (split at h)
    | (replace h := Host.Outcome.next.inj h; subst h))
  all_goals repeat' (first
    | (with_reducible exact Eff.refl _ _)
    | dsimp only
    | (with_reducible apply Eff.of_rec (s := _))
    | (with_reducible exact .inl rfl)
    | exact .inr rfl
    | (with_reducible exact .inl ⟨rfl, rfl, rfl, rfl⟩))

/-! ### Machine/Ingress.lean -/

theorem sendAck_eff (s : State) (cid : Nat) (resp : Bool) : Eff [.inject, .wire, .conns] s (sendAck s cid resp) := by
  unfold sendAck
  repeat' (first
    | (with_reducible exact Eff.refl _ _)
    | ((with_reducible show Eff _ _ (setConn ..)); (with_reducible refine Eff.step ?_ (setConn_eff ..) ?hc); case hc => rfl)
    | ((with_reducible show Eff _ _ (sendControl ..)); (with_reducible refine Eff.step ?_ (sendControl_eff ..) ?hc); case hc => rfl)
    | split)

theorem sendStatus_eff (s : State) (cid psn : Nat) (st : Status) (detail : Nat) : Eff [.inject, .wire, .conns] s (sendStatus s cid psn st detail) := by
  unfold sendStatus
  repeat' (first
    | (with_reducible exact Eff.refl _ _)
    | ((with_reducible show Eff _ _ (sendControl ..)); (with_reducible refine Eff.step ?_ (sendControl_eff ..) ?hc); case hc => rfl))

theorem sendNak_eff (s : State) (cid port psn : Nat) (st : Status) (detail : Nat) : Eff [.ports, .inject, .wire, .conns] s (sendNak s cid port psn st detail) := by
  unfold sendNak
  repeat' (first
    | (with_reducible exact Eff.refl _ _)
    | ((with_reducible show Eff _ _ (sendStatus ..)); (with_reducible refine Eff.step ?_ (sendStatus_eff ..) ?hc); case hc => rfl)
    | ((with_reducible show Eff _ _ (setPort ..)); (with_reducible refine Eff.step ?_ (setPort_eff_p _ _ _ (fun _ => by first | (with_reducible rfl) | ((try dsimp only); split <;> (with_reducible rfl)))) ?hc); case hc => rfl))

theorem refusePacket_eff (s : State) (cid : Nat) (resp : Bool) (port psn msg : Nat) (st : Status) (detail : Nat) : Eff [.ports, .inject, .wire, .conns] s (refusePacket s cid resp port psn msg st detail) := by
  unfold refusePacket
  repeat' (first
    | (with_reducible exact Eff.refl _ _)
    | ((with_reducible show Eff _ _ (sendNak ..)); (with_reducible refine Eff.step ?_ (sendNak_eff ..) ?hc); case hc => rfl)
    | ((with_reducible show Eff _ _ (setConn ..)); (with_reducible refine Eff.step ?_ (setConn_eff ..) ?hc); case hc => rfl))

theorem dropPacket_eff (s : State) (cid : Nat) : Eff [.conns] s (dropPacket s cid) := by
  unfold dropPacket
  repeat' (first
    | (with_reducible exact Eff.refl _ _)
    | ((with_reducible show Eff _ _ (setConn ..)); (with_reducible refine Eff.step ?_ (setConn_eff ..) ?hc); case hc => rfl))

theorem windowViolation_eff (s : State) (c : Conn) (w : WraPacket) (win : Window) : Eff [.vectors, .sessions, .queues, .windows] s (windowViolation s c w win) := by
  unfold windowViolation
  repeat' (first
    | (with_reducible assumption)
    | (with_reducible exact Eff.refl _ _)
    | ((with_reducible show Eff _ _ (postTo ..)); (with_reducible refine Eff.step ?_ (postTo_eff ..) ?hc); case hc => rfl)
    | (with_reducible refine Eff.mapGetD ?_ (fun k => ?_))
    | (with_reducible refine Eff.foldl ?_ (fun s x => ?_))
    | dsimp only
    | dsimp only [Option.getD_some, Option.getD_none]
    | split
    | (with_reducible apply Eff.of_rec (s := _))
    | (with_reducible exact .inl rfl)
    | (with_reducible rfl)
    | exact .inr rfl
    | (with_reducible exact .inl ⟨rfl, rfl, rfl, rfl⟩)
    | (with_reducible exact .inl (map_map_keep (fun _ => by first | rfl | ((try dsimp only); split <;> rfl))))
    | simp only [List.length_map, length_mapIf, length_setAt]
    | exact .inr ⟨rfl, by first | exact id | simp only [length_setAt, length_mapIf]⟩
    | exact .inr ⟨rfl, fun h => all_filter h⟩
    | exact .inr ⟨rfl, fun h => wf_set h _ _⟩
    | exact .inr ⟨rfl, fun h => wf_writeN h _ _⟩)

theorem reportViolation_eff (s : State) (c : Conn) (w : WraPacket) (detail : Nat) : Eff [.vectors, .sessions, .queues, .windows] s (reportViolation s c w detail) := by
  unfold reportViolation
  repeat' (first
    | (with_reducible assumption)
    | (with_reducible exact Eff.refl _ _)
    | ((with_reducible show Eff _ _ (postEvent ..)); (with_reducible refine Eff.step ?_ (postEvent_eff ..) ?hc); case hc => rfl)
    | ((with_reducible show Eff _ _ (windowViolation ..)); (with_reducible refine Eff.step ?_ (windowViolation_eff ..) ?hc); case hc => rfl)
    | (with_reducible refine Eff.mapGetD ?_ (fun k => ?_))
    | (with_reducible refine Eff.foldl ?_ (fun s x => ?_))
    | dsimp only
    | dsimp only [Option.getD_some, Option.getD_none]
    | split
    | (with_reducible apply Eff.of_rec (s := _))
    | (with_reducible exact .inl rfl)
    | (with_reducible rfl)
    | exact .inr rfl
    | (with_reducible exact .inl ⟨rfl, rfl, rfl, rfl⟩)
    | (with_reducible exact .inl (map_map_keep (fun _ => by first | rfl | ((try dsimp only); split <;> rfl))))
    | simp only [List.length_map, length_mapIf, length_setAt]
    | exact .inr ⟨rfl, by first | exact id | simp only [length_setAt, length_mapIf]⟩
    | exact .inr ⟨rfl, fun h => all_filter h⟩
    | exact .inr ⟨rfl, fun h => wf_set h _ _⟩
    | exact .inr ⟨rfl, fun h => wf_writeN h _ _⟩)

/-! ### Machine/Placement.lean -/

theorem countPlaced_eff (s : State) (w : Window) (client : Option (Nat × Standing)) : Eff [.windows] s (countPlaced s w client) := by
  unfold countPlaced
  repeat' (first
    | (with_reducible exact Eff.refl _ _)
    | ((with_reducible show Eff _ _ (setWindow ..)); (with_reducible refine Eff.step ?_ (setWindow_eff ..) ?hc); case hc => rfl)
    | ((with_reducible show Eff _ _ (countAccess ..)); (with_reducible refine Eff.step ?_ (countAccess_eff ..) ?hc); case hc => rfl)
    | split)

theorem notePlacer_eff (s : State) (cid g cask : Nat) : Eff [.conns, .casks] s (notePlacer s cid g cask) := by
  unfold notePlacer
  repeat' (first
    | (with_reducible exact Eff.refl _ _)
    | ((with_reducible show Eff _ _ (setConn ..)); (with_reducible refine Eff.step ?_ (setConn_eff ..) ?hc); case hc => rfl)
    | ((with_reducible show Eff _ _ (setCask ..)); (with_reducible refine Eff.step ?_ (setCask_eff _ _ _ _ (fun _ hx => by first | (with_reducible exact caskWf_of hx rfl rfl rfl) | (with_reducible exact caskWf_of (caskWf_placeValues hx _ _ _ _ _) rfl rfl rfl) | ((try dsimp only); split <;> (with_reducible exact caskWf_of hx rfl rfl rfl)) | (simp only [caskWf, Bool.and_eq_true, Option.map_none, Option.getD_none, and_true] at hx ⊢; exact hx.1) | exact (caskWf_iff _).mpr ⟨rfl, ((caskWf_iff _).mp hx).2⟩)) ?hc); case hc => rfl))

theorem caskWf_flag {c : Cask} (h : caskWf c = true) (first n : Nat) : caskWf (flagGranules first n c) = true := by
  obtain ⟨h1, h2, h3⟩ := (caskWf_iff c).mp h
  refine (caskWf_iff _).mpr ⟨h1, h2, fun x hx => ?_⟩
  obtain ⟨y, hy, rfl⟩ := Option.map_eq_some_iff.mp hx
  split
  · exact h3 y hy
  · exact h3 y hy

theorem placeAccumulate_eff (s : State) (cid : Nat) (w : WraPacket) (win : Window) : Eff [.vectors, .sessions, .queues, .windows, .conns, .casks, .vintages] s (placeAccumulate s cid w win).1 := by
  unfold placeAccumulate
  repeat' (first
    | (with_reducible exact Eff.refl _ _)
    | ((with_reducible show Eff _ _ (notePlacer ..)); (with_reducible refine Eff.step ?_ (notePlacer_eff ..) ?hc); case hc => rfl)
    | ((with_reducible show Eff _ _ (countPlaced ..)); (with_reducible refine Eff.step ?_ (countPlaced_eff ..) ?hc); case hc => rfl)
    | ((with_reducible show Eff _ _ (conflictEvent ..)); (with_reducible refine Eff.step ?_ (conflictEvent_eff ..) ?hc); case hc => rfl)
    | ((with_reducible show Eff _ _ (setVintage ..)); (with_reducible refine Eff.step ?_ (setVintage_eff ..) ?hc); case hc => rfl)
    | ((with_reducible show Eff _ _ (setCask ..)); (with_reducible refine Eff.step ?_ (setCask_eff _ _ _ _ (fun _ hx => caskWf_flag (caskWf_of (caskWf_placeValues hx _ _ _ _ _) rfl rfl rfl) _ _)) ?hc); case hc => rfl)
    | ((with_reducible show Eff _ _ (spillTouch ..)); (with_reducible refine Eff.step ?_ (spillTouch_eff ..) ?hc); case hc => rfl)
    | dsimp only
    | split)

theorem placePartial_eff (s : State) (cid : Nat) (w : WraPacket) (win : Window) : Eff [.windows, .conns, .casks] s (placePartial s cid w win) := by
  unfold placePartial
  repeat' (first
    | (with_reducible exact Eff.refl _ _)
    | ((with_reducible show Eff _ _ (notePlacer ..)); (with_reducible refine Eff.step ?_ (notePlacer_eff ..) ?hc); case hc => rfl)
    | ((with_reducible show Eff _ _ (countPlaced ..)); (with_reducible refine Eff.step ?_ (countPlaced_eff ..) ?hc); case hc => rfl)
    | ((with_reducible show Eff _ _ (setCask ..)); (with_reducible refine Eff.step ?_ (setCask_eff _ _ _ _ (fun _ hx => caskWf_flag (caskWf_of (caskWf_placeValues hx _ _ _ _ _) rfl rfl rfl) _ _)) ?hc); case hc => rfl)
    | ((with_reducible show Eff _ _ (spillTouch ..)); (with_reducible refine Eff.step ?_ (spillTouch_eff ..) ?hc); case hc => rfl)
    | dsimp only
    | split)

theorem finishIssued_eff (s : State) (c : Conn) (i : Issued) (status detail : Nat) : Eff [.vectors, .sessions, .queues, .conns] s (finishIssued s c i status detail) := by
  unfold finishIssued
  repeat' (first
    | (with_reducible exact Eff.refl _ _)
    | ((with_reducible show Eff _ _ (setConn ..)); (with_reducible refine Eff.step ?_ (setConn_eff ..) ?hc); case hc => rfl)
    | ((with_reducible show Eff _ _ (completeRequest ..)); (with_reducible refine Eff.step ?_ (completeRequest_eff ..) ?hc); case hc => rfl))

theorem placeResponse_eff (s : State) (c : Conn) (f : Inflight) : Eff [.hostMem, .vectors, .sessions, .queues, .outstanding, .windows, .conns, .casks] s (placeResponse s c f) := by
  unfold placeResponse
  repeat' (first
    | (with_reducible assumption)
    | (with_reducible exact Eff.refl _ _)
    | ((with_reducible show Eff _ _ (finishIssued ..)); (with_reducible refine Eff.step ?_ (finishIssued_eff ..) ?hc); case hc => rfl)
    | ((with_reducible refine Eff.step ?_ (windowStore_eff (h := by assumption) ..) ?hc); case hc => rfl)
    | ((with_reducible refine Eff.step ?_ (dmaReport_eff ..) ?hc); case hc => rfl)
    | ((with_reducible show Eff _ _ (countPlaced ..)); (with_reducible refine Eff.step ?_ (countPlaced_eff ..) ?hc); case hc => rfl)
    | ((with_reducible show Eff _ _ (setConn ..)); (with_reducible refine Eff.step ?_ (setConn_eff ..) ?hc); case hc => rfl)
    | (with_reducible refine Eff.mapGetD ?_ (fun k => ?_))
    | (with_reducible refine Eff.foldl ?_ (fun s x => ?_))
    | dsimp only
    | dsimp only [Option.getD_some, Option.getD_none]
    | split
    | simp only [List.length_map, length_mapIf, length_setAt])

theorem placeShard_eff (s : State) (c : Conn) (w : WraPacket) : Eff [.vectors, .side, .inject, .wire, .sessions, .queues, .outstanding, .conns, .casks, .vintages] s (placeShard s c w) := by
  unfold placeShard
  repeat' (first
    | (with_reducible exact Eff.refl _ _)
    | ((with_reducible show Eff _ _ (setVintage ..)); (with_reducible refine Eff.step ?_ (setVintage_eff ..) ?hc); case hc => rfl)
    | ((with_reducible show Eff _ _ (sendShard ..)); (with_reducible refine Eff.step ?_ (sendShard_eff ..) ?hc); case hc => rfl)
    | ((with_reducible show Eff _ _ (tryExchange ..)); (with_reducible refine Eff.step ?_ (tryExchange_eff ..) ?hc); case hc => rfl)
    | ((with_reducible show Eff _ _ (fixSurvivors ..)); (with_reducible refine Eff.step ?_ (fixSurvivors_eff ..) ?hc); case hc => rfl)
    | dsimp only
    | split)

theorem placeRefused_eff (s : State) (c : Conn) (f : Inflight) (r : ReadFail) : Eff [.vectors, .ports, .inject, .wire, .sessions, .queues, .conns] s (placeRefused s c f r) := by
  unfold placeRefused
  repeat' (first
    | (with_reducible assumption)
    | (with_reducible exact Eff.refl _ _)
    | ((with_reducible show Eff _ _ (refusePacket ..)); (with_reducible refine Eff.step ?_ (refusePacket_eff ..) ?hc); case hc => rfl)
    | ((with_reducible refine Eff.step ?_ (dmaReport_eff ..) ?hc); case hc => rfl)
    | (with_reducible refine Eff.mapGetD ?_ (fun k => ?_))
    | (with_reducible refine Eff.foldl ?_ (fun s x => ?_))
    | dsimp only
    | dsimp only [Option.getD_some, Option.getD_none]
    | split
    | simp only [List.length_map, length_mapIf, length_setAt])

theorem placeBarred_eff (s : State) (c : Conn) (f : Inflight) : Eff [.ports, .inject, .wire, .conns] s (placeBarred s c f) := by
  unfold placeBarred
  repeat' (first
    | (with_reducible assumption)
    | (with_reducible exact Eff.refl _ _)
    | ((with_reducible show Eff _ _ (refusePacket ..)); (with_reducible refine Eff.step ?_ (refusePacket_eff ..) ?hc); case hc => rfl)
    | (with_reducible refine Eff.mapGetD ?_ (fun k => ?_))
    | (with_reducible refine Eff.foldl ?_ (fun s x => ?_))
    | dsimp only
    | dsimp only [Option.getD_some, Option.getD_none]
    | split
    | simp only [List.length_map, length_mapIf, length_setAt])

theorem placeEffect_eff (s : State) (c : Conn) (f : Inflight) : Eff [.hostMem, .vectors, .side, .ports, .inject, .wire, .sessions, .queues, .outstanding, .windows, .conns, .casks, .vintages] s (placeEffect s c f).1 := by
  unfold placeEffect
  repeat' (first
    | (with_reducible assumption)
    | (with_reducible exact Eff.refl _ _)
    | ((with_reducible show Eff _ _ (placeBarred ..)); (with_reducible refine Eff.step ?_ (placeBarred_eff ..) ?hc); case hc => rfl)
    | ((with_reducible refine Eff.step ?_ (windowStore_eff (h := by assumption) ..) ?hc); case hc => rfl)
    | ((with_reducible show Eff _ _ (countPlaced ..)); (with_reducible refine Eff.step ?_ (countPlaced_eff ..) ?hc); case hc => rfl)
    | ((with_reducible show Eff _ _ (placeRefused ..)); (with_reducible refine Eff.step ?_ (placeRefused_eff ..) ?hc); case hc => rfl)
    | ((with_reducible refine Eff.step ?_ (Eff.fst_of (by assumption) (placeAccumulate_eff ..)) ?hc); case hc => rfl)
    | ((with_reducible refine Eff.step ?_ (placeAccumulate_eff ..) ?hc); case hc => rfl)
    | ((with_reducible show Eff _ _ (placePartial ..)); (with_reducible refine Eff.step ?_ (placePartial_eff ..) ?hc); case hc => rfl)
    | ((with_reducible show Eff _ _ (placeResponse ..)); (with_reducible refine Eff.step ?_ (placeResponse_eff ..) ?hc); case hc => rfl)
    | ((with_reducible show Eff _ _ (placeShard ..)); (with_reducible refine Eff.step ?_ (placeShard_eff ..) ?hc); case hc => rfl)
    | (with_reducible refine Eff.mapGetD ?_ (fun k => ?_))
    | (with_reducible refine Eff.foldl ?_ (fun s x => ?_))
    | dsimp only
    | dsimp only [Option.getD_some, Option.getD_none]
    | split
    | simp only [List.length_map, length_mapIf, length_setAt])

theorem deliverSend_eff (s : State) (c : Conn) (f : Inflight) : Eff [.vectors, .sessions, .queues] s (deliverSend s c f) := by
  unfold deliverSend
  repeat' (first
    | (with_reducible assumption)
    | (with_reducible exact Eff.refl _ _)
    | ((with_reducible show Eff _ _ (setQueue ..)); (with_reducible refine Eff.step ?_ (setQueue_eff ..) ?hc); case hc => rfl)
    | ((with_reducible show Eff _ _ (storeEntry ..)); (with_reducible refine Eff.step ?_ (storeEntry_eff ..) ?hc); case hc => rfl)
    | ((with_reducible show Eff _ _ (pushEntry ..)); (with_reducible refine Eff.step ?_ (pushEntry_eff ..) ?hc); case hc => rfl)
    | ((with_reducible show Eff _ _ (postCompletion ..)); (with_reducible refine Eff.step ?_ (postCompletion_eff ..) ?hc); case hc => rfl)
    | (with_reducible refine Eff.mapGetD ?_ (fun k => ?_))
    | (with_reducible refine Eff.foldl ?_ (fun s x => ?_))
    | dsimp only
    | dsimp only [Option.getD_some, Option.getD_none]
    | split
    | simp only [List.length_map, length_mapIf, length_setAt])

theorem answerRead_eff (s : State) (c : Conn) (f : Inflight) (w : Window) : Eff [.vectors, .ports, .inject, .wire, .sessions, .queues, .windows, .conns] s (answerRead s c f w) := by
  unfold answerRead
  repeat' (first
    | (with_reducible assumption)
    | (with_reducible exact Eff.refl _ _)
    | ((with_reducible show Eff _ _ (placeBarred ..)); (with_reducible refine Eff.step ?_ (placeBarred_eff ..) ?hc); case hc => rfl)
    | ((with_reducible refine Eff.step ?_ (windowBytes_eff (h := by assumption) ..) ?hc); case hc => rfl)
    | ((with_reducible show Eff _ _ (placeRefused ..)); (with_reducible refine Eff.step ?_ (placeRefused_eff ..) ?hc); case hc => rfl)
    | ((with_reducible show Eff _ _ (submit ..)); (with_reducible refine Eff.step ?_ (submit_eff ..) ?hc); case hc => rfl)
    | ((with_reducible show Eff _ _ (countPlaced ..)); (with_reducible refine Eff.step ?_ (countPlaced_eff ..) ?hc); case hc => rfl)
    | (with_reducible refine Eff.mapGetD ?_ (fun k => ?_))
    | (with_reducible refine Eff.foldl ?_ (fun s x => ?_))
    | dsimp only
    | dsimp only [Option.getD_some, Option.getD_none]
    | split
    | simp only [List.length_map, length_mapIf, length_setAt])

theorem answerAtomic_eff (s : State) (c : Conn) (f : Inflight) (w : Window) : Eff [.hostMem, .vectors, .ports, .inject, .wire, .sessions, .queues, .outstanding, .windows, .conns, .casks] s (answerAtomic s c f w) := by
  unfold answerAtomic
  repeat' (first
    | (with_reducible assumption)
    | (with_reducible exact Eff.refl _ _)
    | ((with_reducible show Eff _ _ (placeBarred ..)); (with_reducible refine Eff.step ?_ (placeBarred_eff ..) ?hc); case hc => rfl)
    | ((with_reducible refine Eff.step ?_ (windowBytes_eff (h := by assumption) ..) ?hc); case hc => rfl)
    | ((with_reducible show Eff _ _ (placeRefused ..)); (with_reducible refine Eff.step ?_ (placeRefused_eff ..) ?hc); case hc => rfl)
    | ((with_reducible refine Eff.step ?_ (windowStore_eff (h := by assumption) ..) ?hc); case hc => rfl)
    | ((with_reducible show Eff _ _ (submit ..)); (with_reducible refine Eff.step ?_ (submit_eff ..) ?hc); case hc => rfl)
    | ((with_reducible show Eff _ _ (countPlaced ..)); (with_reducible refine Eff.step ?_ (countPlaced_eff ..) ?hc); case hc => rfl)
    | (with_reducible refine Eff.mapGetD ?_ (fun k => ?_))
    | (with_reducible refine Eff.foldl ?_ (fun s x => ?_))
    | dsimp only
    | dsimp only [Option.getD_some, Option.getD_none]
    | split
    | simp only [List.length_map, length_mapIf, length_setAt])

theorem resendPartial_eff (cid minTimer g : Nat) (s : State) (x : SentPartial) : Eff [.vectors, .inject, .wire, .sessions, .queues, .conns] s (resendPartial cid minTimer g s x) := by
  unfold resendPartial
  repeat' (first
    | (with_reducible assumption)
    | (with_reducible exact Eff.refl _ _)
    | ((with_reducible refine Eff.step ?_ (Eff.snd_of (by assumption) (takeMsg_eff ..)) ?hc); case hc => rfl)
    | ((with_reducible refine Eff.step ?_ (takeMsg_eff ..) ?hc); case hc => rfl)
    | ((with_reducible show Eff _ _ (submit ..)); (with_reducible refine Eff.step ?_ (submit_eff ..) ?hc); case hc => rfl)
    | (with_reducible refine Eff.mapGetD ?_ (fun k => ?_))
    | (with_reducible refine Eff.foldl ?_ (fun s x => ?_))
    | dsimp only
    | dsimp only [Option.getD_some, Option.getD_none]
    | split
    | simp only [List.length_map, length_mapIf, length_setAt])

theorem obeyNotice_eff (s : State) (c : Conn) (payload : List Byte) : Eff [.vectors, .inject, .wire, .sessions, .queues, .conns] s (obeyNotice s c payload) := by
  unfold obeyNotice
  repeat' (first
    | (with_reducible assumption)
    | (with_reducible exact Eff.refl _ _)
    | ((with_reducible show Eff _ _ (setConn ..)); (with_reducible refine Eff.step ?_ (setConn_eff ..) ?hc); case hc => rfl)
    | ((with_reducible show Eff _ _ (resendPartial ..)); (with_reducible refine Eff.step ?_ (resendPartial_eff ..) ?hc); case hc => rfl)
    | (with_reducible refine Eff.mapGetD ?_ (fun k => ?_))
    | (with_reducible refine Eff.foldl ?_ (fun s x => ?_))
    | dsimp only
    | dsimp only [Option.getD_some, Option.getD_none]
    | split
    | simp only [List.length_map, length_mapIf, length_setAt])

theorem endMessage_eff (s : State) (c : Conn) (f : Inflight) : Eff [.vectors, .inject, .wire, .gloves, .sessions, .queues, .conns, .vintages] s (endMessage s c f) := by
  unfold endMessage
  repeat' (first
    | (with_reducible assumption)
    | (with_reducible exact Eff.refl _ _)
    | ((with_reducible show Eff _ _ (setConn ..)); (with_reducible refine Eff.step ?_ (setConn_eff ..) ?hc); case hc => rfl)
    | ((with_reducible show Eff _ _ (sendStatus ..)); (with_reducible refine Eff.step ?_ (sendStatus_eff ..) ?hc); case hc => rfl)
    | ((with_reducible show Eff _ _ (setVintage ..)); (with_reducible refine Eff.step ?_ (setVintage_eff ..) ?hc); case hc => rfl)
    | ((with_reducible show Eff _ _ (showHeld ..)); (with_reducible refine Eff.step ?_ (showHeld_eff ..) ?hc); case hc => rfl)
    | (with_reducible refine Eff.mapGetD ?_ (fun k => ?_))
    | (with_reducible refine Eff.foldl ?_ (fun s x => ?_))
    | dsimp only
    | dsimp only [Option.getD_some, Option.getD_none]
    | split
    | simp only [List.length_map, length_mapIf, length_setAt])

theorem showPacket_eff (s : State) (cid : Nat) (f : Inflight) : Eff [.hostMem, .vectors, .ports, .inject, .wire, .gloves, .sessions, .queues, .outstanding, .windows, .conns, .casks, .vintages] s (showPacket s cid f) := by
  unfold showPacket
  repeat' (first
    | (with_reducible exact Eff.refl _ _)
    | ((with_reducible show Eff _ _ (deliverSend ..)); (with_reducible refine Eff.step ?_ (deliverSend_eff ..) ?hc); case hc => rfl)
    | ((with_reducible show Eff _ _ (obeyNotice ..)); (with_reducible refine Eff.step ?_ (obeyNotice_eff ..) ?hc); case hc => rfl)
    | ((with_reducible show Eff _ _ (countPlaced ..)); (with_reducible refine Eff.step ?_ (countPlaced_eff ..) ?hc); case hc => rfl)
    | ((with_reducible show Eff _ _ (answerRead ..)); (with_reducible refine Eff.step ?_ (answerRead_eff ..) ?hc); case hc => rfl)
    | ((with_reducible show Eff _ _ (answerAtomic ..)); (with_reducible refine Eff.step ?_ (answerAtomic_eff ..) ?hc); case hc => rfl)
    | ((with_reducible show Eff _ _ (endMessage ..)); (with_reducible refine Eff.step ?_ (endMessage_eff ..) ?hc); case hc => rfl)
    | dsimp only
    | split)

theorem advance_eff (n : Nat) (s : State) (cid : Nat) (resp : Bool) : Eff [.hostMem, .vectors, .ports, .inject, .wire, .gloves, .sessions, .queues, .outstanding, .windows, .conns, .casks, .vintages] s (advance n s cid resp) := by
  induction n generalizing s with
  | zero => exact Eff.refl _ _
  | succ n ih =>
    rw [advance]
    dsimp only
    split
    · exact Eff.refl _ _
    split
    · split
      · ((with_reducible refine Eff.step ?_ (ih _) ?hc); case hc => rfl)
        ((with_reducible refine Eff.step ?_ (showPacket_eff ..) ?hc); case hc => rfl)
        exact (setConn_eff ..).weaken rfl
      · exact Eff.refl _ _
    · exact Eff.refl _ _

theorem ackWhenDue_eff (s : State) (cid : Nat) (resp asked : Bool) : Eff [.inject, .wire, .conns] s (ackWhenDue s cid resp asked) := by
  unfold ackWhenDue
  repeat' (first
    | (with_reducible assumption)
    | (with_reducible exact Eff.refl _ _)
    | ((with_reducible show Eff _ _ (sendAck ..)); (with_reducible refine Eff.step ?_ (sendAck_eff ..) ?hc); case hc => rfl)
    | (with_reducible refine Eff.mapGetD ?_ (fun k => ?_))
    | (with_reducible refine Eff.foldl ?_ (fun s x => ?_))
    | dsimp only
    | dsimp only [Option.getD_some, Option.getD_none]
    | split
    | simp only [List.length_map, length_mapIf, length_setAt])

theorem resumeDeliveries_eff (s : State) (g : Nat) : Eff [.hostMem, .vectors, .ports, .inject, .wire, .gloves, .sessions, .queues, .outstanding, .windows, .conns, .casks, .vintages] s (resumeDeliveries s g) := by
  unfold resumeDeliveries
  repeat' (first
    | (with_reducible assumption)
    | (with_reducible exact Eff.refl _ _)
    | ((with_reducible show Eff _ _ (ackWhenDue ..)); (with_reducible refine Eff.step ?_ (ackWhenDue_eff ..) ?hc); case hc => rfl)
    | ((with_reducible show Eff _ _ (setConn ..)); (with_reducible refine Eff.step ?_ (setConn_eff ..) ?hc); case hc => rfl)
    | ((with_reducible show Eff _ _ (advance ..)); (with_reducible refine Eff.step ?_ (advance_eff ..) ?hc); case hc => rfl)
    | (with_reducible refine Eff.mapGetD ?_ (fun k => ?_))
    | (with_reducible refine Eff.foldl ?_ (fun s x => ?_))
    | dsimp only
    | dsimp only [Option.getD_some, Option.getD_none]
    | split
    | simp only [List.length_map, length_mapIf, length_setAt])

theorem execPacketPlaced_eff (conn space psn : Nat) (s : State) {t : State} (h : execPacketPlaced conn space psn s = .next t) : Eff [.hostMem, .vectors, .side, .ports, .inject, .wire, .gloves, .sessions, .queues, .outstanding, .windows, .conns, .casks, .vintages] s t := by
  unfold execPacketPlaced at h
  try dsimp only [bind, Except.bind, Except.map, pure, Except.pure, Option.map] at h
  repeat' (first
    | (split at h)
    | (replace h := ok_fst h; subst h)
    | (replace h := Except.ok.inj h; subst h)
    | (replace h := Host.Outcome.next.inj h; subst h)
    | (replace h := Option.some.inj h; subst h)
    | cases h
    | (dsimp only at h))
  all_goals repeat' (first
    | (with_reducible assumption)
    | (with_reducible exact Eff.refl _ _)
    | ((with_reducible refine Eff.step ?_ (Eff.fst_of (by assumption) (placeEffect_eff ..)) ?hc); case hc => rfl)
    | ((with_reducible refine Eff.step ?_ (placeEffect_eff ..) ?hc); case hc => rfl)
    | ((with_reducible show Eff _ _ (setConn ..)); (with_reducible refine Eff.step ?_ (setConn_eff ..) ?hc); case hc => rfl)
    | ((with_reducible show Eff _ _ (advance ..)); (with_reducible refine Eff.step ?_ (advance_eff ..) ?hc); case hc => rfl)
    | (with_reducible refine unlessStalled_eff ?_ ?_)
    | ((with_reducible show Eff _ _ (settleEnds ..)); (with_reducible refine Eff.step ?_ (settleEnds_eff ..) ?hc); case hc => rfl)
    | ((with_reducible show Eff _ _ (settleRevokes ..)); (with_reducible refine Eff.step ?_ (settleRevokes_eff ..) ?hc); case hc => rfl)
    | ((with_reducible show Eff _ _ (ackWhenDue ..)); (with_reducible refine Eff.step ?_ (ackWhenDue_eff ..) ?hc); case hc => rfl)
    | (with_reducible refine Eff.mapGetD ?_ (fun k => ?_))
    | (with_reducible refine Eff.foldl ?_ (fun s x => ?_))
    | dsimp only
    | dsimp only [Option.getD_some, Option.getD_none]
    | split
    | simp only [List.length_map, length_mapIf, length_setAt])

end Sys2Proof.Machine
end

