-- ==== Sys2Proof/Laws/EffectsRegs.lean ====
section
/-! SUPPORT. The effect of each operation of power, the connection rows, registers, sessions and the Trellis:
the parts of the state it may change (`Eff`, Laws/Effects.lean). -/

set_option autoImplicit false
set_option linter.unusedTactic false
set_option linter.unreachableTactic false
set_option linter.unusedSimpArgs false
set_option Elab.async false

namespace Sys2Proof.Machine

/-! ### Machine/Power.lean -/

theorem setPwr_eff (s : State) (f : Power → Power) : Eff [.pwr] s (setPwr s f) := by
  unfold setPwr
  repeat' (first
    | (with_reducible exact Eff.refl _ _)
    | dsimp only
    | (with_reducible apply Eff.of_rec (s := _))
    | (with_reducible exact .inl rfl)
    | exact .inr rfl
    | (with_reducible exact .inl ⟨rfl, rfl, rfl, rfl⟩))

theorem stopConverters_eff (s : State) (st : PowerState) : Eff booting s (stopConverters s st) := by
  unfold stopConverters
  repeat' (first
    | (with_reducible exact Eff.refl _ _)
    | ((with_reducible show Eff _ _ (loseLogic ..)); (with_reducible refine Eff.step ?_ (loseLogic_eff ..) ?hc); case hc => rfl)
    | ((with_reducible show Eff _ _ (setPwr ..)); (with_reducible refine Eff.step ?_ (setPwr_eff ..) ?hc); case hc => rfl))

theorem execAuxRise_eff (s : State) {t : State} (h : execAuxRise s = .next t) : Eff [.cal, .pwr] s t := by
  unfold execAuxRise at h
  repeat' (first
    | (split at h)
    | (replace h := Host.Outcome.next.inj h; subst h))
  all_goals repeat' (first
    | (with_reducible exact Eff.refl _ _)
    | ((with_reducible show Eff _ _ (setPwr ..)); (with_reducible refine Eff.step ?_ (setPwr_eff ..) ?hc); case hc => rfl)
    | dsimp only
    | (with_reducible apply Eff.of_rec (s := _))
    | (with_reducible exact .inl rfl)
    | exact .inr rfl
    | (with_reducible exact .inl ⟨rfl, rfl, rfl, rfl⟩))

theorem execAuxLoss_eff (s : State) {t : State} (h : execAuxLoss s = .next t) : Eff booting s t := by
  unfold execAuxLoss at h
  repeat' (first
    | (split at h)
    | (replace h := Host.Outcome.next.inj h; subst h))
  all_goals repeat' (first
    | (with_reducible exact Eff.refl _ _)
    | ((with_reducible show Eff _ _ (setPwr ..)); (with_reducible refine Eff.step ?_ (setPwr_eff ..) ?hc); case hc => rfl)
    | ((with_reducible show Eff _ _ (stopConverters ..)); (with_reducible refine Eff.step ?_ (stopConverters_eff ..) ?hc); case hc => rfl)
    | dsimp only
    | (with_reducible apply Eff.of_rec (s := _))
    | (with_reducible exact .inl rfl)
    | exact .inr rfl)

theorem execInputPowerRise_eff (s : State) {t : State} (h : execInputPowerRise s = .next t) : Eff [.pwr] s t := by
  unfold execInputPowerRise at h
  repeat' (first
    | (replace h := Host.Outcome.next.inj h; subst h))
  all_goals repeat' (first
    | (with_reducible exact Eff.refl _ _)
    | ((with_reducible show Eff _ _ (setPwr ..)); (with_reducible refine Eff.step ?_ (setPwr_eff ..) ?hc); case hc => rfl))

theorem execInputPowerLoss_eff (s : State) {t : State} (h : execInputPowerLoss s = .next t) : Eff booting s t := by
  unfold execInputPowerLoss at h
  repeat' (first
    | (split at h)
    | (replace h := Host.Outcome.next.inj h; subst h))
  all_goals repeat' (first
    | (with_reducible exact Eff.refl _ _)
    | ((with_reducible show Eff _ _ (setPwr ..)); (with_reducible refine Eff.step ?_ (setPwr_eff ..) ?hc); case hc => rfl)
    | ((with_reducible show Eff _ _ (stopConverters ..)); (with_reducible refine Eff.step ?_ (stopConverters_eff ..) ?hc); case hc => rfl))

theorem execPwrEnRise_eff (s : State) {t : State} (h : execPwrEnRise s = .next t) : Eff booting s t := by
  unfold execPwrEnRise at h
  repeat' (first
    | (split at h)
    | (replace h := Host.Outcome.next.inj h; subst h))
  all_goals repeat' (first
    | (with_reducible exact Eff.refl _ _)
    | ((with_reducible show Eff _ _ (setPwr ..)); (with_reducible refine Eff.step ?_ (setPwr_eff ..) ?hc); case hc => rfl)
    | ((with_reducible show Eff _ _ (loseLogic ..)); (with_reducible refine Eff.step ?_ (loseLogic_eff ..) ?hc); case hc => rfl))

theorem execPwrGood_eff (s : State) {t : State} (h : execPwrGood s = .next t) : Eff [.cal, .pwr, .rootStore, .fw] s t := by
  unfold execPwrGood at h
  try dsimp only [bind, Except.bind, Except.map, pure, Except.pure, Option.map] at h
  repeat' (first
    | (split at h)
    | (replace h := ok_fst h; subst h)
    | (replace h := Except.ok.inj h; subst h)
    | (replace h := Host.Outcome.next.inj h; subst h)
    | (replace h := Option.some.inj h; subst h)
    | cases h
    | (dsimp only at h))
  all_goals repeat' (first
    | (with_reducible assumption)
    | (with_reducible exact Eff.refl _ _)
    | ((with_reducible show Eff _ _ (setPwr ..)); (with_reducible refine Eff.step ?_ (setPwr_eff ..) ?hc); case hc => rfl)
    | ((with_reducible show Eff _ _ (releasePerst ..)); (with_reducible refine Eff.step ?_ (releasePerst_eff ..) ?hc); case hc => rfl)
    | (with_reducible refine Eff.mapGetD ?_ (fun k => ?_))
    | (with_reducible refine Eff.foldl ?_ (fun s x => ?_))
    | dsimp only
    | dsimp only [Option.getD_some, Option.getD_none]
    | split
    | simp only [List.length_map, length_mapIf, length_setAt])

theorem execPwrEnFall_eff (s : State) {t : State} (h : execPwrEnFall s = .next t) : Eff booting s t := by
  unfold execPwrEnFall at h
  repeat' (first
    | (split at h)
    | (replace h := Host.Outcome.next.inj h; subst h))
  all_goals repeat' (first
    | (with_reducible exact Eff.refl _ _)
    | ((with_reducible show Eff _ _ (setPwr ..)); (with_reducible refine Eff.step ?_ (setPwr_eff ..) ?hc); case hc => rfl)
    | ((with_reducible show Eff _ _ (stopConverters ..)); (with_reducible refine Eff.step ?_ (stopConverters_eff ..) ?hc); case hc => rfl))

theorem execTrip_eff (cause : TripCause) (s : State) {t : State} (h : execTrip cause s = .next t) : Eff booting s t := by
  unfold execTrip at h
  repeat' (first
    | (split at h)
    | (replace h := Host.Outcome.next.inj h; subst h))
  all_goals repeat' (first
    | (with_reducible exact Eff.refl _ _)
    | ((with_reducible show Eff _ _ (setPwr ..)); (with_reducible refine Eff.step ?_ (setPwr_eff ..) ?hc); case hc => rfl)
    | ((with_reducible show Eff _ _ (stopConverters ..)); (with_reducible refine Eff.step ?_ (stopConverters_eff ..) ?hc); case hc => rfl))

theorem execTripRecover_eff (s : State) {t : State} (h : execTripRecover s = .next t) : Eff [.pwr] s t := by
  unfold execTripRecover at h
  repeat' (first
    | (split at h)
    | (replace h := Host.Outcome.next.inj h; subst h))
  all_goals repeat' (first
    | (with_reducible exact Eff.refl _ _)
    | ((with_reducible show Eff _ _ (setPwr ..)); (with_reducible refine Eff.step ?_ (setPwr_eff ..) ?hc); case hc => rfl))

theorem execThrottleRaise_eff (cond : ThrottleCond) (s : State) {t : State} (h : execThrottleRaise cond s = .next t) : Eff [.pwr] s t := by
  unfold execThrottleRaise at h
  repeat' (first
    | (split at h)
    | (replace h := Host.Outcome.next.inj h; subst h))
  all_goals repeat' (first
    | (with_reducible exact Eff.refl _ _)
    | ((with_reducible show Eff _ _ (setPwr ..)); (with_reducible refine Eff.step ?_ (setPwr_eff ..) ?hc); case hc => rfl))

theorem execCalendarSecond_eff (readings : SecondReadings) (s : State) {t : State} (h : execCalendarSecond readings s = .next t) : Eff [.cal, .pwr, .int, .free] s t := by
  unfold execCalendarSecond at h
  try dsimp only [bind, Except.bind, Except.map, pure, Except.pure, Option.map] at h
  repeat' (first
    | (split at h)
    | (replace h := Host.Outcome.next.inj h; subst h))
  all_goals repeat' (first
    | (with_reducible exact Eff.refl _ _)
    | ((with_reducible refine Eff.step ?_ (drawFree_eff ..) ?hc); case hc => rfl)
    | ((with_reducible show Eff _ _ (setPwr ..)); (with_reducible refine Eff.step ?_ (setPwr_eff ..) ?hc); case hc => rfl)
    | dsimp only
    | (with_reducible apply Eff.of_rec (s := _))
    | (with_reducible exact .inl rfl)
    | exact .inr rfl
    | exact .inr ⟨rfl, rfl⟩
    | (with_reducible exact .inl ⟨rfl, rfl, rfl, rfl⟩))

theorem zeroRoots_eff (s : State) (bit : Nat) : Eff [.rootStore] s (zeroRoots s bit) := by
  unfold zeroRoots
  repeat' (first
    | (with_reducible exact Eff.refl _ _)
    | dsimp only
    | (with_reducible apply Eff.of_rec (s := _))
    | (with_reducible exact .inl rfl)
    | exact .inr rfl)

theorem execTamperTrip_eff (source : TamperSource) (s : State) {t : State} (h : execTamperTrip source s = .next t) : Eff booting s t := by
  unfold execTamperTrip at h
  repeat' (first
    | (split at h)
    | (replace h := Host.Outcome.next.inj h; subst h))
  all_goals repeat' (first
    | (with_reducible exact Eff.refl _ _)
    | ((with_reducible show Eff _ _ (zeroRoots ..)); (with_reducible refine Eff.step ?_ (zeroRoots_eff ..) ?hc); case hc => rfl)
    | ((with_reducible show Eff _ _ (fullReset ..)); (with_reducible refine Eff.step ?_ (fullReset_eff ..) ?hc); case hc => rfl)
    | dsimp only
    | (with_reducible apply Eff.of_rec (s := _))
    | (with_reducible exact .inl rfl)
    | exact .inr rfl)

theorem execVbatLoss_eff (s : State) {t : State} (h : execVbatLoss s = .next t) : Eff [.cal, .rootStore] s t := by
  unfold execVbatLoss at h
  try dsimp only [bind, Except.bind, Except.map, pure, Except.pure, Option.map] at h
  repeat' (first
    | (split at h)
    | (replace h := ok_fst h; subst h)
    | (replace h := Except.ok.inj h; subst h)
    | (replace h := Host.Outcome.next.inj h; subst h)
    | (replace h := Option.some.inj h; subst h)
    | cases h
    | (dsimp only at h))
  all_goals repeat' (first
    | (with_reducible assumption)
    | (with_reducible exact Eff.refl _ _)
    | ((with_reducible show Eff _ _ (zeroRoots ..)); (with_reducible refine Eff.step ?_ (zeroRoots_eff ..) ?hc); case hc => rfl)
    | (with_reducible refine Eff.mapGetD ?_ (fun k => ?_))
    | (with_reducible refine Eff.foldl ?_ (fun s x => ?_))
    | dsimp only
    | dsimp only [Option.getD_some, Option.getD_none]
    | split
    | (with_reducible apply Eff.of_rec (s := _))
    | (with_reducible exact .inl rfl)
    | (with_reducible rfl)
    | exact .inr rfl
    | (with_reducible exact .inl ⟨rfl, rfl, rfl, rfl⟩)
    | (with_reducible exact .inl (map_map_keep (fun _ => by first | rfl | ((try dsimp only); split <;> rfl))))
    | simp only [List.length_map, length_mapIf, length_setAt]
    | exact .inr ⟨rfl, by first | exact id | simp only [length_setAt, length_mapIf]⟩
    | exact .inr ⟨rfl, fun h => all_filter h⟩
    | exact .inr ⟨rfl, fun h => wf_set h _ _⟩
    | exact .inr ⟨rfl, fun h => wf_writeN h _ _⟩)

theorem cmdModuleStatus_eff {p : Packet} {s t : State} {x : Done} (h : (cmdModuleStatus).body p s = .ok (t, x)) : Eff [] s t := by
  unfold cmdModuleStatus at h
  repeat' (first
    | (replace h := ok_fst h; subst h))
  all_goals repeat' (first
    | (with_reducible exact Eff.refl _ _))

theorem execModuleStatus_eff (p : Packet) (s : State) {t : State} (h : execModuleStatus p s = .next t) : Eff answering s t := by
  exact runCmd_eff (fun _ _ _ _ h => (cmdModuleStatus_eff (h := h) ..).weaken rfl) rfl (by first | exact .inl (fun _ _ => rfl) | exact .inr rfl) h

theorem cmdPowerCapSet_eff {p : Packet} {s t : State} {x : Done} (h : (cmdPowerCapSet).body p s = .ok (t, x)) : Eff [.pwr] s t := by
  unfold cmdPowerCapSet at h
  repeat' (first
    | (replace h := ok_fst h; subst h))
  all_goals repeat' (first
    | (with_reducible exact Eff.refl _ _)
    | ((with_reducible show Eff _ _ (setPwr ..)); (with_reducible refine Eff.step ?_ (setPwr_eff ..) ?hc); case hc => rfl))

theorem execPowerCapSet_eff (p : Packet) (s : State) {t : State} (h : execPowerCapSet p s = .next t) : Eff (.pwr :: answering) s t := by
  exact runCmd_eff (fun _ _ _ _ h => (cmdPowerCapSet_eff (h := h) ..).weaken rfl) rfl (by first | exact .inl (fun _ _ => rfl) | exact .inr rfl) h

/-! ### Machine/Wra.lean -/

theorem parkPacket_eff (s : State) (c : Conn) (op : Nat) (w : WraPacket) (stamp : PhaseWord) (win : Option Window) : Eff [.vectors, .wire, .sessions, .conns] s (parkPacket s c op w stamp win) := by
  unfold parkPacket
  repeat' (first
    | (with_reducible exact Eff.refl _ _)
    | ((with_reducible show Eff _ _ (startFetch ..)); (with_reducible refine Eff.step ?_ (startFetch_eff ..) ?hc); case hc => rfl)
    | ((with_reducible show Eff _ _ (setConn ..)); (with_reducible refine Eff.step ?_ (setConn_eff ..) ?hc); case hc => rfl)
    | dsimp only
    | split
    | (with_reducible apply Eff.of_rec (s := _))
    | (with_reducible exact .inl rfl)
    | exact .inr rfl
    | (with_reducible exact .inl ⟨rfl, rfl, rfl, rfl⟩))

theorem noteCe_eff (s : State) (c : Conn) (op : Nat) (w : WraPacket) : Eff [.conns] s (noteCe s c op w) := by
  unfold noteCe
  repeat' (first
    | (with_reducible assumption)
    | (with_reducible exact Eff.refl _ _)
    | ((with_reducible show Eff _ _ (setConn ..)); (with_reducible refine Eff.step ?_ (setConn_eff ..) ?hc); case hc => rfl)
    | (with_reducible refine Eff.mapGetD ?_ (fun k => ?_))
    | (with_reducible refine Eff.foldl ?_ (fun s x => ?_))
    | dsimp only
    | dsimp only [Option.getD_some, Option.getD_none]
    | split
    | simp only [List.length_map, length_mapIf, length_setAt])

theorem dropCredited_eff (s : State) (port : Nat) : Eff [.ports] s (dropCredited s port) := by
  unfold dropCredited
  repeat' (first
    | (with_reducible assumption)
    | (with_reducible exact Eff.refl _ _)
    | ((with_reducible show Eff _ _ (setPort ..)); (with_reducible refine Eff.step ?_ (setPort_eff_i _ _ _ (fun _ => by first | (with_reducible rfl) | ((try dsimp only); split <;> (with_reducible rfl)))) ?hc); case hc => rfl)
    | ((with_reducible show Eff _ _ (setPort ..)); (with_reducible refine Eff.step ?_ (setPort_eff_p _ _ _ (fun _ => by first | (with_reducible rfl) | ((try dsimp only); split <;> (with_reducible rfl)))) ?hc); case hc => rfl)
    | ((with_reducible show Eff _ _ (setPort ..)); (with_reducible refine Eff.step ?_ (setPort_eff _ _ _) ?hc); case hc => rfl)
    | (with_reducible refine Eff.mapGetD ?_ (fun k => ?_))
    | (with_reducible refine Eff.foldl ?_ (fun s x => ?_))
    | dsimp only
    | dsimp only [Option.getD_some, Option.getD_none]
    | split
    | simp only [List.length_map, length_mapIf, length_setAt])

theorem ackAgain_eff (s : State) (cid : Nat) (resp : Bool) (w : WraPacket) : Eff [.inject, .wire, .conns] s (ackAgain s cid resp w) := by
  unfold ackAgain
  repeat' (first
    | (with_reducible assumption)
    | (with_reducible exact Eff.refl _ _)
    | ((with_reducible show Eff _ _ (setConn ..)); (with_reducible refine Eff.step ?_ (setConn_eff ..) ?hc); case hc => rfl)
    | ((with_reducible show Eff _ _ (sendAck ..)); (with_reducible refine Eff.step ?_ (sendAck_eff ..) ?hc); case hc => rfl)
    | (with_reducible refine Eff.mapGetD ?_ (fun k => ?_))
    | (with_reducible refine Eff.foldl ?_ (fun s x => ?_))
    | dsimp only
    | dsimp only [Option.getD_some, Option.getD_none]
    | split
    | simp only [List.length_map, length_mapIf, length_setAt])

theorem duplicatePacket_eff (s : State) (c : Conn) (op : Nat) (w : WraPacket) : Eff [.ports, .inject, .wire, .conns] s (duplicatePacket s c op w) := by
  unfold duplicatePacket
  repeat' (first
    | (with_reducible assumption)
    | (with_reducible exact Eff.refl _ _)
    | ((with_reducible show Eff _ _ (ackAgain ..)); (with_reducible refine Eff.step ?_ (ackAgain_eff ..) ?hc); case hc => rfl)
    | ((with_reducible show Eff _ _ (sendNak ..)); (with_reducible refine Eff.step ?_ (sendNak_eff ..) ?hc); case hc => rfl)
    | (with_reducible refine Eff.mapGetD ?_ (fun k => ?_))
    | (with_reducible refine Eff.foldl ?_ (fun s x => ?_))
    | dsimp only
    | dsimp only [Option.getD_some, Option.getD_none]
    | split
    | simp only [List.length_map, length_mapIf, length_setAt])

theorem reserveSend_eff (s : State) (c : Conn) (w : WraPacket) (win : Option Window) : Eff [.queues] s (reserveSend s c w win) := by
  unfold reserveSend
  repeat' (first
    | (with_reducible exact Eff.refl _ _)
    | ((with_reducible show Eff _ _ (setQueue ..)); (with_reducible refine Eff.step ?_ (setQueue_eff ..) ?hc); case hc => rfl))

theorem takePsn_eff (s : State) (c : Conn) (op : Nat) (w : WraPacket) (stamp : PhaseWord) (win : Option Window) (v : Verdict) : Eff [.vectors, .side, .ports, .inject, .wire, .sessions, .queues, .outstanding, .conns] s (takePsn s c op w stamp win v) := by
  unfold takePsn
  repeat' (first
    | (with_reducible exact Eff.refl _ _)
    | ((with_reducible show Eff _ _ (setConn ..)); (with_reducible refine Eff.step ?_ (setConn_eff ..) ?hc); case hc => rfl)
    | ((with_reducible show Eff _ _ (refusePacket ..)); (with_reducible refine Eff.step ?_ (refusePacket_eff ..) ?hc); case hc => rfl)
    | ((with_reducible show Eff _ _ (reserveSend ..)); (with_reducible refine Eff.step ?_ (reserveSend_eff ..) ?hc); case hc => rfl)
    | split)

theorem barPacket_eff (s : State) (c : Conn) (op : Nat) (w : WraPacket) (stamp : PhaseWord) (bar : Status × Nat) : Eff [.vectors, .side, .ports, .inject, .wire, .sessions, .queues, .outstanding, .windows, .conns] s (barPacket s c op w stamp bar) := by
  unfold barPacket
  repeat' (first
    | (with_reducible assumption)
    | (with_reducible exact Eff.refl _ _)
    | ((with_reducible show Eff _ _ (reportViolation ..)); (with_reducible refine Eff.step ?_ (reportViolation_eff ..) ?hc); case hc => rfl)
    | ((with_reducible show Eff _ _ (takePsn ..)); (with_reducible refine Eff.step ?_ (takePsn_eff ..) ?hc); case hc => rfl)
    | ((with_reducible show Eff _ _ (refuse ..)); (with_reducible refine Eff.step ?_ (refuse_eff ..) ?hc); case hc => rfl)
    | ((with_reducible show Eff _ _ (sendNak ..)); (with_reducible refine Eff.step ?_ (sendNak_eff ..) ?hc); case hc => rfl)
    | ((with_reducible show Eff _ _ (ackAgain ..)); (with_reducible refine Eff.step ?_ (ackAgain_eff ..) ?hc); case hc => rfl)
    | (with_reducible refine Eff.mapGetD ?_ (fun k => ?_))
    | (with_reducible refine Eff.foldl ?_ (fun s x => ?_))
    | dsimp only
    | dsimp only [Option.getD_some, Option.getD_none]
    | split
    | simp only [List.length_map, length_mapIf, length_setAt])

theorem judgePacket_eff (s : State) (c : Conn) (op : Nat) (w : WraPacket) (stamp : PhaseWord) (win : Option Window) : Eff [.vectors, .side, .ports, .inject, .wire, .sessions, .queues, .outstanding, .conns, .vintages] s (judgePacket s c op w stamp win) := by
  unfold judgePacket
  repeat' (first
    | (with_reducible assumption)
    | (with_reducible exact Eff.refl _ _)
    | ((with_reducible show Eff _ _ (takePsn ..)); (with_reducible refine Eff.step ?_ (takePsn_eff ..) ?hc); case hc => rfl)
    | ((with_reducible show Eff _ _ (leadMismatch ..)); (with_reducible refine Eff.step ?_ (leadMismatch_eff ..) ?hc); case hc => rfl)
    | (with_reducible refine Eff.mapGetD ?_ (fun k => ?_))
    | (with_reducible refine Eff.foldl ?_ (fun s x => ?_))
    | dsimp only
    | dsimp only [Option.getD_some, Option.getD_none]
    | split
    | simp only [List.length_map, length_mapIf, length_setAt])

theorem sequencePacket_eff (s : State) (cid : Nat) (op : Nat) (w : WraPacket) (stamp : PhaseWord) (win : Option Window) : Eff [.vectors, .side, .ports, .inject, .wire, .sessions, .queues, .outstanding, .conns, .vintages] s (sequencePacket s cid op w stamp win) := by
  unfold sequencePacket
  repeat' (first
    | (with_reducible assumption)
    | (with_reducible exact Eff.refl _ _)
    | ((with_reducible show Eff _ _ (dropCredited ..)); (with_reducible refine Eff.step ?_ (dropCredited_eff ..) ?hc); case hc => rfl)
    | ((with_reducible show Eff _ _ (duplicatePacket ..)); (with_reducible refine Eff.step ?_ (duplicatePacket_eff ..) ?hc); case hc => rfl)
    | ((with_reducible show Eff _ _ (dropPacket ..)); (with_reducible refine Eff.step ?_ (dropPacket_eff ..) ?hc); case hc => rfl)
    | ((with_reducible show Eff _ _ (judgePacket ..)); (with_reducible refine Eff.step ?_ (judgePacket_eff ..) ?hc); case hc => rfl)
    | (with_reducible refine Eff.mapGetD ?_ (fun k => ?_))
    | (with_reducible refine Eff.foldl ?_ (fun s x => ?_))
    | dsimp only
    | dsimp only [Option.getD_some, Option.getD_none]
    | split
    | simp only [List.length_map, length_mapIf, length_setAt])

theorem dataPacket_eff (s : State) (c : Conn) (op : Nat) (w : WraPacket) : Eff [.vectors, .side, .ports, .inject, .wire, .sessions, .queues, .outstanding, .windows, .conns, .vintages] s (dataPacket s c op w) := by
  unfold dataPacket
  repeat' (first
    | (with_reducible assumption)
    | (with_reducible exact Eff.refl _ _)
    | ((with_reducible show Eff _ _ (barPacket ..)); (with_reducible refine Eff.step ?_ (barPacket_eff ..) ?hc); case hc => rfl)
    | ((with_reducible show Eff _ _ (touchConn ..)); (with_reducible refine Eff.step ?_ (touchConn_eff ..) ?hc); case hc => rfl)
    | ((with_reducible show Eff _ _ (sequencePacket ..)); (with_reducible refine Eff.step ?_ (sequencePacket_eff ..) ?hc); case hc => rfl)
    | ((with_reducible show Eff _ _ (parkPacket ..)); (with_reducible refine Eff.step ?_ (parkPacket_eff ..) ?hc); case hc => rfl)
    | (with_reducible refine Eff.mapGetD ?_ (fun k => ?_))
    | (with_reducible refine Eff.foldl ?_ (fun s x => ?_))
    | dsimp only
    | dsimp only [Option.getD_some, Option.getD_none]
    | split
    | simp only [List.length_map, length_mapIf, length_setAt])

theorem resendPacket_eff (cid : Nat) (resp : Bool) (s : State) (x : TxPacket) : Eff [.inject, .wire, .conns] s (resendPacket cid resp s x) := by
  unfold resendPacket
  repeat' (first
    | (with_reducible assumption)
    | (with_reducible exact Eff.refl _ _)
    | ((with_reducible show Eff _ _ (setConn ..)); (with_reducible refine Eff.step ?_ (setConn_eff ..) ?hc); case hc => rfl)
    | ((with_reducible show Eff _ _ (putOnWire ..)); (with_reducible refine Eff.step ?_ (putOnWire_eff ..) ?hc); case hc => rfl)
    | (with_reducible refine Eff.mapGetD ?_ (fun k => ?_))
    | (with_reducible refine Eff.foldl ?_ (fun s x => ?_))
    | dsimp only
    | dsimp only [Option.getD_some, Option.getD_none]
    | split
    | simp only [List.length_map, length_mapIf, length_setAt])

theorem restartSpace_eff (s : State) (cid : Nat) (resp : Bool) : Eff [.inject, .wire, .conns] s (restartSpace s cid resp) := by
  unfold restartSpace
  repeat' (first
    | (with_reducible assumption)
    | (with_reducible exact Eff.refl _ _)
    | ((with_reducible show Eff _ _ (setConn ..)); (with_reducible refine Eff.step ?_ (setConn_eff ..) ?hc); case hc => rfl)
    | ((with_reducible show Eff _ _ (resendPacket ..)); (with_reducible refine Eff.step ?_ (resendPacket_eff ..) ?hc); case hc => rfl)
    | (with_reducible refine Eff.mapGetD ?_ (fun k => ?_))
    | (with_reducible refine Eff.foldl ?_ (fun s x => ?_))
    | dsimp only
    | dsimp only [Option.getD_some, Option.getD_none]
    | split
    | simp only [List.length_map, length_mapIf, length_setAt])

theorem resumeConn_eff (s : State) (cid : Nat) : Eff [.vectors, .inject, .wire, .sessions, .conns] s (resumeConn s cid) := by
  unfold resumeConn
  repeat' (first
    | (with_reducible exact Eff.refl _ _)
    | ((with_reducible show Eff _ _ (setConn ..)); (with_reducible refine Eff.step ?_ (setConn_eff ..) ?hc); case hc => rfl)
    | ((with_reducible show Eff _ _ (pump ..)); (with_reducible refine Eff.step ?_ (pump_eff ..) ?hc); case hc => rfl)
    | ((with_reducible show Eff _ _ (restartSpace ..)); (with_reducible refine Eff.step ?_ (restartSpace_eff ..) ?hc); case hc => rfl))

theorem establishConn_eff (s : State) (c : Conn) : Eff [.vectors, .inject, .wire, .sessions, .queues, .conns] s (establishConn s c) := by
  unfold establishConn
  repeat' (first
    | (with_reducible exact Eff.refl _ _)
    | ((with_reducible show Eff _ _ (setConn ..)); (with_reducible refine Eff.step ?_ (setConn_eff ..) ?hc); case hc => rfl)
    | ((with_reducible show Eff _ _ (pump ..)); (with_reducible refine Eff.step ?_ (pump_eff ..) ?hc); case hc => rfl)
    | ((with_reducible show Eff _ _ (connEvent ..)); (with_reducible refine Eff.step ?_ (connEvent_eff ..) ?hc); case hc => rfl))

theorem connectPacket_eff (s : State) (c : Conn) (w : WraPacket) : Eff [.vectors, .side, .ports, .inject, .wire, .sessions, .queues, .outstanding, .conns, .vintages] s (connectPacket s c w) := by
  unfold connectPacket
  repeat' (first
    | (with_reducible assumption)
    | (with_reducible exact Eff.refl _ _)
    | ((with_reducible show Eff _ _ (dropPacket ..)); (with_reducible refine Eff.step ?_ (dropPacket_eff ..) ?hc); case hc => rfl)
    | ((with_reducible show Eff _ _ (setConn ..)); (with_reducible refine Eff.step ?_ (setConn_eff ..) ?hc); case hc => rfl)
    | ((with_reducible show Eff _ _ (establishConn ..)); (with_reducible refine Eff.step ?_ (establishConn_eff ..) ?hc); case hc => rfl)
    | ((with_reducible show Eff _ _ (sendControl ..)); (with_reducible refine Eff.step ?_ (sendControl_eff ..) ?hc); case hc => rfl)
    | ((with_reducible show Eff _ _ (sequencePacket ..)); (with_reducible refine Eff.step ?_ (sequencePacket_eff ..) ?hc); case hc => rfl)
    | (with_reducible refine Eff.mapGetD ?_ (fun k => ?_))
    | (with_reducible refine Eff.foldl ?_ (fun s x => ?_))
    | dsimp only
    | dsimp only [Option.getD_some, Option.getD_none]
    | split
    | simp only [List.length_map, length_mapIf, length_setAt])

theorem connectAckPacket_eff (s : State) (c : Conn) (w : WraPacket) : Eff [.vectors, .inject, .wire, .sessions, .queues, .conns] s (connectAckPacket s c w) := by
  unfold connectAckPacket
  repeat' (first
    | (with_reducible assumption)
    | (with_reducible exact Eff.refl _ _)
    | ((with_reducible show Eff _ _ (dropPacket ..)); (with_reducible refine Eff.step ?_ (dropPacket_eff ..) ?hc); case hc => rfl)
    | ((with_reducible show Eff _ _ (setConn ..)); (with_reducible refine Eff.step ?_ (setConn_eff ..) ?hc); case hc => rfl)
    | ((with_reducible show Eff _ _ (retryFetches ..)); (with_reducible refine Eff.step ?_ (retryFetches_eff ..) ?hc); case hc => rfl)
    | ((with_reducible show Eff _ _ (establishConn ..)); (with_reducible refine Eff.step ?_ (establishConn_eff ..) ?hc); case hc => rfl)
    | ((with_reducible show Eff _ _ (connEvent ..)); (with_reducible refine Eff.step ?_ (connEvent_eff ..) ?hc); case hc => rfl)
    | (with_reducible refine Eff.mapGetD ?_ (fun k => ?_))
    | (with_reducible refine Eff.foldl ?_ (fun s x => ?_))
    | dsimp only
    | dsimp only [Option.getD_some, Option.getD_none]
    | split
    | simp only [List.length_map, length_mapIf, length_setAt])

theorem closePacket_eff (s : State) (c : Conn) (w : WraPacket) : Eff [.vectors, .side, .ports, .inject, .wire, .sessions, .queues, .outstanding, .conns, .vintages] s (closePacket s c w) := by
  unfold closePacket
  repeat' (first
    | (with_reducible assumption)
    | (with_reducible exact Eff.refl _ _)
    | ((with_reducible show Eff _ _ (sequencePacket ..)); (with_reducible refine Eff.step ?_ (sequencePacket_eff ..) ?hc); case hc => rfl)
    | ((with_reducible show Eff _ _ (closeConn ..)); (with_reducible refine Eff.step ?_ (closeConn_eff ..) ?hc); case hc => rfl)
    | (with_reducible refine Eff.mapGetD ?_ (fun k => ?_))
    | (with_reducible refine Eff.foldl ?_ (fun s x => ?_))
    | dsimp only
    | dsimp only [Option.getD_some, Option.getD_none]
    | split
    | simp only [List.length_map, length_mapIf, length_setAt])

theorem retransmit_eff (s : State) (cid : Nat) (resp : Bool) (psn : Nat) : Eff [.inject, .wire, .conns] s (retransmit s cid resp psn) := by
  unfold retransmit
  repeat' (first
    | (with_reducible exact Eff.refl _ _)
    | ((with_reducible show Eff _ _ (setConn ..)); (with_reducible refine Eff.step ?_ (setConn_eff ..) ?hc); case hc => rfl)
    | ((with_reducible show Eff _ _ (putOnWire ..)); (with_reducible refine Eff.step ?_ (putOnWire_eff ..) ?hc); case hc => rfl)
    | split)

theorem ackMessage_eff (s : State) (cid msg : Nat) : Eff [.vectors, .sessions, .queues, .conns] s (ackMessage s cid msg) := by
  unfold ackMessage
  repeat' (first
    | (with_reducible exact Eff.refl _ _)
    | ((with_reducible show Eff _ _ (setConn ..)); (with_reducible refine Eff.step ?_ (setConn_eff ..) ?hc); case hc => rfl)
    | ((with_reducible show Eff _ _ (completeRequest ..)); (with_reducible refine Eff.step ?_ (completeRequest_eff ..) ?hc); case hc => rfl)
    | split)

theorem applyCe_eff (s : State) (cid ce : Nat) : Eff [.conns] s (applyCe s cid ce) := by
  unfold applyCe
  repeat' (first
    | (with_reducible exact Eff.refl _ _)
    | ((with_reducible show Eff _ _ (setConn ..)); (with_reducible refine Eff.step ?_ (setConn_eff ..) ?hc); case hc => rfl))

theorem ackPacket_eff (s : State) (c : Conn) (w : WraPacket) : Eff [.vectors, .inject, .wire, .sessions, .queues, .conns] s (ackPacket s c w) := by
  unfold ackPacket
  repeat' (first
    | (with_reducible assumption)
    | (with_reducible exact Eff.refl _ _)
    | ((with_reducible show Eff _ _ (applyCe ..)); (with_reducible refine Eff.step ?_ (applyCe_eff ..) ?hc); case hc => rfl)
    | ((with_reducible show Eff _ _ (setConn ..)); (with_reducible refine Eff.step ?_ (setConn_eff ..) ?hc); case hc => rfl)
    | ((with_reducible show Eff _ _ (ackMessage ..)); (with_reducible refine Eff.step ?_ (ackMessage_eff ..) ?hc); case hc => rfl)
    | ((with_reducible show Eff _ _ (retryFetches ..)); (with_reducible refine Eff.step ?_ (retryFetches_eff ..) ?hc); case hc => rfl)
    | ((with_reducible show Eff _ _ (pump ..)); (with_reducible refine Eff.step ?_ (pump_eff ..) ?hc); case hc => rfl)
    | ((with_reducible show Eff _ _ (retransmit ..)); (with_reducible refine Eff.step ?_ (retransmit_eff ..) ?hc); case hc => rfl)
    | (with_reducible refine Eff.mapGetD ?_ (fun k => ?_))
    | (with_reducible refine Eff.foldl ?_ (fun s x => ?_))
    | dsimp only
    | dsimp only [Option.getD_some, Option.getD_none]
    | split
    | simp only [List.length_map, length_mapIf, length_setAt])

theorem statusPacket_eff (s : State) (c : Conn) (w : WraPacket) : Eff [.vectors, .sessions, .queues, .conns] s (statusPacket s c w) := by
  unfold statusPacket
  repeat' (first
    | (with_reducible exact Eff.refl _ _)
    | ((with_reducible show Eff _ _ (setConn ..)); (with_reducible refine Eff.step ?_ (setConn_eff ..) ?hc); case hc => rfl)
    | ((with_reducible show Eff _ _ (finishIssued ..)); (with_reducible refine Eff.step ?_ (finishIssued_eff ..) ?hc); case hc => rfl)
    | dsimp only
    | split)

theorem controlPacket_eff (s : State) (c : Conn) (op : Nat) (w : WraPacket) : Eff [.vectors, .side, .ports, .inject, .wire, .sessions, .queues, .outstanding, .windows, .conns, .vintages] s (controlPacket s c op w) := by
  unfold controlPacket
  repeat' (first
    | (with_reducible assumption)
    | (with_reducible exact Eff.refl _ _)
    | ((with_reducible show Eff _ _ (ackPacket ..)); (with_reducible refine Eff.step ?_ (ackPacket_eff ..) ?hc); case hc => rfl)
    | ((with_reducible show Eff _ _ (statusPacket ..)); (with_reducible refine Eff.step ?_ (statusPacket_eff ..) ?hc); case hc => rfl)
    | ((with_reducible show Eff _ _ (dataPacket ..)); (with_reducible refine Eff.step ?_ (dataPacket_eff ..) ?hc); case hc => rfl)
    | ((with_reducible show Eff _ _ (connectPacket ..)); (with_reducible refine Eff.step ?_ (connectPacket_eff ..) ?hc); case hc => rfl)
    | ((with_reducible show Eff _ _ (dropPacket ..)); (with_reducible refine Eff.step ?_ (dropPacket_eff ..) ?hc); case hc => rfl)
    | ((with_reducible show Eff _ _ (connectAckPacket ..)); (with_reducible refine Eff.step ?_ (connectAckPacket_eff ..) ?hc); case hc => rfl)
    | ((with_reducible show Eff _ _ (closePacket ..)); (with_reducible refine Eff.step ?_ (closePacket_eff ..) ?hc); case hc => rfl)
    | (with_reducible refine Eff.mapGetD ?_ (fun k => ?_))
    | (with_reducible refine Eff.foldl ?_ (fun s x => ?_))
    | dsimp only
    | dsimp only [Option.getD_some, Option.getD_none]
    | split
    | simp only [List.length_map, length_mapIf, length_setAt])

theorem admitPacket_eff (s : State) (c : Conn) (op : Nat) (w : WraPacket) : Eff [.vectors, .side, .ports, .inject, .wire, .sessions, .queues, .outstanding, .windows, .conns, .vintages] s (admitPacket s c op w) := by
  unfold admitPacket
  repeat' (first
    | (with_reducible assumption)
    | (with_reducible exact Eff.refl _ _)
    | ((with_reducible show Eff _ _ (dropPacket ..)); (with_reducible refine Eff.step ?_ (dropPacket_eff ..) ?hc); case hc => rfl)
    | ((with_reducible show Eff _ _ (dropCredited ..)); (with_reducible refine Eff.step ?_ (dropCredited_eff ..) ?hc); case hc => rfl)
    | ((with_reducible show Eff _ _ (noteCe ..)); (with_reducible refine Eff.step ?_ (noteCe_eff ..) ?hc); case hc => rfl)
    | ((with_reducible show Eff _ _ (setConn ..)); (with_reducible refine Eff.step ?_ (setConn_eff ..) ?hc); case hc => rfl)
    | ((with_reducible show Eff _ _ (resumeConn ..)); (with_reducible refine Eff.step ?_ (resumeConn_eff ..) ?hc); case hc => rfl)
    | ((with_reducible show Eff _ _ (parkPacket ..)); (with_reducible refine Eff.step ?_ (parkPacket_eff ..) ?hc); case hc => rfl)
    | ((with_reducible show Eff _ _ (touchConn ..)); (with_reducible refine Eff.step ?_ (touchConn_eff ..) ?hc); case hc => rfl)
    | ((with_reducible show Eff _ _ (controlPacket ..)); (with_reducible refine Eff.step ?_ (controlPacket_eff ..) ?hc); case hc => rfl)
    | (with_reducible refine Eff.mapGetD ?_ (fun k => ?_))
    | (with_reducible refine Eff.foldl ?_ (fun s x => ?_))
    | dsimp only
    | dsimp only [Option.getD_some, Option.getD_none]
    | split
    | simp only [List.length_map, length_mapIf, length_setAt])

theorem forwardPacket_eff (s : State) (op : Nat) (w : WraPacket) (t : TrellisHeader) : Eff [.inject, .trellis, .wire] s (forwardPacket s op w t) := by
  unfold forwardPacket
  repeat' (first
    | (with_reducible assumption)
    | (with_reducible exact Eff.refl _ _)
    | ((with_reducible show Eff _ _ (emitRaw ..)); (with_reducible refine Eff.step ?_ (emitRaw_eff ..) ?hc); case hc => rfl)
    | (with_reducible refine Eff.mapGetD ?_ (fun k => ?_))
    | (with_reducible refine Eff.foldl ?_ (fun s x => ?_))
    | dsimp only
    | dsimp only [Option.getD_some, Option.getD_none]
    | split
    | (with_reducible apply Eff.of_rec (s := _))
    | (with_reducible exact .inl rfl)
    | (with_reducible rfl)
    | exact .inr rfl
    | (with_reducible exact .inl ⟨rfl, rfl, rfl, rfl⟩)
    | (with_reducible exact .inl (map_map_keep (fun _ => by first | rfl | ((try dsimp only); split <;> rfl))))
    | simp only [List.length_map, length_mapIf, length_setAt]
    | exact .inr ⟨rfl, by first | exact id | simp only [length_setAt, length_mapIf]⟩
    | exact .inr ⟨rfl, fun h => all_filter h⟩
    | exact .inr ⟨rfl, fun h => wf_set h _ _⟩
    | exact .inr ⟨rfl, fun h => wf_writeN h _ _⟩)

theorem dropIntegrity_eff (s : State) (port : Nat) : Eff [.ports] s (dropIntegrity s port) := by
  unfold dropIntegrity
  repeat' (first
    | (with_reducible assumption)
    | (with_reducible exact Eff.refl _ _)
    | ((with_reducible show Eff _ _ (setPort ..)); (with_reducible refine Eff.step ?_ (setPort_eff_i _ _ _ (fun _ => by first | (with_reducible rfl) | ((try dsimp only); split <;> (with_reducible rfl)))) ?hc); case hc => rfl)
    | ((with_reducible show Eff _ _ (setPort ..)); (with_reducible refine Eff.step ?_ (setPort_eff_p _ _ _ (fun _ => by first | (with_reducible rfl) | ((try dsimp only); split <;> (with_reducible rfl)))) ?hc); case hc => rfl)
    | ((with_reducible show Eff _ _ (setPort ..)); (with_reducible refine Eff.step ?_ (setPort_eff _ _ _) ?hc); case hc => rfl)
    | (with_reducible refine Eff.mapGetD ?_ (fun k => ?_))
    | (with_reducible refine Eff.foldl ?_ (fun s x => ?_))
    | dsimp only
    | dsimp only [Option.getD_some, Option.getD_none]
    | split
    | simp only [List.length_map, length_mapIf, length_setAt])

theorem processPacket_eff (s : State) (op : Nat) (w : WraPacket) : Eff [.vectors, .side, .ports, .inject, .trellis, .wire, .sessions, .queues, .outstanding, .windows, .conns, .vintages] s (processPacket s op w) := by
  unfold processPacket
  repeat' (first
    | (with_reducible assumption)
    | (with_reducible exact Eff.refl _ _)
    | ((with_reducible show Eff _ _ (forwardPacket ..)); (with_reducible refine Eff.step ?_ (forwardPacket_eff ..) ?hc); case hc => rfl)
    | ((with_reducible show Eff _ _ (dropIntegrity ..)); (with_reducible refine Eff.step ?_ (dropIntegrity_eff ..) ?hc); case hc => rfl)
    | ((with_reducible show Eff _ _ (dropPacket ..)); (with_reducible refine Eff.step ?_ (dropPacket_eff ..) ?hc); case hc => rfl)
    | ((with_reducible show Eff _ _ (admitPacket ..)); (with_reducible refine Eff.step ?_ (admitPacket_eff ..) ?hc); case hc => rfl)
    | (with_reducible refine Eff.mapGetD ?_ (fun k => ?_))
    | (with_reducible refine Eff.foldl ?_ (fun s x => ?_))
    | dsimp only
    | dsimp only [Option.getD_some, Option.getD_none]
    | split
    | (with_reducible apply Eff.of_rec (s := _))
    | (with_reducible exact .inl rfl)
    | (with_reducible rfl)
    | exact .inr rfl
    | (with_reducible exact .inl ⟨rfl, rfl, rfl, rfl⟩)
    | (with_reducible exact .inl (map_map_keep (fun _ => by first | rfl | ((try dsimp only); split <;> rfl))))
    | simp only [List.length_map, length_mapIf, length_setAt]
    | exact .inr ⟨rfl, by first | exact id | simp only [length_setAt, length_mapIf]⟩
    | exact .inr ⟨rfl, fun h => all_filter h⟩
    | exact .inr ⟨rfl, fun h => wf_set h _ _⟩
    | exact .inr ⟨rfl, fun h => wf_writeN h _ _⟩)

theorem setTrellis_eff (s : State) (f : Trellis → Trellis) : Eff [.trellis] s (setTrellis s f) := by
  unfold setTrellis
  repeat' (first
    | (with_reducible exact Eff.refl _ _)
    | dsimp only
    | (with_reducible apply Eff.of_rec (s := _))
    | (with_reducible exact .inl rfl)
    | exact .inr rfl
    | (with_reducible exact .inl ⟨rfl, rfl, rfl, rfl⟩))

theorem membershipEvents_eff (s : State) : Eff [.vectors, .sessions, .queues] s (membershipEvents s) := by
  unfold membershipEvents
  repeat' (first
    | (with_reducible exact Eff.refl _ _)
    | ((with_reducible show Eff _ _ (postTo ..)); (with_reducible refine Eff.step ?_ (postTo_eff ..) ?hc); case hc => rfl)
    | ((with_reducible show Eff _ _ (postEvent ..)); (with_reducible refine Eff.step ?_ (postEvent_eff ..) ?hc); case hc => rfl)
    | (with_reducible refine Eff.foldl ?_ (fun s x => ?_)))

theorem setMembers_eff (s : State) (l : List Nat) : Eff [.vectors, .trellis, .sessions, .queues] s (setMembers s l) := by
  unfold setMembers
  repeat' (first
    | (with_reducible exact Eff.refl _ _)
    | ((with_reducible show Eff _ _ (membershipEvents ..)); (with_reducible refine Eff.step ?_ (membershipEvents_eff ..) ?hc); case hc => rfl)
    | ((with_reducible show Eff _ _ (setTrellis ..)); (with_reducible refine Eff.step ?_ (setTrellis_eff ..) ?hc); case hc => rfl))

theorem endJoin_eff (s : State) (a : Answer) : Eff [.vectors, .side, .inject, .wire, .sessions, .queues, .outstanding, .conns] s (endJoin s a) := by
  unfold endJoin
  repeat' (first
    | (with_reducible exact Eff.refl _ _)
    | ((with_reducible show Eff _ _ (reply ..)); (with_reducible refine Eff.step ?_ (reply_eff ..) ?hc); case hc => rfl)
    | (with_reducible refine Eff.foldl ?_ (fun s x => ?_))
    | split)

theorem heartbeatIn_eff (s : State) (w : WraPacket) : Eff [.vectors, .side, .ports, .inject, .trellis, .wire, .sessions, .queues, .outstanding, .conns] s (heartbeatIn s w) := by
  unfold heartbeatIn
  repeat' (first
    | (with_reducible assumption)
    | (with_reducible exact Eff.refl _ _)
    | ((with_reducible show Eff _ _ (setPort ..)); (with_reducible refine Eff.step ?_ (setPort_eff_i _ _ _ (fun _ => by first | (with_reducible rfl) | ((try dsimp only); split <;> (with_reducible rfl)))) ?hc); case hc => rfl)
    | ((with_reducible show Eff _ _ (setPort ..)); (with_reducible refine Eff.step ?_ (setPort_eff_p _ _ _ (fun _ => by first | (with_reducible rfl) | ((try dsimp only); split <;> (with_reducible rfl)))) ?hc); case hc => rfl)
    | ((with_reducible show Eff _ _ (setPort ..)); (with_reducible refine Eff.step ?_ (setPort_eff _ _ _) ?hc); case hc => rfl)
    | ((with_reducible show Eff _ _ (setMembers ..)); (with_reducible refine Eff.step ?_ (setMembers_eff ..) ?hc); case hc => rfl)
    | ((with_reducible show Eff _ _ (setTrellis ..)); (with_reducible refine Eff.step ?_ (setTrellis_eff ..) ?hc); case hc => rfl)
    | ((with_reducible show Eff _ _ (endJoin ..)); (with_reducible refine Eff.step ?_ (endJoin_eff ..) ?hc); case hc => rfl)
    | ((with_reducible show Eff _ _ (emitRaw ..)); (with_reducible refine Eff.step ?_ (emitRaw_eff ..) ?hc); case hc => rfl)
    | (with_reducible refine Eff.mapGetD ?_ (fun k => ?_))
    | (with_reducible refine Eff.foldl ?_ (fun s x => ?_))
    | dsimp only
    | dsimp only [Option.getD_some, Option.getD_none]
    | split
    | simp only [List.length_map, length_mapIf, length_setAt])

theorem received_eff (s : State) (q : Framed) : Eff [.vectors, .side, .ports, .inject, .trellis, .wire, .sessions, .queues, .outstanding, .windows, .conns, .vintages] s (received s q) := by
  unfold received
  repeat' (first
    | (with_reducible assumption)
    | (with_reducible exact Eff.refl _ _)
    | ((with_reducible show Eff _ _ (heartbeatIn ..)); (with_reducible refine Eff.step ?_ (heartbeatIn_eff ..) ?hc); case hc => rfl)
    | ((with_reducible show Eff _ _ (processPacket ..)); (with_reducible refine Eff.step ?_ (processPacket_eff ..) ?hc); case hc => rfl)
    | (with_reducible refine Eff.mapGetD ?_ (fun k => ?_))
    | (with_reducible refine Eff.foldl ?_ (fun s x => ?_))
    | dsimp only
    | dsimp only [Option.getD_some, Option.getD_none]
    | split
    | simp only [List.length_map, length_mapIf, length_setAt])

theorem arrive_eff (op : Nat) (w : WraPacket) (s : State) : Eff [.clock, .vectors, .side, .ports, .inject, .trellis, .wire, .sessions, .queues, .outstanding, .windows, .conns, .vintages] s (arrive op w s) := by
  unfold arrive
  repeat' (first
    | (with_reducible assumption)
    | (with_reducible exact Eff.refl _ _)
    | ((with_reducible refine Eff.step ?_ (Eff.snd_of (by assumption) (injectPort_eff ..)) ?hc); case hc => rfl)
    | ((with_reducible refine Eff.step ?_ (injectPort_eff ..) ?hc); case hc => rfl)
    | ((with_reducible refine Eff.step ?_ (Eff.snd_of (by assumption) (injectAll_eff ..)) ?hc); case hc => rfl)
    | ((with_reducible refine Eff.step ?_ (injectAll_eff ..) ?hc); case hc => rfl)
    | ((with_reducible show Eff _ _ (received ..)); (with_reducible refine Eff.step ?_ (received_eff ..) ?hc); case hc => rfl)
    | (with_reducible refine Eff.mapGetD ?_ (fun k => ?_))
    | (with_reducible refine Eff.foldl ?_ (fun s x => ?_))
    | dsimp only
    | dsimp only [Option.getD_some, Option.getD_none]
    | split
    | (with_reducible apply Eff.of_rec (s := _))
    | (with_reducible exact .inl rfl)
    | (with_reducible rfl)
    | exact .inr rfl
    | (with_reducible exact .inl ⟨rfl, rfl, rfl, rfl⟩)
    | (with_reducible exact .inl (map_map_keep (fun _ => by first | rfl | ((try dsimp only); split <;> rfl))))
    | simp only [List.length_map, length_mapIf, length_setAt]
    | exact .inr ⟨rfl, by first | exact id | simp only [length_setAt, length_mapIf]⟩
    | exact .inr ⟨rfl, fun h => all_filter h⟩
    | exact .inr ⟨rfl, fun h => wf_set h _ _⟩
    | exact .inr ⟨rfl, fun h => wf_writeN h _ _⟩)

theorem execAccumulate_eff (w : WraPacket) (s : State) {t : State} (h : execAccumulate w s = .next t) : Eff [.clock, .vectors, .side, .ports, .inject, .trellis, .wire, .sessions, .queues, .outstanding, .windows, .conns, .vintages] s t := by
  unfold execAccumulate at h
  try dsimp only [bind, Except.bind, Except.map, pure, Except.pure, Option.map] at h
  repeat' (first
    | (replace h := ok_fst h; subst h)
    | (replace h := Host.Outcome.next.inj h; subst h))
  all_goals repeat' (first
    | (with_reducible exact Eff.refl _ _)
    | ((with_reducible show Eff _ _ (arrive ..)); (with_reducible refine Eff.step ?_ (arrive_eff ..) ?hc); case hc => rfl))

theorem execWrite_eff (w : WraPacket) (s : State) {t : State} (h : execWrite w s = .next t) : Eff [.clock, .vectors, .side, .ports, .inject, .trellis, .wire, .sessions, .queues, .outstanding, .windows, .conns, .vintages] s t := by
  unfold execWrite at h
  try dsimp only [bind, Except.bind, Except.map, pure, Except.pure, Option.map] at h
  repeat' (first
    | (replace h := ok_fst h; subst h)
    | (replace h := Host.Outcome.next.inj h; subst h))
  all_goals repeat' (first
    | (with_reducible exact Eff.refl _ _)
    | ((with_reducible show Eff _ _ (arrive ..)); (with_reducible refine Eff.step ?_ (arrive_eff ..) ?hc); case hc => rfl))

theorem execReadReq_eff (w : WraPacket) (s : State) {t : State} (h : execReadReq w s = .next t) : Eff [.clock, .vectors, .side, .ports, .inject, .trellis, .wire, .sessions, .queues, .outstanding, .windows, .conns, .vintages] s t := by
  unfold execReadReq at h
  try dsimp only [bind, Except.bind, Except.map, pure, Except.pure, Option.map] at h
  repeat' (first
    | (replace h := ok_fst h; subst h)
    | (replace h := Host.Outcome.next.inj h; subst h))
  all_goals repeat' (first
    | (with_reducible exact Eff.refl _ _)
    | ((with_reducible show Eff _ _ (arrive ..)); (with_reducible refine Eff.step ?_ (arrive_eff ..) ?hc); case hc => rfl))

theorem execReadResp_eff (w : WraPacket) (s : State) {t : State} (h : execReadResp w s = .next t) : Eff [.clock, .vectors, .side, .ports, .inject, .trellis, .wire, .sessions, .queues, .outstanding, .windows, .conns, .vintages] s t := by
  unfold execReadResp at h
  try dsimp only [bind, Except.bind, Except.map, pure, Except.pure, Option.map] at h
  repeat' (first
    | (replace h := ok_fst h; subst h)
    | (replace h := Host.Outcome.next.inj h; subst h))
  all_goals repeat' (first
    | (with_reducible exact Eff.refl _ _)
    | ((with_reducible show Eff _ _ (arrive ..)); (with_reducible refine Eff.step ?_ (arrive_eff ..) ?hc); case hc => rfl))

theorem execAtomic_eff (w : WraPacket) (s : State) {t : State} (h : execAtomic w s = .next t) : Eff [.clock, .vectors, .side, .ports, .inject, .trellis, .wire, .sessions, .queues, .outstanding, .windows, .conns, .vintages] s t := by
  unfold execAtomic at h
  try dsimp only [bind, Except.bind, Except.map, pure, Except.pure, Option.map] at h
  repeat' (first
    | (replace h := ok_fst h; subst h)
    | (replace h := Host.Outcome.next.inj h; subst h))
  all_goals repeat' (first
    | (with_reducible exact Eff.refl _ _)
    | ((with_reducible show Eff _ _ (arrive ..)); (with_reducible refine Eff.step ?_ (arrive_eff ..) ?hc); case hc => rfl))

theorem execAtomicResp_eff (w : WraPacket) (s : State) {t : State} (h : execAtomicResp w s = .next t) : Eff [.clock, .vectors, .side, .ports, .inject, .trellis, .wire, .sessions, .queues, .outstanding, .windows, .conns, .vintages] s t := by
  unfold execAtomicResp at h
  try dsimp only [bind, Except.bind, Except.map, pure, Except.pure, Option.map] at h
  repeat' (first
    | (replace h := ok_fst h; subst h)
    | (replace h := Host.Outcome.next.inj h; subst h))
  all_goals repeat' (first
    | (with_reducible exact Eff.refl _ _)
    | ((with_reducible show Eff _ _ (arrive ..)); (with_reducible refine Eff.step ?_ (arrive_eff ..) ?hc); case hc => rfl))

theorem execSend_eff (w : WraPacket) (s : State) {t : State} (h : execSend w s = .next t) : Eff [.clock, .vectors, .side, .ports, .inject, .trellis, .wire, .sessions, .queues, .outstanding, .windows, .conns, .vintages] s t := by
  unfold execSend at h
  try dsimp only [bind, Except.bind, Except.map, pure, Except.pure, Option.map] at h
  repeat' (first
    | (replace h := ok_fst h; subst h)
    | (replace h := Host.Outcome.next.inj h; subst h))
  all_goals repeat' (first
    | (with_reducible exact Eff.refl _ _)
    | ((with_reducible show Eff _ _ (arrive ..)); (with_reducible refine Eff.step ?_ (arrive_eff ..) ?hc); case hc => rfl))

theorem execAck_eff (w : WraPacket) (s : State) {t : State} (h : execAck w s = .next t) : Eff [.clock, .vectors, .side, .ports, .inject, .trellis, .wire, .sessions, .queues, .outstanding, .windows, .conns, .vintages] s t := by
  unfold execAck at h
  try dsimp only [bind, Except.bind, Except.map, pure, Except.pure, Option.map] at h
  repeat' (first
    | (replace h := ok_fst h; subst h)
    | (replace h := Host.Outcome.next.inj h; subst h))
  all_goals repeat' (first
    | (with_reducible exact Eff.refl _ _)
    | ((with_reducible show Eff _ _ (arrive ..)); (with_reducible refine Eff.step ?_ (arrive_eff ..) ?hc); case hc => rfl))

theorem execStatus_eff (w : WraPacket) (s : State) {t : State} (h : execStatus w s = .next t) : Eff [.clock, .vectors, .side, .ports, .inject, .trellis, .wire, .sessions, .queues, .outstanding, .windows, .conns, .vintages] s t := by
  unfold execStatus at h
  try dsimp only [bind, Except.bind, Except.map, pure, Except.pure, Option.map] at h
  repeat' (first
    | (replace h := ok_fst h; subst h)
    | (replace h := Host.Outcome.next.inj h; subst h))
  all_goals repeat' (first
    | (with_reducible exact Eff.refl _ _)
    | ((with_reducible show Eff _ _ (arrive ..)); (with_reducible refine Eff.step ?_ (arrive_eff ..) ?hc); case hc => rfl))

theorem execConnect_eff (w : WraPacket) (s : State) {t : State} (h : execConnect w s = .next t) : Eff [.clock, .vectors, .side, .ports, .inject, .trellis, .wire, .sessions, .queues, .outstanding, .windows, .conns, .vintages] s t := by
  unfold execConnect at h
  try dsimp only [bind, Except.bind, Except.map, pure, Except.pure, Option.map] at h
  repeat' (first
    | (replace h := ok_fst h; subst h)
    | (replace h := Host.Outcome.next.inj h; subst h))
  all_goals repeat' (first
    | (with_reducible exact Eff.refl _ _)
    | ((with_reducible show Eff _ _ (arrive ..)); (with_reducible refine Eff.step ?_ (arrive_eff ..) ?hc); case hc => rfl))

theorem execConnectAck_eff (w : WraPacket) (s : State) {t : State} (h : execConnectAck w s = .next t) : Eff [.clock, .vectors, .side, .ports, .inject, .trellis, .wire, .sessions, .queues, .outstanding, .windows, .conns, .vintages] s t := by
  unfold execConnectAck at h
  try dsimp only [bind, Except.bind, Except.map, pure, Except.pure, Option.map] at h
  repeat' (first
    | (replace h := ok_fst h; subst h)
    | (replace h := Host.Outcome.next.inj h; subst h))
  all_goals repeat' (first
    | (with_reducible exact Eff.refl _ _)
    | ((with_reducible show Eff _ _ (arrive ..)); (with_reducible refine Eff.step ?_ (arrive_eff ..) ?hc); case hc => rfl))

theorem execClose_eff (w : WraPacket) (s : State) {t : State} (h : execClose w s = .next t) : Eff [.clock, .vectors, .side, .ports, .inject, .trellis, .wire, .sessions, .queues, .outstanding, .windows, .conns, .vintages] s t := by
  unfold execClose at h
  try dsimp only [bind, Except.bind, Except.map, pure, Except.pure, Option.map] at h
  repeat' (first
    | (replace h := ok_fst h; subst h)
    | (replace h := Host.Outcome.next.inj h; subst h))
  all_goals repeat' (first
    | (with_reducible exact Eff.refl _ _)
    | ((with_reducible show Eff _ _ (arrive ..)); (with_reducible refine Eff.step ?_ (arrive_eff ..) ?hc); case hc => rfl))

theorem execPartialPkt_eff (w : WraPacket) (s : State) {t : State} (h : execPartialPkt w s = .next t) : Eff [.clock, .vectors, .side, .ports, .inject, .trellis, .wire, .sessions, .queues, .outstanding, .windows, .conns, .vintages] s t := by
  unfold execPartialPkt at h
  try dsimp only [bind, Except.bind, Except.map, pure, Except.pure, Option.map] at h
  repeat' (first
    | (replace h := ok_fst h; subst h)
    | (replace h := Host.Outcome.next.inj h; subst h))
  all_goals repeat' (first
    | (with_reducible exact Eff.refl _ _)
    | ((with_reducible show Eff _ _ (arrive ..)); (with_reducible refine Eff.step ?_ (arrive_eff ..) ?hc); case hc => rfl))

theorem execShard_eff (w : WraPacket) (s : State) {t : State} (h : execShard w s = .next t) : Eff [.clock, .vectors, .side, .ports, .inject, .trellis, .wire, .sessions, .queues, .outstanding, .windows, .conns, .vintages] s t := by
  unfold execShard at h
  try dsimp only [bind, Except.bind, Except.map, pure, Except.pure, Option.map] at h
  repeat' (first
    | (replace h := ok_fst h; subst h)
    | (replace h := Host.Outcome.next.inj h; subst h))
  all_goals repeat' (first
    | (with_reducible exact Eff.refl _ _)
    | ((with_reducible show Eff _ _ (arrive ..)); (with_reducible refine Eff.step ?_ (arrive_eff ..) ?hc); case hc => rfl))

theorem execAckGapTimer_eff (conn space : Nat) (s : State) {t : State} (h : execAckGapTimer conn space s = .next t) : Eff [.inject, .wire, .conns] s t := by
  unfold execAckGapTimer at h
  try dsimp only [bind, Except.bind, Except.map, pure, Except.pure, Option.map] at h
  repeat' (first
    | (split at h)
    | (replace h := Host.Outcome.next.inj h; subst h))
  all_goals repeat' (first
    | (with_reducible exact Eff.refl _ _)
    | ((with_reducible show Eff _ _ (sendAck ..)); (with_reducible refine Eff.step ?_ (sendAck_eff ..) ?hc); case hc => rfl)
    | ((with_reducible show Eff _ _ (setConn ..)); (with_reducible refine Eff.step ?_ (setConn_eff ..) ?hc); case hc => rfl))

theorem execAckIdleTimer_eff (conn space : Nat) (s : State) {t : State} (h : execAckIdleTimer conn space s = .next t) : Eff [.inject, .wire, .conns] s t := by
  unfold execAckIdleTimer at h
  try dsimp only [bind, Except.bind, Except.map, pure, Except.pure, Option.map] at h
  repeat' (first
    | (split at h)
    | (replace h := Host.Outcome.next.inj h; subst h))
  all_goals repeat' (first
    | (with_reducible exact Eff.refl _ _)
    | ((with_reducible show Eff _ _ (sendAck ..)); (with_reducible refine Eff.step ?_ (sendAck_eff ..) ?hc); case hc => rfl))

theorem execRetransmitTimeout_eff (conn space psn : Nat) (s : State) {t : State} (h : execRetransmitTimeout conn space psn s = .next t) : Eff [.inject, .wire, .conns] s t := by
  unfold execRetransmitTimeout at h
  try dsimp only [bind, Except.bind, Except.map, pure, Except.pure, Option.map] at h
  repeat' (first
    | (split at h)
    | (replace h := Host.Outcome.next.inj h; subst h))
  all_goals repeat' (first
    | (with_reducible exact Eff.refl _ _)
    | ((with_reducible show Eff _ _ (retransmit ..)); (with_reducible refine Eff.step ?_ (retransmit_eff ..) ?hc); case hc => rfl))

theorem shardLost_eff (s : State) (c : Conn) : Eff [.vectors, .inject, .wire, .sessions, .queues, .conns, .vintages] s (shardLost s c) := by
  unfold shardLost
  repeat' (first
    | (with_reducible exact Eff.refl _ _)
    | ((with_reducible show Eff _ _ (leadMismatch ..)); (with_reducible refine Eff.step ?_ (leadMismatch_eff ..) ?hc); case hc => rfl)
    | ((with_reducible show Eff _ _ (setVintage ..)); (with_reducible refine Eff.step ?_ (setVintage_eff ..) ?hc); case hc => rfl)
    | (with_reducible refine Eff.foldl ?_ (fun s x => ?_))
    | split)

theorem resultLost_eff (s : State) (c : Conn) : Eff [.vectors, .inject, .wire, .sessions, .queues, .conns, .vintages] s (resultLost s c) := by
  unfold resultLost
  repeat' (first
    | (with_reducible exact Eff.refl _ _)
    | ((with_reducible show Eff _ _ (leadMismatch ..)); (with_reducible refine Eff.step ?_ (leadMismatch_eff ..) ?hc); case hc => rfl)
    | (with_reducible refine Eff.foldl ?_ (fun s x => ?_))
    | split)

theorem giveUpSpent_eff (s : State) (c : Conn) : Eff [.vectors, .sessions, .queues, .conns] s (giveUpSpent s c) := by
  unfold giveUpSpent
  repeat' (first
    | (with_reducible assumption)
    | (with_reducible exact Eff.refl _ _)
    | ((with_reducible show Eff _ _ (failSome ..)); (with_reducible refine Eff.step ?_ (failSome_eff ..) ?hc); case hc => rfl)
    | ((with_reducible show Eff _ _ (undelivered ..)); (with_reducible refine Eff.step ?_ (undelivered_eff ..) ?hc); case hc => rfl)
    | ((with_reducible show Eff _ _ (setConn ..)); (with_reducible refine Eff.step ?_ (setConn_eff ..) ?hc); case hc => rfl)
    | (with_reducible refine Eff.mapGetD ?_ (fun k => ?_))
    | (with_reducible refine Eff.foldl ?_ (fun s x => ?_))
    | dsimp only
    | dsimp only [Option.getD_some, Option.getD_none]
    | split
    | simp only [List.length_map, length_mapIf, length_setAt])

theorem giveUp_eff (s : State) (c : Conn) : Eff [.vectors, .inject, .wire, .sessions, .queues, .conns, .vintages] s (giveUp s c) := by
  unfold giveUp
  repeat' (first
    | (with_reducible assumption)
    | (with_reducible exact Eff.refl _ _)
    | ((with_reducible show Eff _ _ (connEvent ..)); (with_reducible refine Eff.step ?_ (connEvent_eff ..) ?hc); case hc => rfl)
    | ((with_reducible show Eff _ _ (undeliverAll ..)); (with_reducible refine Eff.step ?_ (undeliverAll_eff ..) ?hc); case hc => rfl)
    | ((with_reducible show Eff _ _ (failRequests ..)); (with_reducible refine Eff.step ?_ (failRequests_eff ..) ?hc); case hc => rfl)
    | ((with_reducible show Eff _ _ (setConn ..)); (with_reducible refine Eff.step ?_ (setConn_eff ..) ?hc); case hc => rfl)
    | ((with_reducible show Eff _ _ (retryFetches ..)); (with_reducible refine Eff.step ?_ (retryFetches_eff ..) ?hc); case hc => rfl)
    | ((with_reducible show Eff _ _ (giveUpSpent ..)); (with_reducible refine Eff.step ?_ (giveUpSpent_eff ..) ?hc); case hc => rfl)
    | ((with_reducible show Eff _ _ (resultLost ..)); (with_reducible refine Eff.step ?_ (resultLost_eff ..) ?hc); case hc => rfl)
    | ((with_reducible show Eff _ _ (shardLost ..)); (with_reducible refine Eff.step ?_ (shardLost_eff ..) ?hc); case hc => rfl)
    | (with_reducible refine Eff.mapGetD ?_ (fun k => ?_))
    | (with_reducible refine Eff.foldl ?_ (fun s x => ?_))
    | dsimp only
    | dsimp only [Option.getD_some, Option.getD_none]
    | split
    | simp only [List.length_map, length_mapIf, length_setAt])

theorem execAttemptLimit_eff (conn : Nat) (s : State) {t : State} (h : execAttemptLimit conn s = .next t) : Eff [.vectors, .inject, .wire, .sessions, .queues, .conns, .vintages] s t := by
  unfold execAttemptLimit at h
  repeat' (first
    | (split at h)
    | (replace h := Host.Outcome.next.inj h; subst h))
  all_goals repeat' (first
    | (with_reducible exact Eff.refl _ _)
    | ((with_reducible show Eff _ _ (giveUp ..)); (with_reducible refine Eff.step ?_ (giveUp_eff ..) ?hc); case hc => rfl))

theorem execSealCounterExhausted_eff (conn : Nat) (s : State) {t : State} (h : execSealCounterExhausted conn s = .next t) : Eff [.vectors, .inject, .wire, .sessions, .queues, .conns, .vintages] s t := by
  unfold execSealCounterExhausted at h
  repeat' (first
    | (split at h)
    | (replace h := Host.Outcome.next.inj h; subst h))
  all_goals repeat' (first
    | (with_reducible exact Eff.refl _ _)
    | ((with_reducible show Eff _ _ (giveUp ..)); (with_reducible refine Eff.step ?_ (giveUp_eff ..) ?hc); case hc => rfl))

theorem execPathHoldExpire_eff (conn path : Nat) (s : State) {t : State} (h : execPathHoldExpire conn path s = .next t) : Eff [.vectors, .inject, .wire, .sessions, .conns] s t := by
  unfold execPathHoldExpire at h
  try dsimp only [bind, Except.bind, Except.map, pure, Except.pure, Option.map] at h
  repeat' (first
    | (split at h)
    | (replace h := ok_fst h; subst h)
    | (replace h := Except.ok.inj h; subst h)
    | (replace h := Host.Outcome.next.inj h; subst h)
    | (replace h := Option.some.inj h; subst h)
    | cases h
    | (dsimp only at h))
  all_goals repeat' (first
    | (with_reducible assumption)
    | (with_reducible exact Eff.refl _ _)
    | ((with_reducible show Eff _ _ (pump ..)); (with_reducible refine Eff.step ?_ (pump_eff ..) ?hc); case hc => rfl)
    | ((with_reducible show Eff _ _ (setConn ..)); (with_reducible refine Eff.step ?_ (setConn_eff ..) ?hc); case hc => rfl)
    | (with_reducible refine Eff.mapGetD ?_ (fun k => ?_))
    | (with_reducible refine Eff.foldl ?_ (fun s x => ?_))
    | dsimp only
    | dsimp only [Option.getD_some, Option.getD_none]
    | split
    | simp only [List.length_map, length_mapIf, length_setAt])

theorem execRateIncreaseTick_eff (conn : Nat) (s : State) {t : State} (h : execRateIncreaseTick conn s = .next t) : Eff [.conns] s t := by
  unfold execRateIncreaseTick at h
  repeat' (first
    | (replace h := Host.Outcome.next.inj h; subst h))
  all_goals repeat' (first
    | (with_reducible exact Eff.refl _ _)
    | ((with_reducible show Eff _ _ (setConn ..)); (with_reducible refine Eff.step ?_ (setConn_eff ..) ?hc); case hc => rfl))

theorem unparkPacket_eff (cid : Nat) (s : State) (p : Parked) : Eff [.vectors, .side, .ports, .inject, .wire, .sessions, .queues, .outstanding, .windows, .conns, .vintages] s (unparkPacket cid s p) := by
  unfold unparkPacket
  split
  · split
    · exact controlPacket_eff ..
    · exact Eff.refl _ _
  · exact (sequencePacket_eff ..).weaken rfl

theorem failFetch_eff (s : State) (c : Conn) : Eff [.wire, .conns] s (failFetch s c) := by
  unfold failFetch
  repeat' (first
    | (with_reducible assumption)
    | (with_reducible exact Eff.refl _ _)
    | ((with_reducible show Eff _ _ (setConn ..)); (with_reducible refine Eff.step ?_ (setConn_eff ..) ?hc); case hc => rfl)
    | (with_reducible refine Eff.mapGetD ?_ (fun k => ?_))
    | (with_reducible refine Eff.foldl ?_ (fun s x => ?_))
    | dsimp only
    | dsimp only [Option.getD_some, Option.getD_none]
    | split
    | (with_reducible apply Eff.of_rec (s := _))
    | (with_reducible exact .inl rfl)
    | (with_reducible rfl)
    | exact .inr rfl
    | (with_reducible exact .inl ⟨rfl, rfl, rfl, rfl⟩)
    | (with_reducible exact .inl (map_map_keep (fun _ => by first | rfl | ((try dsimp only); split <;> rfl))))
    | simp only [List.length_map, length_mapIf, length_setAt]
    | exact .inr ⟨rfl, by first | exact id | simp only [length_setAt, length_mapIf]⟩
    | exact .inr ⟨rfl, fun h => all_filter h⟩
    | exact .inr ⟨rfl, fun h => wf_set h _ _⟩
    | exact .inr ⟨rfl, fun h => wf_writeN h _ _⟩)

theorem readContext_eff (s : State) (c : Conn) {t : State} (h : readContext s c = .ok t) : Eff [.sessions] s t := by
  unfold readContext at h
  try dsimp only [bind, Except.bind, Except.map, pure, Except.pure, Option.map] at h
  repeat' (first
    | (split at h)
    | (replace h := ok_fst h; subst h)
    | (replace h := Except.ok.inj h; subst h)
    | (replace h := Host.Outcome.next.inj h; subst h)
    | (replace h := Option.some.inj h; subst h)
    | cases h
    | (dsimp only at h))
  all_goals repeat' (first
    | (with_reducible assumption)
    | (with_reducible exact Eff.refl _ _)
    | ((with_reducible refine Eff.step ?_ (cuffOpen_eff (h := by assumption) ..) ?hc); case hc => rfl)
    | (with_reducible refine Eff.mapGetD ?_ (fun k => ?_))
    | (with_reducible refine Eff.foldl ?_ (fun s x => ?_))
    | dsimp only
    | dsimp only [Option.getD_some, Option.getD_none]
    | split
    | simp only [List.length_map, length_mapIf, length_setAt])

theorem execContextFetchDone_eff (conn : Nat) (s : State) {t : State} (h : execContextFetchDone conn s = .next t) : Eff [.vectors, .side, .ports, .inject, .wire, .gloves, .sessions, .queues, .outstanding, .windows, .conns, .casks, .vintages] s t := by
  unfold execContextFetchDone at h
  try dsimp only [bind, Except.bind, Except.map, pure, Except.pure, Option.map] at h
  repeat' (first
    | (split at h)
    | (replace h := ok_fst h; subst h)
    | (replace h := Except.ok.inj h; subst h)
    | (replace h := Host.Outcome.next.inj h; subst h)
    | (replace h := Option.some.inj h; subst h)
    | cases h
    | (dsimp only at h))
  all_goals repeat' (first
    | (with_reducible assumption)
    | (with_reducible exact Eff.refl _ _)
    | ((with_reducible refine Eff.step ?_ (readContext_eff (h := by assumption) ..) ?hc); case hc => rfl)
    | ((with_reducible show Eff _ _ (failFetch ..)); (with_reducible refine Eff.step ?_ (failFetch_eff ..) ?hc); case hc => rfl)
    | ((with_reducible refine Eff.step ?_ (dmaReport_eff ..) ?hc); case hc => rfl)
    | ((with_reducible show Eff _ _ (setConn ..)); (with_reducible refine Eff.step ?_ (setConn_eff ..) ?hc); case hc => rfl)
    | ((with_reducible show Eff _ _ (unparkPacket ..)); (with_reducible refine Eff.step ?_ (unparkPacket_eff ..) ?hc); case hc => rfl)
    | ((with_reducible show Eff _ _ (touchConn ..)); (with_reducible refine Eff.step ?_ (touchConn_eff ..) ?hc); case hc => rfl)
    | ((with_reducible show Eff _ _ (settleEnds ..)); (with_reducible refine Eff.step ?_ (settleEnds_eff ..) ?hc); case hc => rfl)
    | ((with_reducible show Eff _ _ (settleRevokes ..)); (with_reducible refine Eff.step ?_ (settleRevokes_eff ..) ?hc); case hc => rfl)
    | ((with_reducible show Eff _ _ (retryFetches ..)); (with_reducible refine Eff.step ?_ (retryFetches_eff ..) ?hc); case hc => rfl)
    | ((with_reducible show Eff _ _ (pump ..)); (with_reducible refine Eff.step ?_ (pump_eff ..) ?hc); case hc => rfl)
    | (with_reducible refine Eff.mapGetD ?_ (fun k => ?_))
    | (with_reducible refine Eff.foldl ?_ (fun s x => ?_))
    | dsimp only
    | dsimp only [Option.getD_some, Option.getD_none]
    | split
    | simp only [List.length_map, length_mapIf, length_setAt])

/-! ### Machine/Regs.lean -/

theorem readReg_eff {b : List Part} {s after : State} {value : Nat} (h : Eff b s after)
    (hb : [Part.hostPort].all b.contains = true) : Eff b s (readReg s value after) := by
  have port : ∀ (u : State) (v : Word32), Eff [.hostPort] u { u with host := { u.host with lastRead := v } } := fun u v => by
    apply Eff.of_rec (s := u) (Eff.refl _ _)
    all_goals first | (with_reducible exact .inl rfl) | (with_reducible rfl) | (with_reducible exact .inl ⟨rfl, rfl, rfl, rfl⟩) | exact .inr rfl
  unfold readReg
  split
  · exact Eff.step (a := [.hostPort]) h (port _ _) hb
  split
  · exact (port _ _).weaken hb
  · exact Eff.refl _ _

theorem execPhsCountLoRead_eff (fn glove : Nat) (s : State) {t : State} (h : execPhsCountLoRead fn glove s = .next t) : Eff [.hostPort, .gloves] s t := by
  unfold execPhsCountLoRead at h
  repeat' (first
    | (split at h)
    | (replace h := ok_fst h; subst h)
    | (replace h := Except.ok.inj h; subst h)
    | (replace h := Host.Outcome.next.inj h; subst h))
  all_goals repeat' (first
    | (with_reducible exact Eff.refl _ _)
    | ((with_reducible refine readReg_eff ?_ ?hc); case hc => rfl)
    | ((with_reducible show Eff _ _ (setGlove ..)); (with_reducible refine Eff.step ?_ (setGlove_eff_g _ _ _ (fun _ => by first | (with_reducible rfl) | ((try dsimp only); split <;> (with_reducible rfl)))) ?hc); case hc => rfl))

theorem execCalMsLoRead_eff (s : State) {t : State} (h : execCalMsLoRead s = .next t) : Eff [.cal, .hostPort] s t := by
  unfold execCalMsLoRead at h
  repeat' (first
    | (split at h)
    | (replace h := ok_fst h; subst h)
    | (replace h := Host.Outcome.next.inj h; subst h)
    | (replace h := Option.some.inj h; subst h))
  all_goals repeat' (first
    | (with_reducible exact Eff.refl _ _)
    | ((with_reducible refine readReg_eff ?_ ?hc); case hc => rfl)
    | dsimp only
    | (with_reducible apply Eff.of_rec (s := _))
    | (with_reducible exact .inl rfl)
    | exact .inr rfl
    | (with_reducible exact .inl ⟨rfl, rfl, rfl, rfl⟩))

theorem execEntBlocksLoRead_eff (s : State) {t : State} (h : execEntBlocksLoRead s = .next t) : Eff [.hostPort, .ent] s t := by
  unfold execEntBlocksLoRead at h
  repeat' (first
    | (split at h)
    | (replace h := ok_fst h; subst h)
    | (replace h := Host.Outcome.next.inj h; subst h)
    | (replace h := Option.some.inj h; subst h))
  all_goals repeat' (first
    | (with_reducible exact Eff.refl _ _)
    | ((with_reducible refine readReg_eff ?_ ?hc); case hc => rfl)
    | dsimp only
    | (with_reducible apply Eff.of_rec (s := _))
    | (with_reducible exact .inl rfl)
    | (with_reducible exact .inl ⟨rfl, rfl, rfl, rfl⟩)
    | exact .inr ⟨rfl, by first | exact id | simp only [length_setAt, length_mapIf]⟩)

theorem execIntTastedLoRead_eff (s : State) {t : State} (h : execIntTastedLoRead s = .next t) : Eff [.hostPort, .int] s t := by
  unfold execIntTastedLoRead at h
  repeat' (first
    | (split at h)
    | (replace h := ok_fst h; subst h)
    | (replace h := Host.Outcome.next.inj h; subst h)
    | (replace h := Option.some.inj h; subst h))
  all_goals repeat' (first
    | (with_reducible exact Eff.refl _ _)
    | ((with_reducible refine readReg_eff ?_ ?hc); case hc => rfl)
    | dsimp only
    | (with_reducible apply Eff.of_rec (s := _))
    | (with_reducible exact .inl rfl)
    | (with_reducible exact .inl ⟨rfl, rfl, rfl, rfl⟩)
    | exact .inr ⟨rfl, by first | exact id | simp only [length_setAt, length_mapIf]⟩)

theorem execGblCmStatusRead_eff (s : State) {t : State} (h : execGblCmStatusRead s = .next t) : Eff [.cm, .hostPort] s t := by
  unfold execGblCmStatusRead at h
  repeat' (first
    | (split at h)
    | (replace h := ok_fst h; subst h)
    | (replace h := Host.Outcome.next.inj h; subst h)
    | (replace h := Option.some.inj h; subst h))
  all_goals repeat' (first
    | (with_reducible exact Eff.refl _ _)
    | ((with_reducible refine readReg_eff ?_ ?hc); case hc => rfl)
    | dsimp only
    | (with_reducible apply Eff.of_rec (s := _))
    | (with_reducible exact .inl rfl)
    | exact .inr rfl
    | (with_reducible exact .inl ⟨rfl, rfl, rfl, rfl⟩))

theorem execPhsRefusedRead_eff (fn glove : Nat) (s : State) {t : State} (h : execPhsRefusedRead fn glove s = .next t) : Eff [.hostPort, .gloves] s t := by
  unfold execPhsRefusedRead at h
  repeat' (first
    | (split at h)
    | (replace h := ok_fst h; subst h)
    | (replace h := Except.ok.inj h; subst h)
    | (replace h := Host.Outcome.next.inj h; subst h))
  all_goals repeat' (first
    | (with_reducible exact Eff.refl _ _)
    | ((with_reducible refine readReg_eff ?_ ?hc); case hc => rfl)
    | ((with_reducible show Eff _ _ (setGlove ..)); (with_reducible refine Eff.step ?_ (setGlove_eff_g _ _ _ (fun _ => by first | (with_reducible rfl) | ((try dsimp only); split <;> (with_reducible rfl)))) ?hc); case hc => rfl))

theorem execPrtRxDropRead_eff (port : Nat) (s : State) {t : State} (h : execPrtRxDropRead port s = .next t) : Eff [.hostPort, .ports] s t := by
  unfold execPrtRxDropRead at h
  repeat' (first
    | (split at h)
    | (replace h := ok_fst h; subst h)
    | (replace h := Except.ok.inj h; subst h)
    | (replace h := Host.Outcome.next.inj h; subst h))
  all_goals repeat' (first
    | (with_reducible exact Eff.refl _ _)
    | ((with_reducible refine readReg_eff ?_ ?hc); case hc => rfl)
    | ((with_reducible show Eff _ _ (setPort ..)); (with_reducible refine Eff.step ?_ (setPort_eff_p _ _ _ (fun _ => by first | (with_reducible rfl) | ((try dsimp only); split <;> (with_reducible rfl)))) ?hc); case hc => rfl))

theorem execPrtNaksRead_eff (port : Nat) (s : State) {t : State} (h : execPrtNaksRead port s = .next t) : Eff [.hostPort, .ports] s t := by
  unfold execPrtNaksRead at h
  repeat' (first
    | (split at h)
    | (replace h := ok_fst h; subst h)
    | (replace h := Except.ok.inj h; subst h)
    | (replace h := Host.Outcome.next.inj h; subst h))
  all_goals repeat' (first
    | (with_reducible exact Eff.refl _ _)
    | ((with_reducible refine readReg_eff ?_ ?hc); case hc => rfl)
    | ((with_reducible show Eff _ _ (setPort ..)); (with_reducible refine Eff.step ?_ (setPort_eff_p _ _ _ (fun _ => by first | (with_reducible rfl) | ((try dsimp only); split <;> (with_reducible rfl)))) ?hc); case hc => rfl))

theorem execPrtMissDropRead_eff (s : State) {t : State} (h : execPrtMissDropRead s = .next t) : Eff [.hostPort, .wire] s t := by
  unfold execPrtMissDropRead at h
  repeat' (first
    | (split at h)
    | (replace h := ok_fst h; subst h)
    | (replace h := Host.Outcome.next.inj h; subst h)
    | (replace h := Option.some.inj h; subst h))
  all_goals repeat' (first
    | (with_reducible exact Eff.refl _ _)
    | ((with_reducible refine readReg_eff ?_ ?hc); case hc => rfl)
    | dsimp only
    | (with_reducible apply Eff.of_rec (s := _))
    | (with_reducible exact .inl rfl)
    | exact .inr rfl
    | (with_reducible exact .inl ⟨rfl, rfl, rfl, rfl⟩))

theorem execFijCountRead_eff (port : Nat) (s : State) {t : State} (h : execFijCountRead port s = .next t) : Eff [.hostPort, .inject] s t := by
  unfold execFijCountRead at h
  repeat' (first
    | (split at h)
    | (replace h := Host.Outcome.next.inj h; subst h)
    | (replace h := Option.some.inj h; subst h)
    | (dsimp only at h))
  all_goals repeat' (first
    | (with_reducible assumption)
    | (with_reducible exact Eff.refl _ _)
    | ((with_reducible refine readReg_eff ?_ ?hc); case hc => rfl)
    | ((with_reducible show Eff _ _ (setPort ..)); (with_reducible refine Eff.step ?_ (setPort_eff_i _ _ _ (fun _ => by first | (with_reducible rfl) | ((try dsimp only); split <;> (with_reducible rfl)))) ?hc); case hc => rfl)
    | ((with_reducible show Eff _ _ (setPort ..)); (with_reducible refine Eff.step ?_ (setPort_eff_p _ _ _ (fun _ => by first | (with_reducible rfl) | ((try dsimp only); split <;> (with_reducible rfl)))) ?hc); case hc => rfl)
    | ((with_reducible show Eff _ _ (setPort ..)); (with_reducible refine Eff.step ?_ (setPort_eff _ _ _) ?hc); case hc => rfl))

theorem execEntDiscardRead_eff (s : State) {t : State} (h : execEntDiscardRead s = .next t) : Eff [.hostPort, .ent] s t := by
  unfold execEntDiscardRead at h
  try dsimp only [bind, Except.bind, Except.map, pure, Except.pure, Option.map] at h
  repeat' (first
    | (split at h)
    | (replace h := Option.some.inj h; subst h)
    | cases h
    | (dsimp only at h))
  all_goals repeat' (first
    | (with_reducible assumption)
    | (with_reducible exact Eff.refl _ _)
    | ((with_reducible refine readReg_eff ?_ ?hc); case hc => rfl)
    | (with_reducible refine Eff.mapGetD ?_ (fun k => ?_))
    | (with_reducible refine Eff.foldl ?_ (fun s x => ?_))
    | split
    | (with_reducible apply Eff.of_rec (s := _))
    | (with_reducible exact .inl rfl)
    | (with_reducible rfl)
    | exact .inr rfl
    | (with_reducible exact .inl ⟨rfl, rfl, rfl, rfl⟩)
    | (with_reducible exact .inl (map_map_keep (fun _ => by first | rfl | ((try dsimp only); split <;> rfl))))
    | simp only [List.length_map, length_mapIf, length_setAt]
    | exact .inr ⟨rfl, by first | exact id | simp only [length_setAt, length_mapIf]⟩
    | exact .inr ⟨rfl, fun h => all_filter h⟩
    | exact .inr ⟨rfl, fun h => wf_set h _ _⟩
    | exact .inr ⟨rfl, fun h => wf_writeN h _ _⟩)

theorem execEntUnusedRead_eff (s : State) {t : State} (h : execEntUnusedRead s = .next t) : Eff [.hostPort, .ent] s t := by
  unfold execEntUnusedRead at h
  try dsimp only [bind, Except.bind, Except.map, pure, Except.pure, Option.map] at h
  repeat' (first
    | (split at h)
    | (replace h := Option.some.inj h; subst h)
    | cases h
    | (dsimp only at h))
  all_goals repeat' (first
    | (with_reducible assumption)
    | (with_reducible exact Eff.refl _ _)
    | ((with_reducible refine readReg_eff ?_ ?hc); case hc => rfl)
    | (with_reducible refine Eff.mapGetD ?_ (fun k => ?_))
    | (with_reducible refine Eff.foldl ?_ (fun s x => ?_))
    | split
    | (with_reducible apply Eff.of_rec (s := _))
    | (with_reducible exact .inl rfl)
    | (with_reducible rfl)
    | exact .inr rfl
    | (with_reducible exact .inl ⟨rfl, rfl, rfl, rfl⟩)
    | (with_reducible exact .inl (map_map_keep (fun _ => by first | rfl | ((try dsimp only); split <;> rfl))))
    | simp only [List.length_map, length_mapIf, length_setAt]
    | exact .inr ⟨rfl, by first | exact id | simp only [length_setAt, length_mapIf]⟩
    | exact .inr ⟨rfl, fun h => all_filter h⟩
    | exact .inr ⟨rfl, fun h => wf_set h _ _⟩
    | exact .inr ⟨rfl, fun h => wf_writeN h _ _⟩)

theorem execKeyRemaskLateRead_eff (s : State) {t : State} (h : execKeyRemaskLateRead s = .next t) : Eff [.hostPort, .keySlots] s t := by
  unfold execKeyRemaskLateRead at h
  try dsimp only [bind, Except.bind, Except.map, pure, Except.pure, Option.map] at h
  repeat' (first
    | (split at h)
    | (replace h := Option.some.inj h; subst h)
    | cases h
    | (dsimp only at h))
  all_goals repeat' (first
    | (with_reducible assumption)
    | (with_reducible exact Eff.refl _ _)
    | ((with_reducible refine readReg_eff ?_ ?hc); case hc => rfl)
    | (with_reducible refine Eff.mapGetD ?_ (fun k => ?_))
    | (with_reducible refine Eff.foldl ?_ (fun s x => ?_))
    | split
    | (with_reducible apply Eff.of_rec (s := _))
    | (with_reducible exact .inl rfl)
    | (with_reducible rfl)
    | exact .inr rfl
    | (with_reducible exact .inl ⟨rfl, rfl, rfl, rfl⟩)
    | (with_reducible exact .inl (map_map_keep (fun _ => by first | rfl | ((try dsimp only); split <;> rfl))))
    | simp only [List.length_map, length_mapIf, length_setAt]
    | exact .inr ⟨rfl, by first | exact id | simp only [length_setAt, length_mapIf]⟩
    | exact .inr ⟨rfl, fun h => all_filter h⟩
    | exact .inr ⟨rfl, fun h => wf_set h _ _⟩
    | exact .inr ⟨rfl, fun h => wf_writeN h _ _⟩)

theorem execIntMismatchRead_eff (s : State) {t : State} (h : execIntMismatchRead s = .next t) : Eff [.hostPort, .int] s t := by
  unfold execIntMismatchRead at h
  try dsimp only [bind, Except.bind, Except.map, pure, Except.pure, Option.map] at h
  repeat' (first
    | (split at h)
    | (replace h := Option.some.inj h; subst h)
    | cases h
    | (dsimp only at h))
  all_goals repeat' (first
    | (with_reducible assumption)
    | (with_reducible exact Eff.refl _ _)
    | ((with_reducible refine readReg_eff ?_ ?hc); case hc => rfl)
    | (with_reducible refine Eff.mapGetD ?_ (fun k => ?_))
    | (with_reducible refine Eff.foldl ?_ (fun s x => ?_))
    | split
    | (with_reducible apply Eff.of_rec (s := _))
    | (with_reducible exact .inl rfl)
    | (with_reducible rfl)
    | exact .inr rfl
    | (with_reducible exact .inl ⟨rfl, rfl, rfl, rfl⟩)
    | (with_reducible exact .inl (map_map_keep (fun _ => by first | rfl | ((try dsimp only); split <;> rfl))))
    | simp only [List.length_map, length_mapIf, length_setAt]
    | exact .inr ⟨rfl, by first | exact id | simp only [length_setAt, length_mapIf]⟩
    | exact .inr ⟨rfl, fun h => all_filter h⟩
    | exact .inr ⟨rfl, fun h => wf_set h _ _⟩
    | exact .inr ⟨rfl, fun h => wf_writeN h _ _⟩)

theorem execTelPinPeakRead_eff (s : State) {t : State} (h : execTelPinPeakRead s = .next t) : Eff [.pwr, .hostPort] s t := by
  unfold execTelPinPeakRead at h
  try dsimp only [bind, Except.bind, Except.map, pure, Except.pure, Option.map] at h
  repeat' (first
    | (split at h)
    | (replace h := ok_fst h; subst h)
    | (replace h := Except.ok.inj h; subst h)
    | cases h
    | (dsimp only at h))
  all_goals repeat' (first
    | (with_reducible assumption)
    | (with_reducible exact Eff.refl _ _)
    | ((with_reducible refine readReg_eff ?_ ?hc); case hc => rfl)
    | ((with_reducible show Eff _ _ (setPwr ..)); (with_reducible refine Eff.step ?_ (setPwr_eff ..) ?hc); case hc => rfl)
    | (with_reducible refine Eff.mapGetD ?_ (fun k => ?_))
    | (with_reducible refine Eff.foldl ?_ (fun s x => ?_))
    | dsimp only
    | dsimp only [Option.getD_some, Option.getD_none]
    | split
    | simp only [List.length_map, length_mapIf, length_setAt])

theorem execTelThrCountRead_eff (s : State) {t : State} (h : execTelThrCountRead s = .next t) : Eff [.pwr, .hostPort] s t := by
  unfold execTelThrCountRead at h
  try dsimp only [bind, Except.bind, Except.map, pure, Except.pure, Option.map] at h
  repeat' (first
    | (split at h)
    | (replace h := ok_fst h; subst h)
    | (replace h := Except.ok.inj h; subst h)
    | cases h
    | (dsimp only at h))
  all_goals repeat' (first
    | (with_reducible assumption)
    | (with_reducible exact Eff.refl _ _)
    | ((with_reducible refine readReg_eff ?_ ?hc); case hc => rfl)
    | ((with_reducible show Eff _ _ (setPwr ..)); (with_reducible refine Eff.step ?_ (setPwr_eff ..) ?hc); case hc => rfl)
    | (with_reducible refine Eff.mapGetD ?_ (fun k => ?_))
    | (with_reducible refine Eff.foldl ?_ (fun s x => ?_))
    | dsimp only
    | dsimp only [Option.getD_some, Option.getD_none]
    | split
    | simp only [List.length_map, length_mapIf, length_setAt])

theorem execCalStatusWrite_eff (value : Word32) (s : State) {t : State} (h : execCalStatusWrite value s = .next t) : Eff [.cal] s t := by
  unfold execCalStatusWrite at h
  try dsimp only [bind, Except.bind, Except.map, pure, Except.pure, Option.map] at h
  repeat' (first
    | (replace h := Host.Outcome.next.inj h; subst h)
    | (replace h := Option.some.inj h; subst h)
    | cases h
    | (dsimp only at h))
  all_goals repeat' (first
    | (with_reducible assumption)
    | (with_reducible exact Eff.refl _ _)
    | (with_reducible refine Eff.mapGetD ?_ (fun k => ?_))
    | (with_reducible refine Eff.foldl ?_ (fun s x => ?_))
    | split
    | (with_reducible apply Eff.of_rec (s := _))
    | (with_reducible exact .inl rfl)
    | (with_reducible rfl)
    | exact .inr rfl
    | (with_reducible exact .inl ⟨rfl, rfl, rfl, rfl⟩)
    | (with_reducible exact .inl (map_map_keep (fun _ => by first | rfl | ((try dsimp only); split <;> rfl))))
    | simp only [List.length_map, length_mapIf, length_setAt]
    | exact .inr ⟨rfl, by first | exact id | simp only [length_setAt, length_mapIf]⟩
    | exact .inr ⟨rfl, fun h => all_filter h⟩
    | exact .inr ⟨rfl, fun h => wf_set h _ _⟩
    | exact .inr ⟨rfl, fun h => wf_writeN h _ _⟩)

theorem execKeyTamperWrite_eff (value : Word32) (s : State) {t : State} (h : execKeyTamperWrite value s = .next t) : Eff [.rootStore] s t := by
  unfold execKeyTamperWrite at h
  try dsimp only [bind, Except.bind, Except.map, pure, Except.pure, Option.map] at h
  repeat' (first
    | (replace h := Host.Outcome.next.inj h; subst h)
    | (replace h := Option.some.inj h; subst h)
    | cases h
    | (dsimp only at h))
  all_goals repeat' (first
    | (with_reducible assumption)
    | (with_reducible exact Eff.refl _ _)
    | (with_reducible refine Eff.mapGetD ?_ (fun k => ?_))
    | (with_reducible refine Eff.foldl ?_ (fun s x => ?_))
    | split
    | (with_reducible apply Eff.of_rec (s := _))
    | (with_reducible exact .inl rfl)
    | (with_reducible rfl)
    | exact .inr rfl
    | (with_reducible exact .inl ⟨rfl, rfl, rfl, rfl⟩)
    | (with_reducible exact .inl (map_map_keep (fun _ => by first | rfl | ((try dsimp only); split <;> rfl))))
    | simp only [List.length_map, length_mapIf, length_setAt]
    | exact .inr ⟨rfl, by first | exact id | simp only [length_setAt, length_mapIf]⟩
    | exact .inr ⟨rfl, fun h => all_filter h⟩
    | exact .inr ⟨rfl, fun h => wf_set h _ _⟩
    | exact .inr ⟨rfl, fun h => wf_writeN h _ _⟩)

theorem execCalTrimWrite_eff (value : Word32) (s : State) {t : State} (h : execCalTrimWrite value s = .next t) : Eff [.cal] s t := by
  unfold execCalTrimWrite at h
  try dsimp only [bind, Except.bind, Except.map, pure, Except.pure, Option.map] at h
  repeat' (first
    | (replace h := Host.Outcome.next.inj h; subst h)
    | (replace h := Option.some.inj h; subst h)
    | cases h
    | (dsimp only at h))
  all_goals repeat' (first
    | (with_reducible assumption)
    | (with_reducible exact Eff.refl _ _)
    | (with_reducible refine Eff.mapGetD ?_ (fun k => ?_))
    | (with_reducible refine Eff.foldl ?_ (fun s x => ?_))
    | split
    | (with_reducible apply Eff.of_rec (s := _))
    | (with_reducible exact .inl rfl)
    | (with_reducible rfl)
    | exact .inr rfl
    | (with_reducible exact .inl ⟨rfl, rfl, rfl, rfl⟩)
    | (with_reducible exact .inl (map_map_keep (fun _ => by first | rfl | ((try dsimp only); split <;> rfl))))
    | simp only [List.length_map, length_mapIf, length_setAt]
    | exact .inr ⟨rfl, by first | exact id | simp only [length_setAt, length_mapIf]⟩
    | exact .inr ⟨rfl, fun h => all_filter h⟩
    | exact .inr ⟨rfl, fun h => wf_set h _ _⟩
    | exact .inr ⟨rfl, fun h => wf_writeN h _ _⟩)

theorem execPrtCtrlWrite_eff (port : Nat) (value : Word32) (s : State) {t : State} (h : execPrtCtrlWrite port value s = .next t) : Eff [.ports] s t := by
  unfold execPrtCtrlWrite at h
  try dsimp only [bind, Except.bind, Except.map, pure, Except.pure, Option.map] at h
  repeat' (first
    | (split at h)
    | (replace h := ok_fst h; subst h)
    | (replace h := Except.ok.inj h; subst h)
    | (replace h := Host.Outcome.next.inj h; subst h)
    | (dsimp only at h))
  all_goals repeat' (first
    | (with_reducible assumption)
    | (with_reducible exact Eff.refl _ _)
    | ((with_reducible show Eff _ _ (setPort ..)); (with_reducible refine Eff.step ?_ (setPort_eff_i _ _ _ (fun _ => by first | (with_reducible rfl) | ((try dsimp only); split <;> (with_reducible rfl)))) ?hc); case hc => rfl)
    | ((with_reducible show Eff _ _ (setPort ..)); (with_reducible refine Eff.step ?_ (setPort_eff_p _ _ _ (fun _ => by first | (with_reducible rfl) | ((try dsimp only); split <;> (with_reducible rfl)))) ?hc); case hc => rfl)
    | ((with_reducible show Eff _ _ (setPort ..)); (with_reducible refine Eff.step ?_ (setPort_eff _ _ _) ?hc); case hc => rfl)
    | (with_reducible refine Eff.mapGetD ?_ (fun k => ?_))
    | (with_reducible refine Eff.foldl ?_ (fun s x => ?_))
    | dsimp only
    | dsimp only [Option.getD_some, Option.getD_none]
    | split
    | simp only [List.length_map, length_mapIf, length_setAt])

theorem setPortInject_eff (s : State) (port : Nat) (f : Inject → Inject) : Eff [.inject] s (setPortInject s port f) := by
  unfold setPortInject
  repeat' (first
    | (with_reducible assumption)
    | (with_reducible exact Eff.refl _ _)
    | ((with_reducible show Eff _ _ (setPort ..)); (with_reducible refine Eff.step ?_ (setPort_eff_i _ _ _ (fun _ => by first | (with_reducible rfl) | ((try dsimp only); split <;> (with_reducible rfl)))) ?hc); case hc => rfl)
    | ((with_reducible show Eff _ _ (setPort ..)); (with_reducible refine Eff.step ?_ (setPort_eff_p _ _ _ (fun _ => by first | (with_reducible rfl) | ((try dsimp only); split <;> (with_reducible rfl)))) ?hc); case hc => rfl)
    | ((with_reducible show Eff _ _ (setPort ..)); (with_reducible refine Eff.step ?_ (setPort_eff _ _ _) ?hc); case hc => rfl)
    | (with_reducible refine Eff.mapGetD ?_ (fun k => ?_))
    | (with_reducible refine Eff.foldl ?_ (fun s x => ?_))
    | split
    | (with_reducible apply Eff.of_rec (s := _))
    | (with_reducible exact .inl rfl)
    | (with_reducible rfl)
    | exact .inr rfl
    | (with_reducible exact .inl ⟨rfl, rfl, rfl, rfl⟩)
    | (with_reducible exact .inl (map_map_keep (fun _ => by first | rfl | ((try dsimp only); split <;> rfl))))
    | simp only [List.length_map, length_mapIf, length_setAt]
    | exact .inr ⟨rfl, by first | exact id | simp only [length_setAt, length_mapIf]⟩
    | exact .inr ⟨rfl, fun h => all_filter h⟩
    | exact .inr ⟨rfl, fun h => wf_set h _ _⟩
    | exact .inr ⟨rfl, fun h => wf_writeN h _ _⟩)

theorem execFijCtrlWrite_eff (port : Nat) (value : Word32) (s : State) {t : State} (h : execFijCtrlWrite port value s = .next t) : Eff [.inject] s t := by
  unfold execFijCtrlWrite at h
  try dsimp only [bind, Except.bind, Except.map, pure, Except.pure, Option.map] at h
  repeat' (first
    | (split at h)
    | (replace h := ok_fst h; subst h)
    | (replace h := Option.some.inj h; subst h)
    | cases h
    | (dsimp only at h))
  all_goals repeat' (first
    | (with_reducible assumption)
    | (with_reducible exact Eff.refl _ _)
    | ((with_reducible show Eff _ _ (setPortInject ..)); (with_reducible refine Eff.step ?_ (setPortInject_eff ..) ?hc); case hc => rfl)
    | (with_reducible refine Eff.mapGetD ?_ (fun k => ?_))
    | (with_reducible refine Eff.foldl ?_ (fun s x => ?_))
    | dsimp only
    | dsimp only [Option.getD_some, Option.getD_none]
    | split
    | simp only [List.length_map, length_mapIf, length_setAt])

theorem execRegisterWrite_eff (offset : Nat) (value : Word32) (s : State) {t : State} (h : execRegisterWrite offset value s = .next t) : Eff [.ports, .inject, .wire] s t := by
  unfold execRegisterWrite at h
  try dsimp only [bind, Except.bind, Except.map, pure, Except.pure, Option.map] at h
  repeat' (first
    | (split at h)
    | (replace h := Except.ok.inj h; subst h)
    | (replace h := Host.Outcome.next.inj h; subst h))
  all_goals repeat' (first
    | (with_reducible assumption)
    | (with_reducible exact Eff.refl _ _)
    | ((with_reducible show Eff _ _ (setPort ..)); (with_reducible refine Eff.step ?_ (setPort_eff_i _ _ _ (fun _ => by first | (with_reducible rfl) | ((try dsimp only); split <;> (with_reducible rfl)))) ?hc); case hc => rfl)
    | ((with_reducible show Eff _ _ (setPort ..)); (with_reducible refine Eff.step ?_ (setPort_eff_p _ _ _ (fun _ => by first | (with_reducible rfl) | ((try dsimp only); split <;> (with_reducible rfl)))) ?hc); case hc => rfl)
    | ((with_reducible show Eff _ _ (setPort ..)); (with_reducible refine Eff.step ?_ (setPort_eff _ _ _) ?hc); case hc => rfl)
    | ((with_reducible show Eff _ _ (setPortInject ..)); (with_reducible refine Eff.step ?_ (setPortInject_eff ..) ?hc); case hc => rfl)
    | (with_reducible refine Eff.mapGetD ?_ (fun k => ?_))
    | (with_reducible refine Eff.foldl ?_ (fun s x => ?_))
    | split
    | (with_reducible apply Eff.of_rec (s := _))
    | (with_reducible exact .inl rfl)
    | (with_reducible rfl)
    | exact .inr rfl
    | (with_reducible exact .inl ⟨rfl, rfl, rfl, rfl⟩)
    | (with_reducible exact .inl (map_map_keep (fun _ => by first | rfl | ((try dsimp only); split <;> rfl))))
    | simp only [List.length_map, length_mapIf, length_setAt]
    | exact .inr ⟨rfl, by first | exact id | simp only [length_setAt, length_mapIf]⟩
    | exact .inr ⟨rfl, fun h => all_filter h⟩
    | exact .inr ⟨rfl, fun h => wf_set h _ _⟩
    | exact .inr ⟨rfl, fun h => wf_writeN h _ _⟩)

theorem execConfigurationSeal_eff (s : State) {t : State} (h : execConfigurationSeal s = .next t) : Eff [.hostPort] s t := by
  unfold execConfigurationSeal at h
  try dsimp only [bind, Except.bind, Except.map, pure, Except.pure, Option.map] at h
  repeat' (first
    | (replace h := Host.Outcome.next.inj h; subst h)
    | (replace h := Option.some.inj h; subst h)
    | cases h
    | (dsimp only at h))
  all_goals repeat' (first
    | (with_reducible assumption)
    | (with_reducible exact Eff.refl _ _)
    | (with_reducible refine Eff.mapGetD ?_ (fun k => ?_))
    | (with_reducible refine Eff.foldl ?_ (fun s x => ?_))
    | split
    | (with_reducible apply Eff.of_rec (s := _))
    | (with_reducible exact .inl rfl)
    | (with_reducible rfl)
    | exact .inr rfl
    | (with_reducible exact .inl ⟨rfl, rfl, rfl, rfl⟩)
    | (with_reducible exact .inl (map_map_keep (fun _ => by first | rfl | ((try dsimp only); split <;> rfl))))
    | simp only [List.length_map, length_mapIf, length_setAt]
    | exact .inr ⟨rfl, by first | exact id | simp only [length_setAt, length_mapIf]⟩
    | exact .inr ⟨rfl, fun h => all_filter h⟩
    | exact .inr ⟨rfl, fun h => wf_set h _ _⟩
    | exact .inr ⟨rfl, fun h => wf_writeN h _ _⟩)

theorem setBadIndex_eff (s : State) (q : Nat) : Eff [.queues] s (setBadIndex s q) := by
  unfold setBadIndex
  repeat' (first
    | (with_reducible exact Eff.refl _ _)
    | ((with_reducible show Eff _ _ (setQueue ..)); (with_reducible refine Eff.step ?_ (setQueue_eff ..) ?hc); case hc => rfl))

theorem openRecords_eff (s : State) (g : Nat) (js : List Nat) : Eff [.vectors, .sessions, .queues] s (openRecords s g js).2 := by
  unfold openRecords
  refine Eff.foldl_snd (Eff.refl _ _) (fun acc j => ?_)
  split
  · next h => exact (cuffOpen_eff (h := h) ..).weaken rfl
  · exact dmaReport_eff ..

theorem cuffSlots_eff (s : State) (q : Queue) (n : Nat) : Eff [.vectors, .sessions, .queues] s (cuffSlots s q n).2 := by
  unfold cuffSlots
  repeat' (first
    | (with_reducible assumption)
    | (with_reducible exact Eff.refl _ _)
    | ((with_reducible refine Eff.step ?_ (Eff.snd_of (by assumption) (openRecords_eff ..)) ?hc); case hc => rfl)
    | ((with_reducible refine Eff.step ?_ (openRecords_eff ..) ?hc); case hc => rfl)
    | (with_reducible refine Eff.mapGetD ?_ (fun k => ?_))
    | (with_reducible refine Eff.foldl ?_ (fun s x => ?_))
    | dsimp only
    | dsimp only [Option.getD_some, Option.getD_none]
    | split
    | simp only [List.length_map, length_mapIf, length_setAt])

theorem execGblDbProd_eff (fn queue : Nat) (index : Word32) (slots : List (List Byte)) (visible : List HostWrite) (s : State) {t : State} (h : execGblDbProd fn queue index slots visible s = .next t) : Eff [.hostMem, .vectors, .sessions, .queues, .free] s t := by
  unfold execGblDbProd at h
  dsimp only at h
  have h1 : Eff [.hostMem, .vectors, .sessions, .queues, .free] s (visible.foldl (fun s w => hostWrite s w.fn w.addr w.bytes) s) :=
    Eff.foldl (Eff.refl _ _) (fun s w => (hostWrite_eff ..).weaken rfl)
  generalize visible.foldl (fun s w => hostWrite s w.fn w.addr w.bytes) s = s1 at h h1
  split at h
  · replace h := Host.Outcome.next.inj h; subst h; exact h1
  · split at h
    · split at h
      · replace h := Host.Outcome.next.inj h; subst h
        exact (h1.step (cuffSlots_eff ..) rfl).step (setQueue_eff ..) rfl
      · replace h := Host.Outcome.next.inj h; subst h
        exact (h1.step (drawFree_eff ..) rfl).step (setQueue_eff ..) rfl
    · replace h := Host.Outcome.next.inj h; subst h
      exact h1.step (setBadIndex_eff ..) rfl

theorem execGblDbCons_eff (fn queue : Nat) (index : Word32) (s : State) {t : State} (h : execGblDbCons fn queue index s = .next t) : Eff [.hostMem, .vectors, .side, .ports, .inject, .wire, .gloves, .sessions, .queues, .outstanding, .windows, .conns, .casks, .vintages] s t := by
  unfold execGblDbCons at h
  try dsimp only [bind, Except.bind, Except.map, pure, Except.pure, Option.map] at h
  repeat' (first
    | (split at h)
    | (replace h := ok_fst h; subst h)
    | (replace h := Except.ok.inj h; subst h)
    | (replace h := Host.Outcome.next.inj h; subst h)
    | (replace h := Option.some.inj h; subst h)
    | cases h
    | (dsimp only at h))
  all_goals repeat' (first
    | (with_reducible assumption)
    | (with_reducible exact Eff.refl _ _)
    | ((with_reducible show Eff _ _ (setQueue ..)); (with_reducible refine Eff.step ?_ (setQueue_eff ..) ?hc); case hc => rfl)
    | ((with_reducible show Eff _ _ (drainBacklog ..)); (with_reducible refine Eff.step ?_ (drainBacklog_eff ..) ?hc); case hc => rfl)
    | ((with_reducible show Eff _ _ (settleEnds ..)); (with_reducible refine Eff.step ?_ (settleEnds_eff ..) ?hc); case hc => rfl)
    | ((with_reducible show Eff _ _ (settleRevokes ..)); (with_reducible refine Eff.step ?_ (settleRevokes_eff ..) ?hc); case hc => rfl)
    | ((with_reducible show Eff _ _ (resumeDeliveries ..)); (with_reducible refine Eff.step ?_ (resumeDeliveries_eff ..) ?hc); case hc => rfl)
    | ((with_reducible show Eff _ _ (setBadIndex ..)); (with_reducible refine Eff.step ?_ (setBadIndex_eff ..) ?hc); case hc => rfl)
    | (with_reducible refine Eff.mapGetD ?_ (fun k => ?_))
    | (with_reducible refine Eff.foldl ?_ (fun s x => ?_))
    | dsimp only
    | dsimp only [Option.getD_some, Option.getD_none]
    | split
    | simp only [List.length_map, length_mapIf, length_setAt])

theorem setVector_eff (s : State) (fn i : Nat) (f : Vector → Vector) : Eff [.vectors] s (setVector s fn i f) := by
  unfold setVector
  repeat' (first
    | (with_reducible assumption)
    | (with_reducible exact Eff.refl _ _)
    | (with_reducible refine Eff.mapGetD ?_ (fun k => ?_))
    | (with_reducible refine Eff.foldl ?_ (fun s x => ?_))
    | split
    | (with_reducible apply Eff.of_rec (s := _))
    | (with_reducible exact .inl rfl)
    | (with_reducible rfl)
    | exact .inr rfl
    | (with_reducible exact .inl ⟨rfl, rfl, rfl, rfl⟩)
    | (with_reducible exact .inl (map_map_keep (fun _ => by first | rfl | ((try dsimp only); split <;> rfl))))
    | simp only [List.length_map, length_mapIf, length_setAt]
    | exact .inr ⟨rfl, by first | exact id | simp only [length_setAt, length_mapIf]⟩
    | exact .inr ⟨rfl, fun h => all_filter h⟩
    | exact .inr ⟨rfl, fun h => wf_set h _ _⟩
    | exact .inr ⟨rfl, fun h => wf_writeN h _ _⟩)

theorem execMsixMessage_eff (fn vector : Nat) (s : State) {t : State} (h : execMsixMessage fn vector s = .next t) : Eff [.vectors] s t := by
  unfold execMsixMessage at h
  try dsimp only [bind, Except.bind, Except.map, pure, Except.pure, Option.map] at h
  repeat' (first
    | (split at h)
    | (replace h := ok_fst h; subst h)
    | (replace h := Option.some.inj h; subst h)
    | cases h
    | (dsimp only at h))
  all_goals repeat' (first
    | (with_reducible assumption)
    | (with_reducible exact Eff.refl _ _)
    | ((with_reducible show Eff _ _ (setVector ..)); (with_reducible refine Eff.step ?_ (setVector_eff ..) ?hc); case hc => rfl)
    | (with_reducible refine Eff.mapGetD ?_ (fun k => ?_))
    | (with_reducible refine Eff.foldl ?_ (fun s x => ?_))
    | dsimp only
    | dsimp only [Option.getD_some, Option.getD_none]
    | split
    | simp only [List.length_map, length_mapIf, length_setAt])

theorem execMsixUnmask_eff (fn vector : Nat) (s : State) {t : State} (h : execMsixUnmask fn vector s = .next t) : Eff [.vectors] s t := by
  unfold execMsixUnmask at h
  try dsimp only [bind, Except.bind, Except.map, pure, Except.pure, Option.map] at h
  repeat' (first
    | (split at h)
    | (replace h := ok_fst h; subst h)
    | (replace h := Option.some.inj h; subst h)
    | cases h
    | (dsimp only at h))
  all_goals repeat' (first
    | (with_reducible assumption)
    | (with_reducible exact Eff.refl _ _)
    | ((with_reducible show Eff _ _ (setVector ..)); (with_reducible refine Eff.step ?_ (setVector_eff ..) ?hc); case hc => rfl)
    | (with_reducible refine Eff.mapGetD ?_ (fun k => ?_))
    | (with_reducible refine Eff.foldl ?_ (fun s x => ?_))
    | dsimp only
    | dsimp only [Option.getD_some, Option.getD_none]
    | split
    | simp only [List.length_map, length_mapIf, length_setAt])

theorem dmaFailure_eff (s : State) (owner : Nat) (cause : DmaCause) : Eff [.vectors, .sessions, .queues] s (dmaFailure s owner cause) := by
  unfold dmaFailure
  repeat' (first
    | (with_reducible assumption)
    | (with_reducible exact Eff.refl _ _)
    | ((with_reducible refine Eff.step ?_ (dmaReport_eff ..) ?hc); case hc => rfl)
    | (with_reducible refine Eff.mapGetD ?_ (fun k => ?_))
    | (with_reducible refine Eff.foldl ?_ (fun s x => ?_))
    | dsimp only
    | dsimp only [Option.getD_some, Option.getD_none]
    | split
    | simp only [List.length_map, length_mapIf, length_setAt])

theorem failWindowRead_eff (s : State) (c : Conn) (psn : Nat) (cause : DmaCause) : Eff [.vectors, .side, .ports, .inject, .wire, .sessions, .queues, .outstanding, .conns] s (failWindowRead s c psn cause) := by
  unfold failWindowRead
  repeat' (first
    | (with_reducible exact Eff.refl _ _)
    | ((with_reducible show Eff _ _ (refuse ..)); (with_reducible refine Eff.step ?_ (refuse_eff ..) ?hc); case hc => rfl)
    | ((with_reducible show Eff _ _ (refusePacket ..)); (with_reducible refine Eff.step ?_ (refusePacket_eff ..) ?hc); case hc => rfl)
    | ((with_reducible show Eff _ _ (setConn ..)); (with_reducible refine Eff.step ?_ (setConn_eff ..) ?hc); case hc => rfl)
    | ((with_reducible show Eff _ _ (failRequest ..)); (with_reducible refine Eff.step ?_ (failRequest_eff ..) ?hc); case hc => rfl)
    | ((with_reducible show Eff _ _ (consumeSlots ..)); (with_reducible refine Eff.step ?_ (consumeSlots_eff ..) ?hc); case hc => rfl)
    | (with_reducible refine Eff.mapGetD ?_ (fun k => ?_))
    | (with_reducible refine Eff.foldl ?_ (fun s x => ?_))
    | dsimp only
    | dsimp only [Option.getD_some, Option.getD_none]
    | split
    | simp only [List.length_map, length_mapIf, length_setAt])

theorem execDmaReadFail_eff (target : DmaTarget) (cause : DmaCause) (s : State) {t : State} (h : execDmaReadFail target cause s = .next t) : Eff [.vectors, .side, .ports, .inject, .wire, .sessions, .queues, .outstanding, .conns] s t := by
  unfold execDmaReadFail at h
  try dsimp only [bind, Except.bind, Except.map, pure, Except.pure, Option.map] at h
  repeat' (first
    | (split at h)
    | (replace h := ok_fst h; subst h)
    | (replace h := Except.ok.inj h; subst h)
    | (replace h := Host.Outcome.next.inj h; subst h)
    | (replace h := Option.some.inj h; subst h)
    | cases h
    | (dsimp only at h))
  all_goals repeat' (first
    | (with_reducible assumption)
    | (with_reducible exact Eff.refl _ _)
    | ((with_reducible show Eff _ _ (failCommandRing ..)); (with_reducible refine Eff.step ?_ (failCommandRing_eff ..) ?hc); case hc => rfl)
    | ((with_reducible show Eff _ _ (dmaFailure ..)); (with_reducible refine Eff.step ?_ (dmaFailure_eff ..) ?hc); case hc => rfl)
    | ((with_reducible show Eff _ _ (failSendRing ..)); (with_reducible refine Eff.step ?_ (failSendRing_eff ..) ?hc); case hc => rfl)
    | ((with_reducible show Eff _ _ (failWindowRead ..)); (with_reducible refine Eff.step ?_ (failWindowRead_eff ..) ?hc); case hc => rfl)
    | ((with_reducible show Eff _ _ (failFetch ..)); (with_reducible refine Eff.step ?_ (failFetch_eff ..) ?hc); case hc => rfl)
    | (with_reducible refine Eff.mapGetD ?_ (fun k => ?_))
    | (with_reducible refine Eff.foldl ?_ (fun s x => ?_))
    | dsimp only
    | dsimp only [Option.getD_some, Option.getD_none]
    | split
    | simp only [List.length_map, length_mapIf, length_setAt])

theorem emit_eff (s : State) (w : Wire) : Eff [.wire] s (emit s w) := by
  unfold emit
  repeat' (first
    | (with_reducible assumption)
    | (with_reducible exact Eff.refl _ _)
    | (with_reducible refine Eff.mapGetD ?_ (fun k => ?_))
    | (with_reducible refine Eff.foldl ?_ (fun s x => ?_))
    | split
    | (with_reducible apply Eff.of_rec (s := _))
    | (with_reducible exact .inl rfl)
    | (with_reducible rfl)
    | exact .inr rfl
    | (with_reducible exact .inl ⟨rfl, rfl, rfl, rfl⟩)
    | (with_reducible exact .inl (map_map_keep (fun _ => by first | rfl | ((try dsimp only); split <;> rfl))))
    | simp only [List.length_map, length_mapIf, length_setAt]
    | exact .inr ⟨rfl, by first | exact id | simp only [length_setAt, length_mapIf]⟩
    | exact .inr ⟨rfl, fun h => all_filter h⟩
    | exact .inr ⟨rfl, fun h => wf_set h _ _⟩
    | exact .inr ⟨rfl, fun h => wf_writeN h _ _⟩)

theorem execArpRequest_eff (port address sender : Nat) (s : State) {t : State} (h : execArpRequest port address sender s = .next t) : Eff [.wire] s t := by
  unfold execArpRequest at h
  try dsimp only [bind, Except.bind, Except.map, pure, Except.pure, Option.map] at h
  repeat' (first
    | (split at h)
    | (replace h := ok_fst h; subst h)
    | (replace h := Option.some.inj h; subst h)
    | cases h
    | (dsimp only at h))
  all_goals repeat' (first
    | (with_reducible assumption)
    | (with_reducible exact Eff.refl _ _)
    | ((with_reducible show Eff _ _ (emit ..)); (with_reducible refine Eff.step ?_ (emit_eff ..) ?hc); case hc => rfl)
    | (with_reducible refine Eff.mapGetD ?_ (fun k => ?_))
    | (with_reducible refine Eff.foldl ?_ (fun s x => ?_))
    | dsimp only
    | dsimp only [Option.getD_some, Option.getD_none]
    | split
    | simp only [List.length_map, length_mapIf, length_setAt])

theorem execNeighbourSolicitation_eff (port address sender : Nat) (s : State) {t : State} (h : execNeighbourSolicitation port address sender s = .next t) : Eff [.wire] s t := by
  unfold execNeighbourSolicitation at h
  try dsimp only [bind, Except.bind, Except.map, pure, Except.pure, Option.map] at h
  repeat' (first
    | (split at h)
    | (replace h := ok_fst h; subst h)
    | (replace h := Option.some.inj h; subst h)
    | cases h
    | (dsimp only at h))
  all_goals repeat' (first
    | (with_reducible assumption)
    | (with_reducible exact Eff.refl _ _)
    | ((with_reducible show Eff _ _ (emit ..)); (with_reducible refine Eff.step ?_ (emit_eff ..) ?hc); case hc => rfl)
    | (with_reducible refine Eff.mapGetD ?_ (fun k => ?_))
    | (with_reducible refine Eff.foldl ?_ (fun s x => ?_))
    | dsimp only
    | dsimp only [Option.getD_some, Option.getD_none]
    | split
    | simp only [List.length_map, length_mapIf, length_setAt])

theorem execEchoRequest_eff (port : Nat) (v6 : Bool) (address sender : Nat) (payload : List Byte) (s : State) {t : State} (h : execEchoRequest port v6 address sender payload s = .next t) : Eff [.wire] s t := by
  unfold execEchoRequest at h
  try dsimp only [bind, Except.bind, Except.map, pure, Except.pure, Option.map] at h
  repeat' (first
    | (split at h)
    | (replace h := ok_fst h; subst h)
    | (replace h := Option.some.inj h; subst h)
    | cases h
    | (dsimp only at h))
  all_goals repeat' (first
    | (with_reducible assumption)
    | (with_reducible exact Eff.refl _ _)
    | ((with_reducible show Eff _ _ (emit ..)); (with_reducible refine Eff.step ?_ (emit_eff ..) ?hc); case hc => rfl)
    | (with_reducible refine Eff.mapGetD ?_ (fun k => ?_))
    | (with_reducible refine Eff.foldl ?_ (fun s x => ?_))
    | dsimp only
    | dsimp only [Option.getD_some, Option.getD_none]
    | split
    | simp only [List.length_map, length_mapIf, length_setAt])

theorem execDynamicAddressAssignment_eff (address : Nat) (setdasa : Option Nat) (s : State) {t : State} (h : execDynamicAddressAssignment address setdasa s = .next t) : Eff [.side] s t := by
  unfold execDynamicAddressAssignment at h
  try dsimp only [bind, Except.bind, Except.map, pure, Except.pure, Option.map] at h
  repeat' (first
    | (replace h := Host.Outcome.next.inj h; subst h)
    | (replace h := Option.some.inj h; subst h)
    | cases h
    | (dsimp only at h))
  all_goals repeat' (first
    | (with_reducible assumption)
    | (with_reducible exact Eff.refl _ _)
    | (with_reducible refine Eff.mapGetD ?_ (fun k => ?_))
    | (with_reducible refine Eff.foldl ?_ (fun s x => ?_))
    | split
    | (with_reducible apply Eff.of_rec (s := _))
    | (with_reducible exact .inl rfl)
    | (with_reducible rfl)
    | exact .inr rfl
    | (with_reducible exact .inl ⟨rfl, rfl, rfl, rfl⟩)
    | (with_reducible exact .inl (map_map_keep (fun _ => by first | rfl | ((try dsimp only); split <;> rfl))))
    | simp only [List.length_map, length_mapIf, length_setAt]
    | exact .inr ⟨rfl, by first | exact id | simp only [length_setAt, length_mapIf]⟩
    | exact .inr ⟨rfl, fun h => all_filter h⟩
    | exact .inr ⟨rfl, fun h => wf_set h _ _⟩
    | exact .inr ⟨rfl, fun h => wf_writeN h _ _⟩)

/-! ### Machine/Sessions.lean -/

theorem setSession_eff (s : State) (g : Nat) (f : Session → Session) : Eff [.sessions] s (setSession s g f) := by
  unfold setSession
  repeat' (first
    | (with_reducible exact Eff.refl _ _)
    | ((with_reducible show Eff _ _ (setGlove ..)); (with_reducible refine Eff.step ?_ (setGlove_eff_s _ _ _ (fun _ => by first | (with_reducible rfl) | ((try dsimp only); split <;> (with_reducible rfl)))) ?hc); case hc => rfl))

theorem cmdSessionKeygen_eff {p : Packet} {s t : State} {x : Done} (h : (cmdSessionKeygen).body p s = .ok (t, x)) : Eff [.hostMem, .vectors, .sessions, .outstanding, .casks, .free] s t := by
  unfold cmdSessionKeygen at h
  try dsimp only [bind, Except.bind, Except.map, pure, Except.pure, Option.map] at h
  repeat' (first
    | (split at h)
    | cases h)
  all_goals repeat' (first
    | (with_reducible exact Eff.refl _ _)
    | ((with_reducible refine Eff.step ?_ (drawBytes_eff ..) ?hc); case hc => rfl)
    | ((with_reducible refine Eff.step ?_ (writeWindow_eff (h := by assumption) ..) ?hc); case hc => rfl)
    | ((with_reducible show Eff _ _ (setSession ..)); (with_reducible refine Eff.step ?_ (setSession_eff ..) ?hc); case hc => rfl))

theorem execSessionKeygen_eff (p : Packet) (s : State) {t : State} (h : execSessionKeygen p s = .next t) : Eff (.hostMem :: .ent :: .gloves :: .casks :: .free :: answering) s t := by
  exact runCmd_eff (fun _ _ _ _ h => (cmdSessionKeygen_eff (h := h) ..).weaken rfl) rfl (by first | exact .inl (fun _ _ => rfl) | exact .inr rfl) h

theorem pairSpent_eff (p : Packet) (s : State) : Eff [.sessions] s (pairSpent p s) := by
  unfold pairSpent
  repeat' (first
    | (with_reducible assumption)
    | (with_reducible exact Eff.refl _ _)
    | ((with_reducible show Eff _ _ (setSession ..)); (with_reducible refine Eff.step ?_ (setSession_eff ..) ?hc); case hc => rfl)
    | (with_reducible refine Eff.mapGetD ?_ (fun k => ?_))
    | (with_reducible refine Eff.foldl ?_ (fun s x => ?_))
    | dsimp only
    | dsimp only [Option.getD_some, Option.getD_none]
    | split
    | simp only [List.length_map, length_mapIf, length_setAt])

theorem cmdSessionOpen_eff {p : Packet} {s t : State} {x : Done} (h : (cmdSessionOpen).body p s = .ok (t, x)) : Eff [.sessions] s t := by
  unfold cmdSessionOpen at h
  obtain ⟨_, _, h⟩ := of_bind_ok h
  dsimp only at h
  generalize confirmation _ _ _ = c1 at h
  generalize okBytes _ = c2 at h
  generalize (fun x : Session => (_ : Session)) = f at h
  generalize (fun x : Session => (_ : Session)) = f2 at h
  split at h
  · have h := ok_fst h; subst h; exact setSession_eff ..
  · have h := ok_fst h; subst h; exact setSession_eff ..

theorem execSessionOpen_eff (p : Packet) (s : State) {t : State} (h : execSessionOpen p s = .next t) : Eff answering s t := by
  exact runCmd_eff (fun _ _ _ _ h => (cmdSessionOpen_eff (h := h) ..).weaken rfl) rfl (.inl (fun _ _ => rfl)) h
    (fun _ _ => (pairSpent_eff ..).weaken rfl)

theorem cmdSessionClose_eff {p : Packet} {s t : State} {x : Done} (h : (cmdSessionClose).body p s = .ok (t, x)) : Eff [.sessions] s t := by
  unfold cmdSessionClose at h
  repeat' (first
    | (replace h := ok_fst h; subst h))
  all_goals repeat' (first
    | (with_reducible exact Eff.refl _ _)
    | ((with_reducible show Eff _ _ (setSession ..)); (with_reducible refine Eff.step ?_ (setSession_eff ..) ?hc); case hc => rfl))

theorem execSessionClose_eff (p : Packet) (s : State) {t : State} (h : execSessionClose p s = .next t) : Eff answering s t := by
  exact runCmd_eff (fun _ _ _ _ h => (cmdSessionClose_eff (h := h) ..).weaken rfl) rfl (by first | exact .inl (fun _ _ => rfl) | exact .inr rfl) h

theorem cmdSessionQuery_eff {p : Packet} {s t : State} {x : Done} (h : (cmdSessionQuery).body p s = .ok (t, x)) : Eff [] s t := by
  unfold cmdSessionQuery at h
  repeat' (first
    | (replace h := ok_fst h; subst h))
  all_goals repeat' (first
    | (with_reducible exact Eff.refl _ _))

theorem execSessionQuery_eff (p : Packet) (s : State) {t : State} (h : execSessionQuery p s = .next t) : Eff answering s t := by
  exact runCmd_eff (fun _ _ _ _ h => (cmdSessionQuery_eff (h := h) ..).weaken rfl) rfl (by first | exact .inl (fun _ _ => rfl) | exact .inr rfl) h

/-! ### Machine/Trellis.lean -/

theorem memberGone_eff (s : State) (m : Nat) : Eff [.vectors, .inject, .wire, .sessions, .queues, .conns, .vintages] s (memberGone s m) := by
  unfold memberGone
  repeat' (first
    | (with_reducible exact Eff.refl _ _)
    | ((with_reducible show Eff _ _ (leadMismatch ..)); (with_reducible refine Eff.step ?_ (leadMismatch_eff ..) ?hc); case hc => rfl)
    | ((with_reducible show Eff _ _ (setVintage ..)); (with_reducible refine Eff.step ?_ (setVintage_eff ..) ?hc); case hc => rfl)
    | (with_reducible refine Eff.foldl ?_ (fun s x => ?_))
    | dsimp only
    | split)

theorem cmdTrellisJoin_eff {p : Packet} {s t : State} {x : Done} (h : (cmdTrellisJoin).body p s = .ok (t, x)) : Eff [.trellis] s t := by
  unfold cmdTrellisJoin at h
  repeat' (first
    | (replace h := ok_fst h; subst h))
  all_goals repeat' (first
    | (with_reducible exact Eff.refl _ _)
    | ((with_reducible show Eff _ _ (setTrellis ..)); (with_reducible refine Eff.step ?_ (setTrellis_eff ..) ?hc); case hc => rfl))

theorem execTrellisJoin_eff (p : Packet) (s : State) {t : State} (h : execTrellisJoin p s = .next t) : Eff (.trellis :: answering) s t := by
  exact runCmd_eff (fun _ _ _ _ h => (cmdTrellisJoin_eff (h := h) ..).weaken rfl) rfl (by first | exact .inl (fun _ _ => rfl) | exact .inr rfl) h

theorem closeBypass_eff (s : State) : Eff [.ports, .trellis] s (closeBypass s) := by
  unfold closeBypass
  repeat' (first
    | (with_reducible exact Eff.refl _ _)
    | ((with_reducible show Eff _ _ (setPort ..)); (with_reducible refine Eff.step ?_ (setPort_eff_p _ _ _ (fun _ => by first | (with_reducible rfl) | ((try dsimp only); split <;> (with_reducible rfl)))) ?hc); case hc => rfl)
    | ((with_reducible show Eff _ _ (setTrellis ..)); (with_reducible refine Eff.step ?_ (setTrellis_eff ..) ?hc); case hc => rfl))

theorem cmdTrellisLeave_eff {p : Packet} {s t : State} {x : Done} (h : (cmdTrellisLeave).body p s = .ok (t, x)) : Eff [.vectors, .ports, .inject, .trellis, .wire, .sessions, .conns] s t := by
  unfold cmdTrellisLeave at h
  repeat' (first
    | (replace h := ok_fst h; subst h))
  all_goals repeat' (first
    | (with_reducible exact Eff.refl _ _)
    | ((with_reducible show Eff _ _ (closeConn ..)); (with_reducible refine Eff.step ?_ (closeConn_eff ..) ?hc); case hc => rfl)
    | ((with_reducible show Eff _ _ (closeBypass ..)); (with_reducible refine Eff.step ?_ (closeBypass_eff ..) ?hc); case hc => rfl)
    | (with_reducible refine Eff.foldl ?_ (fun s x => ?_)))

theorem execTrellisLeave_eff (p : Packet) (s : State) {t : State} (h : execTrellisLeave p s = .next t) : Eff (.ports :: .trellis :: answering) s t := by
  exact runCmd_eff (fun _ _ _ _ h => (cmdTrellisLeave_eff (h := h) ..).weaken rfl) rfl (by first | exact .inl (fun _ _ => rfl) | exact .inr rfl) h

theorem cmdTrellisStatus_eff {p : Packet} {s t : State} {x : Done} (h : (cmdTrellisStatus).body p s = .ok (t, x)) : Eff [] s t := by
  unfold cmdTrellisStatus at h
  repeat' (first
    | (replace h := ok_fst h; subst h))
  all_goals repeat' (first
    | (with_reducible exact Eff.refl _ _))

theorem execTrellisStatus_eff (p : Packet) (s : State) {t : State} (h : execTrellisStatus p s = .next t) : Eff answering s t := by
  exact runCmd_eff (fun _ _ _ _ h => (cmdTrellisStatus_eff (h := h) ..).weaken rfl) rfl (by first | exact .inl (fun _ _ => rfl) | exact .inr rfl) h

theorem execHeartbeat_eff (w : WraPacket) (s : State) {t : State} (h : execHeartbeat w s = .next t) : Eff [.clock, .vectors, .side, .ports, .inject, .trellis, .wire, .sessions, .queues, .outstanding, .windows, .conns, .vintages] s t := by
  unfold execHeartbeat at h
  try dsimp only [bind, Except.bind, Except.map, pure, Except.pure, Option.map] at h
  repeat' (first
    | (split at h)
    | (replace h := ok_fst h; subst h)
    | (replace h := Except.ok.inj h; subst h)
    | (replace h := Host.Outcome.next.inj h; subst h)
    | (replace h := Option.some.inj h; subst h)
    | cases h
    | (dsimp only at h))
  all_goals repeat' (first
    | (with_reducible assumption)
    | (with_reducible exact Eff.refl _ _)
    | ((with_reducible refine Eff.step ?_ (Eff.snd_of (by assumption) (injectPort_eff ..)) ?hc); case hc => rfl)
    | ((with_reducible refine Eff.step ?_ (injectPort_eff ..) ?hc); case hc => rfl)
    | ((with_reducible show Eff _ _ (received ..)); (with_reducible refine Eff.step ?_ (received_eff ..) ?hc); case hc => rfl)
    | (with_reducible refine Eff.mapGetD ?_ (fun k => ?_))
    | (with_reducible refine Eff.foldl ?_ (fun s x => ?_))
    | dsimp only
    | dsimp only [Option.getD_some, Option.getD_none]
    | split
    | (with_reducible apply Eff.of_rec (s := _))
    | (with_reducible exact .inl rfl)
    | (with_reducible rfl)
    | exact .inr rfl
    | (with_reducible exact .inl ⟨rfl, rfl, rfl, rfl⟩)
    | (with_reducible exact .inl (map_map_keep (fun _ => by first | rfl | ((try dsimp only); split <;> rfl))))
    | simp only [List.length_map, length_mapIf, length_setAt]
    | exact .inr ⟨rfl, by first | exact id | simp only [length_setAt, length_mapIf]⟩
    | exact .inr ⟨rfl, fun h => all_filter h⟩
    | exact .inr ⟨rfl, fun h => wf_set h _ _⟩
    | exact .inr ⟨rfl, fun h => wf_writeN h _ _⟩)

theorem execHeartbeatOriginate_eff (s : State) {t : State} (h : execHeartbeatOriginate s = .next t) : Eff [.inject, .wire] s t := by
  unfold execHeartbeatOriginate at h
  try dsimp only [bind, Except.bind, Except.map, pure, Except.pure, Option.map] at h
  repeat' (first
    | (split at h)
    | (replace h := ok_fst h; subst h)
    | (replace h := Except.ok.inj h; subst h)
    | (replace h := Host.Outcome.next.inj h; subst h)
    | (replace h := Option.some.inj h; subst h)
    | cases h
    | (dsimp only at h))
  all_goals repeat' (first
    | (with_reducible assumption)
    | (with_reducible exact Eff.refl _ _)
    | ((with_reducible show Eff _ _ (emitRaw ..)); (with_reducible refine Eff.step ?_ (emitRaw_eff ..) ?hc); case hc => rfl)
    | (with_reducible refine Eff.mapGetD ?_ (fun k => ?_))
    | (with_reducible refine Eff.foldl ?_ (fun s x => ?_))
    | dsimp only
    | dsimp only [Option.getD_some, Option.getD_none]
    | split
    | simp only [List.length_map, length_mapIf, length_setAt])

theorem failJoin_eff (s : State) : Eff [.vectors, .side, .ports, .inject, .trellis, .wire, .sessions, .queues, .outstanding, .conns] s (failJoin s) := by
  unfold failJoin
  repeat' (first
    | (with_reducible exact Eff.refl _ _)
    | ((with_reducible show Eff _ _ (endJoin ..)); (with_reducible refine Eff.step ?_ (endJoin_eff ..) ?hc); case hc => rfl)
    | ((with_reducible show Eff _ _ (closeBypass ..)); (with_reducible refine Eff.step ?_ (closeBypass_eff ..) ?hc); case hc => rfl))

theorem execMemberTimeout_eff (member : Nat) (s : State) {t : State} (h : execMemberTimeout member s = .next t) : Eff [.vectors, .side, .ports, .inject, .trellis, .wire, .sessions, .queues, .outstanding, .conns, .vintages] s t := by
  unfold execMemberTimeout at h
  try dsimp only [bind, Except.bind, Except.map, pure, Except.pure, Option.map] at h
  repeat' (first
    | (split at h)
    | (replace h := ok_fst h; subst h)
    | (replace h := Except.ok.inj h; subst h)
    | (replace h := Host.Outcome.next.inj h; subst h)
    | (replace h := Option.some.inj h; subst h)
    | cases h
    | (dsimp only at h))
  all_goals repeat' (first
    | (with_reducible assumption)
    | (with_reducible exact Eff.refl _ _)
    | ((with_reducible show Eff _ _ (failJoin ..)); (with_reducible refine Eff.step ?_ (failJoin_eff ..) ?hc); case hc => rfl)
    | ((with_reducible show Eff _ _ (memberGone ..)); (with_reducible refine Eff.step ?_ (memberGone_eff ..) ?hc); case hc => rfl)
    | ((with_reducible show Eff _ _ (setMembers ..)); (with_reducible refine Eff.step ?_ (setMembers_eff ..) ?hc); case hc => rfl)
    | (with_reducible refine Eff.mapGetD ?_ (fun k => ?_))
    | (with_reducible refine Eff.foldl ?_ (fun s x => ?_))
    | dsimp only
    | dsimp only [Option.getD_some, Option.getD_none]
    | split
    | simp only [List.length_map, length_mapIf, length_setAt])

theorem execLinkTrained_eff (port : Nat) (s : State) {t : State} (h : execLinkTrained port s = .next t) : Eff [.ports] s t := by
  unfold execLinkTrained at h
  try dsimp only [bind, Except.bind, Except.map, pure, Except.pure, Option.map] at h
  repeat' (first
    | (split at h)
    | (replace h := ok_fst h; subst h)
    | (replace h := Except.ok.inj h; subst h)
    | (replace h := Host.Outcome.next.inj h; subst h)
    | (replace h := Option.some.inj h; subst h)
    | cases h
    | (dsimp only at h))
  all_goals repeat' (first
    | (with_reducible assumption)
    | (with_reducible exact Eff.refl _ _)
    | ((with_reducible show Eff _ _ (setPort ..)); (with_reducible refine Eff.step ?_ (setPort_eff_i _ _ _ (fun _ => by first | (with_reducible rfl) | ((try dsimp only); split <;> (with_reducible rfl)))) ?hc); case hc => rfl)
    | ((with_reducible show Eff _ _ (setPort ..)); (with_reducible refine Eff.step ?_ (setPort_eff_p _ _ _ (fun _ => by first | (with_reducible rfl) | ((try dsimp only); split <;> (with_reducible rfl)))) ?hc); case hc => rfl)
    | ((with_reducible show Eff _ _ (setPort ..)); (with_reducible refine Eff.step ?_ (setPort_eff _ _ _) ?hc); case hc => rfl)
    | (with_reducible refine Eff.mapGetD ?_ (fun k => ?_))
    | (with_reducible refine Eff.foldl ?_ (fun s x => ?_))
    | dsimp only
    | dsimp only [Option.getD_some, Option.getD_none]
    | split
    | simp only [List.length_map, length_mapIf, length_setAt])

theorem execLinkLost_eff (port : Nat) (s : State) {t : State} (h : execLinkLost port s = .next t) : Eff [.vectors, .side, .ports, .inject, .trellis, .wire, .sessions, .queues, .outstanding, .conns] s t := by
  unfold execLinkLost at h
  repeat' (first
    | (split at h)
    | (replace h := Host.Outcome.next.inj h; subst h))
  all_goals repeat' (first
    | (with_reducible exact Eff.refl _ _)
    | ((with_reducible show Eff _ _ (setPort ..)); (with_reducible refine Eff.step ?_ (setPort_eff_p _ _ _ (fun _ => by first | (with_reducible rfl) | ((try dsimp only); split <;> (with_reducible rfl)))) ?hc); case hc => rfl)
    | ((with_reducible show Eff _ _ (failJoin ..)); (with_reducible refine Eff.step ?_ (failJoin_eff ..) ?hc); case hc => rfl))

end Sys2Proof.Machine
end

