-- ==== Sys2Proof/Laws/EffectsTurn.lean ====
section
/-! SUPPORT. The effect of each operation of dispatch turns and the restart of the Cellarmaster:
the parts of the state it may change (`Eff`, Laws/Effects.lean). -/

set_option autoImplicit false
set_option linter.unusedTactic false
set_option linter.unreachableTactic false
set_option linter.unusedSimpArgs false
set_option Elab.async false

namespace Sys2Proof.Machine

/-! ### Machine/Turn.lean -/

/-- Every part. -/
abbrev allParts : List Part := .hostMem :: .free :: booting

theorem mem_allParts (k : Part) : k ∈ allParts := by cases k <;> decide

theorem Eff.toAll {b : List Part} {s t : State} (h : Eff b s t) : Eff allParts s t :=
  ⟨h.pending, h.shape, h.rollback, h.life, fun k hk => absurd (mem_allParts k) hk⟩

/-- A life-cycle transition goes to a later life-cycle state. -/
def LifeUp (c : Cmd) (p : Packet) (s : State) : Prop := c.op = 0x0920 → lifeRank s.fw.lc ≤ lifeRank (lifeOf (p.u8 0))

/-- What is known of every command. -/
structure CmdOk (c : Cmd) : Prop where
  body : ∀ {p s t d}, LifeUp c p s → c.body p s = .ok (t, d) → Eff allParts s t
  life : ∀ {p s}, c.state p s = .ok () → LifeUp c p s
  spent : ∀ p s, Eff [.sessions] s (c.spent p s)
  works : c.works = true → c.op ≠ 0x0920
  complete : ∀ {o p s t d}, c.complete o p s = .ok (t, d) → Eff allParts s t

theorem cmdOk_of {c : Cmd} (h : ∀ {p s t d}, c.body p s = .ok (t, d) → Eff allParts s t) (hop : c.op ≠ 0x0920)
    (hs : ∀ p s, Eff [.sessions] s (c.spent p s) := by exact fun _ _ => Eff.refl _ _)
    (hc : ∀ {o p s t d}, c.complete o p s = .ok (t, d) → Eff allParts s t := by
      exact fun h => by cases h; exact Eff.refl _ _) : CmdOk c :=
  ⟨fun _ => h, fun _ e => absurd e hop, hs, fun _ => hop, hc⟩

theorem cmdOk_lat (o : LatOp) (draw : Packet → State → Option (Nat × Nat)) (hop : o.code ≠ 0x0920) :
    CmdOk (latCmd o draw) :=
  cmdOk_of (fun h => (latCmd_eff (h := h) ..).toAll) hop (fun _ _ => Eff.refl _ _)
    (fun h => (latComplete_eff (h := h) ..).toAll)

theorem cmdOk_thr : CmdOk cmdThrPartial :=
  cmdOk_of (fun h => (cmdThrPartial_eff (h := h) ..).toAll) (by decide) (fun _ _ => Eff.refl _ _) (fun h => by
    unfold cmdThrPartial at h
    dsimp only [bind, Except.bind] at h
    split at h
    · cases h
    · exact (thrWork_eff (h := h) ..).toAll)

theorem cmdOk_lc : CmdOk cmdLcTransition :=
  ⟨fun hl h => (cmdLcTransition_eff (hl rfl) h).toAll, fun h _ => lifeUp_of_state h, fun _ _ => Eff.refl _ _, fun h => by (cases h),
    fun h => by (cases h; exact Eff.refl _ _)⟩

theorem cmdOk_timed {c : Cmd} (hc : CmdOk c) : CmdOk (timed c) := by
  by_cases hw : c.works = true
  · refine ⟨fun {p s t d} _ h => ?_, fun {p s} h e => ?_, fun p s => ?_, fun _ => ?_, fun {o p s t d} h => ?_⟩
    · unfold timed at h
      rw [if_pos hw] at h
      dsimp only at h
      split at h
      · cases h
      · cases h; exact Eff.refl _ _
    · unfold timed at e
      rw [if_pos hw] at e
      exact absurd e (hc.works hw)
    · unfold timed
      rw [if_pos hw]
      exact hc.spent p s
    · unfold timed
      rw [if_pos hw]
      exact hc.works hw
    · unfold timed at h
      rw [if_pos hw] at h
      exact hc.complete h
  · unfold timed
    rw [if_neg hw]
    exact hc

theorem commands_ok0 : ∀ c ∈ [cmdNop, cmdQueueCreate, cmdQueueDestroy, cmdQueueFlush, cmdQueueQuery, cmdSessionKeygen, cmdSessionOpen, cmdSessionClose, cmdSessionQuery, cmdVintageCreate, cmdCaskAlloc, cmdCaskFree, cmdVintageOpen, cmdVintageSeal, cmdVintageClose, cmdVintageAbort, cmdVintageQuery, cmdCaskQuery, cmdLeesRack, cmdLeesRetract], CmdOk c :=
  List.forall_mem_cons.mpr ⟨(cmdOk_of (fun h => (cmdNop_eff (h := h) ..).toAll) (by decide)),
    List.forall_mem_cons.mpr ⟨(cmdOk_of (fun h => (cmdQueueCreate_eff (h := h) ..).toAll) (by decide)),
    List.forall_mem_cons.mpr ⟨(cmdOk_of (fun h => (cmdQueueDestroy_eff (h := h) ..).toAll) (by decide)),
    List.forall_mem_cons.mpr ⟨(cmdOk_of (fun h => (cmdQueueFlush_eff (h := h) ..).toAll) (by decide)),
    List.forall_mem_cons.mpr ⟨(cmdOk_of (fun h => (cmdQueueQuery_eff (h := h) ..).toAll) (by decide)),
    List.forall_mem_cons.mpr ⟨(cmdOk_of (fun h => (cmdSessionKeygen_eff (h := h) ..).toAll) (by decide)),
    List.forall_mem_cons.mpr ⟨(cmdOk_of (fun h => (cmdSessionOpen_eff (h := h) ..).toAll) (by decide) (fun _ _ => (pairSpent_eff ..).weaken rfl)),
    List.forall_mem_cons.mpr ⟨(cmdOk_of (fun h => (cmdSessionClose_eff (h := h) ..).toAll) (by decide)),
    List.forall_mem_cons.mpr ⟨(cmdOk_of (fun h => (cmdSessionQuery_eff (h := h) ..).toAll) (by decide)),
    List.forall_mem_cons.mpr ⟨(cmdOk_of (fun h => (cmdVintageCreate_eff (h := h) ..).toAll) (by decide)),
    List.forall_mem_cons.mpr ⟨(cmdOk_of (fun h => (cmdCaskAlloc_eff (h := h) ..).toAll) (by decide)),
    List.forall_mem_cons.mpr ⟨(cmdOk_of (fun h => (cmdCaskFree_eff (h := h) ..).toAll) (by decide)),
    List.forall_mem_cons.mpr ⟨(cmdOk_of (fun h => (cmdVintageOpen_eff (h := h) ..).toAll) (by decide)),
    List.forall_mem_cons.mpr ⟨(cmdOk_of (fun h => (cmdVintageSeal_eff (h := h) ..).toAll) (by decide)),
    List.forall_mem_cons.mpr ⟨(cmdOk_of (fun h => (cmdVintageClose_eff (h := h) ..).toAll) (by decide)),
    List.forall_mem_cons.mpr ⟨(cmdOk_of (fun h => (cmdVintageAbort_eff (h := h) ..).toAll) (by decide)),
    List.forall_mem_cons.mpr ⟨(cmdOk_of (fun h => (cmdVintageQuery_eff (h := h) ..).toAll) (by decide)),
    List.forall_mem_cons.mpr ⟨(cmdOk_of (fun h => (cmdCaskQuery_eff (h := h) ..).toAll) (by decide)),
    List.forall_mem_cons.mpr ⟨(cmdOk_of (fun h => (cmdLeesRack_eff (h := h) ..).toAll) (by decide)),
    List.forall_mem_cons.mpr ⟨(cmdOk_of (fun h => (cmdLeesRetract_eff (h := h) ..).toAll) (by decide)),
    List.forall_mem_nil _⟩⟩⟩⟩⟩⟩⟩⟩⟩⟩⟩⟩⟩⟩⟩⟩⟩⟩⟩⟩

theorem commands_ok1 : ∀ c ∈ [cmdCaskAdjust, cmdMaskSetup, cmdGraphLoad, cmdPubkeyLoad, cmdShareSubmit, cmdLedgerQuery, cmdMaskKeygen, cmdMaskApply, cmdShareSplit, cmdLatParamLoad, cmdLatUnload, cmdLatKeysetCreate, cmdLatEvkLoad, cmdLatBind, cmdLatImport, cmdLatHdrRead, latCmd latAdd, latCmd latSub, latCmd latMulConst, latCmd latMulPlain], CmdOk c :=
  List.forall_mem_cons.mpr ⟨(cmdOk_of (fun h => (cmdCaskAdjust_eff (h := h) ..).toAll) (by decide)),
    List.forall_mem_cons.mpr ⟨(cmdOk_of (fun h => (cmdMaskSetup_eff (h := h) ..).toAll) (by decide)),
    List.forall_mem_cons.mpr ⟨(cmdOk_of (fun h => (cmdGraphLoad_eff (h := h) ..).toAll) (by decide)),
    List.forall_mem_cons.mpr ⟨(cmdOk_of (fun h => (cmdPubkeyLoad_eff (h := h) ..).toAll) (by decide)),
    List.forall_mem_cons.mpr ⟨(cmdOk_of (fun h => (cmdShareSubmit_eff (h := h) ..).toAll) (by decide)),
    List.forall_mem_cons.mpr ⟨(cmdOk_of (fun h => (cmdLedgerQuery_eff (h := h) ..).toAll) (by decide)),
    List.forall_mem_cons.mpr ⟨(cmdOk_of (fun h => (cmdMaskKeygen_eff (h := h) ..).toAll) (by decide)),
    List.forall_mem_cons.mpr ⟨(cmdOk_of (fun h => (cmdMaskApply_eff (h := h) ..).toAll) (by decide)),
    List.forall_mem_cons.mpr ⟨(cmdOk_of (fun h => (cmdShareSplit_eff (h := h) ..).toAll) (by decide)),
    List.forall_mem_cons.mpr ⟨(cmdOk_of (fun h => (cmdLatParamLoad_eff (h := h) ..).toAll) (by decide)),
    List.forall_mem_cons.mpr ⟨(cmdOk_of (fun h => (cmdLatUnload_eff (h := h) ..).toAll) (by decide)),
    List.forall_mem_cons.mpr ⟨(cmdOk_of (fun h => (cmdLatKeysetCreate_eff (h := h) ..).toAll) (by decide)),
    List.forall_mem_cons.mpr ⟨(cmdOk_of (fun h => (cmdLatEvkLoad_eff (h := h) ..).toAll) (by decide)),
    List.forall_mem_cons.mpr ⟨(cmdOk_of (fun h => (cmdLatBind_eff (h := h) ..).toAll) (by decide)),
    List.forall_mem_cons.mpr ⟨(cmdOk_of (fun h => (cmdLatImport_eff (h := h) ..).toAll) (by decide)),
    List.forall_mem_cons.mpr ⟨(cmdOk_of (fun h => (cmdLatHdrRead_eff (h := h) ..).toAll) (by decide)),
    List.forall_mem_cons.mpr ⟨cmdOk_lat _ _ (by decide),
    List.forall_mem_cons.mpr ⟨cmdOk_lat _ _ (by decide),
    List.forall_mem_cons.mpr ⟨cmdOk_lat _ _ (by decide),
    List.forall_mem_cons.mpr ⟨cmdOk_lat _ _ (by decide),
    List.forall_mem_nil _⟩⟩⟩⟩⟩⟩⟩⟩⟩⟩⟩⟩⟩⟩⟩⟩⟩⟩⟩⟩

theorem commands_ok2 : ∀ c ∈ [latCmd latMul, latCmd latRotate, latCmd latRescale, latCmd latLevelDrop, latCmd latForm_, latCmd latEncryptPk encryptDraw, cmdRefreshSetup, cmdLutLoad, cmdLutFree, latCmd refreshPackedOp, latCmd refreshLweOp, latCmd schemeSwitchOp, cmdThrShareLoad, cmdThrPartial, cmdVintageRelease, cmdRecipeLoad, cmdRecipeFree, cmdWindowCreate, cmdWindowRevoke, cmdWindowQuery], CmdOk c :=
  List.forall_mem_cons.mpr ⟨cmdOk_lat _ _ (by decide),
    List.forall_mem_cons.mpr ⟨cmdOk_lat _ _ (by decide),
    List.forall_mem_cons.mpr ⟨cmdOk_lat _ _ (by decide),
    List.forall_mem_cons.mpr ⟨cmdOk_lat _ _ (by decide),
    List.forall_mem_cons.mpr ⟨cmdOk_lat _ _ (by decide),
    List.forall_mem_cons.mpr ⟨cmdOk_lat _ _ (by decide),
    List.forall_mem_cons.mpr ⟨(cmdOk_of (fun h => (cmdRefreshSetup_eff (h := h) ..).toAll) (by decide)),
    List.forall_mem_cons.mpr ⟨(cmdOk_of (fun h => (cmdLutLoad_eff (h := h) ..).toAll) (by decide)),
    List.forall_mem_cons.mpr ⟨(cmdOk_of (fun h => (cmdLutFree_eff (h := h) ..).toAll) (by decide)),
    List.forall_mem_cons.mpr ⟨cmdOk_lat _ _ (by decide),
    List.forall_mem_cons.mpr ⟨cmdOk_lat _ _ (by decide),
    List.forall_mem_cons.mpr ⟨cmdOk_lat _ _ (by decide),
    List.forall_mem_cons.mpr ⟨(cmdOk_of (fun h => (cmdThrShareLoad_eff (h := h) ..).toAll) (by decide)),
    List.forall_mem_cons.mpr ⟨cmdOk_thr,
    List.forall_mem_cons.mpr ⟨(cmdOk_of (fun h => (cmdVintageRelease_eff (h := h) ..).toAll) (by decide)),
    List.forall_mem_cons.mpr ⟨(cmdOk_of (fun h => (cmdRecipeLoad_eff (h := h) ..).toAll) (by decide)),
    List.forall_mem_cons.mpr ⟨(cmdOk_of (fun h => (cmdRecipeFree_eff (h := h) ..).toAll) (by decide)),
    List.forall_mem_cons.mpr ⟨(cmdOk_of (fun h => (cmdWindowCreate_eff (h := h) ..).toAll) (by decide)),
    List.forall_mem_cons.mpr ⟨(cmdOk_of (fun h => (cmdWindowRevoke_eff (h := h) ..).toAll) (by decide)),
    List.forall_mem_cons.mpr ⟨(cmdOk_of (fun h => (cmdWindowQuery_eff (h := h) ..).toAll) (by decide)),
    List.forall_mem_nil _⟩⟩⟩⟩⟩⟩⟩⟩⟩⟩⟩⟩⟩⟩⟩⟩⟩⟩⟩⟩

theorem commands_ok3 : ∀ c ∈ [cmdConnCreate, cmdConnDestroy, cmdConnQuery, cmdTriggerCancel, cmdFaultInject, cmdTrellisJoin, cmdTrellisLeave, cmdTrellisStatus, cmdGloveAssign, cmdGloveReset, cmdGloveRelease, cmdGloveModeSet, cmdGloveQuery, cmdKeyOwnerSet, cmdKeyLoad, cmdKeyInvalidate, cmdKeyCreate, cmdKeyEvict, cmdKeyQuery, cmdKeyRotateSet], CmdOk c :=
  List.forall_mem_cons.mpr ⟨(cmdOk_of (fun h => (cmdConnCreate_eff (h := h) ..).toAll) (by decide)),
    List.forall_mem_cons.mpr ⟨(cmdOk_of (fun h => (cmdConnDestroy_eff (h := h) ..).toAll) (by decide)),
    List.forall_mem_cons.mpr ⟨(cmdOk_of (fun h => (cmdConnQuery_eff (h := h) ..).toAll) (by decide)),
    List.forall_mem_cons.mpr ⟨(cmdOk_of (fun h => (cmdTriggerCancel_eff (h := h) ..).toAll) (by decide)),
    List.forall_mem_cons.mpr ⟨(cmdOk_of (fun h => (cmdFaultInject_eff (h := h) ..).toAll) (by decide)),
    List.forall_mem_cons.mpr ⟨(cmdOk_of (fun h => (cmdTrellisJoin_eff (h := h) ..).toAll) (by decide)),
    List.forall_mem_cons.mpr ⟨(cmdOk_of (fun h => (cmdTrellisLeave_eff (h := h) ..).toAll) (by decide)),
    List.forall_mem_cons.mpr ⟨(cmdOk_of (fun h => (cmdTrellisStatus_eff (h := h) ..).toAll) (by decide)),
    List.forall_mem_cons.mpr ⟨(cmdOk_of (fun h => (cmdGloveAssign_eff (h := h) ..).toAll) (by decide)),
    List.forall_mem_cons.mpr ⟨(cmdOk_of (fun h => (cmdGloveReset_eff (h := h) ..).toAll) (by decide)),
    List.forall_mem_cons.mpr ⟨(cmdOk_of (fun h => (cmdGloveRelease_eff (h := h) ..).toAll) (by decide)),
    List.forall_mem_cons.mpr ⟨(cmdOk_of (fun h => (cmdGloveModeSet_eff (h := h) ..).toAll) (by decide)),
    List.forall_mem_cons.mpr ⟨(cmdOk_of (fun h => (cmdGloveQuery_eff (h := h) ..).toAll) (by decide)),
    List.forall_mem_cons.mpr ⟨(cmdOk_of (fun h => (cmdKeyOwnerSet_eff (h := h) ..).toAll) (by decide)),
    List.forall_mem_cons.mpr ⟨(cmdOk_of (fun h => (cmdKeyLoad_eff (h := h) ..).toAll) (by decide)),
    List.forall_mem_cons.mpr ⟨(cmdOk_of (fun h => (cmdKeyInvalidate_eff (h := h) ..).toAll) (by decide)),
    List.forall_mem_cons.mpr ⟨(cmdOk_of (fun h => (cmdKeyCreate_eff (h := h) ..).toAll) (by decide)),
    List.forall_mem_cons.mpr ⟨(cmdOk_of (fun h => (cmdKeyEvict_eff (h := h) ..).toAll) (by decide)),
    List.forall_mem_cons.mpr ⟨(cmdOk_of (fun h => (cmdKeyQuery_eff (h := h) ..).toAll) (by decide)),
    List.forall_mem_cons.mpr ⟨(cmdOk_of (fun h => (cmdKeyRotateSet_eff (h := h) ..).toAll) (by decide)),
    List.forall_mem_nil _⟩⟩⟩⟩⟩⟩⟩⟩⟩⟩⟩⟩⟩⟩⟩⟩⟩⟩⟩⟩

theorem commands_ok4 : ∀ c ∈ [cmdAttestReport, cmdCertRead, cmdEndorseLoad, cmdFwStage, cmdFwSelect, cmdFwQuery, cmdLcTransition, cmdDebugSet, cmdEntRead, cmdEntStatus, cmdEntSourceCtrl, cmdEntRawRead, cmdIntVatCtrl, cmdIntBist, cmdIntHistoryRead, cmdIntQuery, cmdPhaseTick, cmdPhaseSourceSet, cmdCalSet, cmdPhaseQuery], CmdOk c :=
  List.forall_mem_cons.mpr ⟨(cmdOk_of (fun h => (cmdAttestReport_eff (h := h) ..).toAll) (by decide)),
    List.forall_mem_cons.mpr ⟨(cmdOk_of (fun h => (cmdCertRead_eff (h := h) ..).toAll) (by decide)),
    List.forall_mem_cons.mpr ⟨(cmdOk_of (fun h => (cmdEndorseLoad_eff (h := h) ..).toAll) (by decide)),
    List.forall_mem_cons.mpr ⟨(cmdOk_of (fun h => (cmdFwStage_eff (h := h) ..).toAll) (by decide)),
    List.forall_mem_cons.mpr ⟨(cmdOk_of (fun h => (cmdFwSelect_eff (h := h) ..).toAll) (by decide)),
    List.forall_mem_cons.mpr ⟨(cmdOk_of (fun h => (cmdFwQuery_eff (h := h) ..).toAll) (by decide)),
    List.forall_mem_cons.mpr ⟨cmdOk_lc,
    List.forall_mem_cons.mpr ⟨(cmdOk_of (fun h => (cmdDebugSet_eff (h := h) ..).toAll) (by decide)),
    List.forall_mem_cons.mpr ⟨(cmdOk_of (fun h => (cmdEntRead_eff (h := h) ..).toAll) (by decide)),
    List.forall_mem_cons.mpr ⟨(cmdOk_of (fun h => (cmdEntStatus_eff (h := h) ..).toAll) (by decide)),
    List.forall_mem_cons.mpr ⟨(cmdOk_of (fun h => (cmdEntSourceCtrl_eff (h := h) ..).toAll) (by decide)),
    List.forall_mem_cons.mpr ⟨(cmdOk_of (fun h => (cmdEntRawRead_eff (h := h) ..).toAll) (by decide)),
    List.forall_mem_cons.mpr ⟨(cmdOk_of (fun h => (cmdIntVatCtrl_eff (h := h) ..).toAll) (by decide)),
    List.forall_mem_cons.mpr ⟨(cmdOk_of (fun h => (cmdIntBist_eff (h := h) ..).toAll) (by decide)),
    List.forall_mem_cons.mpr ⟨(cmdOk_of (fun h => (cmdIntHistoryRead_eff (h := h) ..).toAll) (by decide)),
    List.forall_mem_cons.mpr ⟨(cmdOk_of (fun h => (cmdIntQuery_eff (h := h) ..).toAll) (by decide)),
    List.forall_mem_cons.mpr ⟨(cmdOk_of (fun h => (cmdPhaseTick_eff (h := h) ..).toAll) (by decide)),
    List.forall_mem_cons.mpr ⟨(cmdOk_of (fun h => (cmdPhaseSourceSet_eff (h := h) ..).toAll) (by decide)),
    List.forall_mem_cons.mpr ⟨(cmdOk_of (fun h => (cmdCalSet_eff (h := h) ..).toAll) (by decide)),
    List.forall_mem_cons.mpr ⟨(cmdOk_of (fun h => (cmdPhaseQuery_eff (h := h) ..).toAll) (by decide)),
    List.forall_mem_nil _⟩⟩⟩⟩⟩⟩⟩⟩⟩⟩⟩⟩⟩⟩⟩⟩⟩⟩⟩⟩

theorem commands_ok5 : ∀ c ∈ [cmdModuleReset, cmdModuleStatus, cmdPowerCapSet], CmdOk c :=
  List.forall_mem_cons.mpr ⟨(cmdOk_of (fun h => (cmdModuleReset_eff (h := h) ..).toAll) (by decide)),
    List.forall_mem_cons.mpr ⟨(cmdOk_of (fun h => (cmdModuleStatus_eff (h := h) ..).toAll) (by decide)),
    List.forall_mem_cons.mpr ⟨(cmdOk_of (fun h => (cmdPowerCapSet_eff (h := h) ..).toAll) (by decide)),
    List.forall_mem_nil _⟩⟩⟩

theorem commands_ok : ∀ c ∈ commands, CmdOk c :=
  List.forall_mem_append.mpr ⟨List.forall_mem_append.mpr ⟨List.forall_mem_append.mpr ⟨List.forall_mem_append.mpr ⟨List.forall_mem_append.mpr ⟨commands_ok0, commands_ok1⟩, commands_ok2⟩, commands_ok3⟩, commands_ok4⟩, commands_ok5⟩

theorem cmdOf_ok {op : Nat} {c : Cmd} (h : cmdOf op = some c) : CmdOk c := commands_ok c (List.mem_of_find?_eq_some h)

theorem state_of_checks {c : Cmd} {p : Packet} {s : State} (h : checks c p s = .ok ()) : c.state p s = .ok () := by
  unfold checks at h
  obtain ⟨_, _, h⟩ := of_bind_ok h
  obtain ⟨_, _, h⟩ := of_bind_ok h
  obtain ⟨_, _, h⟩ := of_bind_ok h
  generalize c.state p s = z at h
  dsimp only [bind, Except.bind, fail] at h
  repeat' split at h
  all_goals first | exact h | cases h

theorem dispatch_all {c : Cmd} (hc : CmdOk c) (p : Packet) (s : State) : Eff allParts s (dispatch c p s) :=
  dispatch_eff1 (fun h _ _ hb => hc.body (hc.life (state_of_checks h)) hb)
    (fun h n _ _ hb => hc.body (fun e => by
      have hl := hc.life (state_of_checks h) e
      have hf : (takeBlocks s p.ctx n).fw = s.fw := by unfold takeBlocks; split <;> rfl
      rw [hf]; exact hl) hb) rfl (.inr rfl) (fun p s => (hc.spent p s).toAll)

theorem unstage_eff (s : State) (order : Nat) : Eff [.staged] s (unstage s order) := by
  unfold unstage
  repeat' (first
    | (with_reducible exact Eff.refl _ _)
    | dsimp only
    | (with_reducible apply Eff.of_rec (s := _))
    | (with_reducible exact .inl rfl)
    | exact .inr rfl
    | (with_reducible exact .inl ⟨rfl, rfl, rfl, rfl⟩))

theorem enterPass_eff (acc : State × List Entrant) (p : Packet) : Eff answering acc.1 (enterPass acc p).1 := by
  unfold enterPass
  split
  · exact ((unstage_eff ..).weaken rfl).step (reply_eff ..) rfl
  · next c hc =>
    split
    · exact (((unstage_eff ..).weaken rfl).step ((cmdOf_ok hc).spent ..) rfl).step (refuse_eff ..) rfl
    · exact Eff.refl _ _

theorem noteOverruled_eff (s : State) (winner loser : Entrant) : Eff [.staged] s (noteOverruled s winner loser) := by
  unfold noteOverruled
  repeat' (first
    | (with_reducible exact Eff.refl _ _)
    | dsimp only
    | split
    | (with_reducible apply Eff.of_rec (s := _))
    | (with_reducible exact .inl rfl)
    | exact .inr rfl
    | (with_reducible exact .inl ⟨rfl, rfl, rfl, rfl⟩))

theorem countOverruledSeal_eff (s : State) (tick : Nat) : Eff [.staged] s (countOverruledSeal s tick) := by
  unfold countOverruledSeal
  repeat' (first
    | (with_reducible exact Eff.refl _ _)
    | dsimp only
    | (with_reducible apply Eff.of_rec (s := _))
    | (with_reducible exact .inl rfl)
    | exact .inr rfl
    | (with_reducible exact .inl ⟨rfl, rfl, rfl, rfl⟩))

theorem overrule_eff (s : State) (x : Entrant × Entrant) : Eff (.gloves :: answering) s (overrule s x) := by
  unfold overrule
  repeat' (first
    | (with_reducible assumption)
    | (with_reducible exact Eff.refl _ _)
    | ((with_reducible show Eff _ _ (noteOverruled ..)); (with_reducible refine Eff.step ?_ (noteOverruled_eff ..) ?hc); case hc => rfl)
    | ((with_reducible show Eff _ _ (unstage ..)); (with_reducible refine Eff.step ?_ (unstage_eff ..) ?hc); case hc => rfl)
    | ((with_reducible show Eff _ _ (reply ..)); (with_reducible refine Eff.step ?_ (reply_eff ..) ?hc); case hc => rfl)
    | ((with_reducible show Eff _ _ (setGlove ..)); (with_reducible refine Eff.step ?_ (setGlove_eff_s _ _ _ (fun _ => by first | (with_reducible rfl) | ((try dsimp only); split <;> (with_reducible rfl)))) ?hc); case hc => rfl)
    | ((with_reducible show Eff _ _ (setGlove ..)); (with_reducible refine Eff.step ?_ (setGlove_eff_g _ _ _ (fun _ => by first | (with_reducible rfl) | ((try dsimp only); split <;> (with_reducible rfl)))) ?hc); case hc => rfl)
    | ((with_reducible show Eff _ _ (setGlove ..)); (with_reducible refine Eff.step ?_ (setGlove_eff _ _ _) ?hc); case hc => rfl)
    | ((with_reducible show Eff _ _ (countOverruledSeal ..)); (with_reducible refine Eff.step ?_ (countOverruledSeal_eff ..) ?hc); case hc => rfl)
    | (with_reducible refine Eff.mapGetD ?_ (fun k => ?_))
    | (with_reducible refine Eff.foldl ?_ (fun s x => ?_))
    | dsimp only
    | dsimp only [Option.getD_some, Option.getD_none]
    | split
    | simp only [List.length_map, length_mapIf, length_setAt])

theorem precedencePass_eff (s : State) (c : Nat) : Eff (.clock :: .keySlots :: .gloves :: .windows :: .casks :: .vintages :: answering) s (precedencePass s c) := by
  unfold precedencePass
  have h1 : Eff (.clock :: .keySlots :: .gloves :: .windows :: .casks :: .vintages :: answering) s ((cyclePackets s c).foldl enterPass (s, [])).1 :=
    Eff.foldl_fst (Eff.refl _ _) (fun acc p => (enterPass_eff ..).weaken rfl)
  generalize (cyclePackets s c).foldl enterPass (s, []) = d at h1 ⊢
  obtain ⟨s1, cands⟩ := d
  dsimp only at h1 ⊢
  generalize settle s1 _ _ = losers
  have h2 : Eff (.clock :: .keySlots :: .gloves :: .windows :: .casks :: .vintages :: answering) s (losers.foldl overrule s1) := Eff.foldl h1 (fun s x => (overrule_eff ..).weaken rfl)
  generalize losers.foldl overrule s1 = s2 at h2 ⊢
  have h3 : Eff (.clock :: .keySlots :: .gloves :: .windows :: .casks :: .vintages :: answering) s ((cycleSeals s2 c).foldl (fun s e =>
    match e with
    | .seal g v _ => takeClose s g v
    | _ => s) s2) := Eff.foldl h2 (fun s x => by
      split
      · exact (takeClose_eff ..).weaken rfl
      · exact Eff.refl _ _)
  generalize (cycleSeals s2 c).foldl _ s2 = s3 at h3 ⊢
  apply Eff.of_rec (s := s3) h3
  all_goals first | (with_reducible exact .inl rfl) | (with_reducible rfl) | (with_reducible exact .inl ⟨rfl, rfl, rfl, rfl⟩) | exact .inr rfl

theorem ensurePass_eff (s : State) (c : Nat) : Eff (.clock :: .keySlots :: .gloves :: .windows :: .casks :: .vintages :: answering) s (ensurePass s c) := by
  unfold ensurePass
  repeat' (first
    | (with_reducible exact Eff.refl _ _)
    | ((with_reducible show Eff _ _ (precedencePass ..)); (with_reducible refine Eff.step ?_ (precedencePass_eff ..) ?hc); case hc => rfl)
    | split)

theorem execContributionCloseDue_eff (glove vintage : Nat) (s : State) {t : State} (h : execContributionCloseDue glove vintage s = .next t) : Eff (.clock :: .keySlots :: .gloves :: .windows :: .casks :: .vintages :: answering) s t := by
  unfold execContributionCloseDue at h
  repeat' (first
    | (split at h)
    | (replace h := Host.Outcome.next.inj h; subst h))
  all_goals repeat' (first
    | (with_reducible exact Eff.refl _ _)
    | ((with_reducible show Eff _ _ (ensurePass ..)); (with_reducible refine Eff.step ?_ (ensurePass_eff ..) ?hc); case hc => rfl)
    | ((with_reducible show Eff _ _ (takeClose ..)); (with_reducible refine Eff.step ?_ (takeClose_eff ..) ?hc); case hc => rfl))

theorem dispatchPacket_eff (s : State) (p : Packet) : Eff (.hostMem :: .free :: booting) s (dispatchPacket s p) := by
  unfold dispatchPacket
  split
  · next c hc => exact ((unstage_eff ..).toAll).step (dispatch_all (cmdOk_timed (cmdOf_ok hc)) ..) rfl
  · exact ((unstage_eff ..).toAll).step (reply_eff ..).toAll rfl

theorem turnLoop_eff (ctx fuel left : Nat) (s : State) : Eff allParts s (turnLoop ctx fuel left s) := by
  induction fuel generalizing left s with
  | zero => exact Eff.refl _ _
  | succ n ih =>
    rw [turnLoop]
    split
    · exact Eff.refl _ _
    split
    · exact Eff.refl _ _
    split
    · exact (precedencePass_eff ..).toAll.step (ih ..) rfl
    · dsimp only
      split
      · exact Eff.refl _ _
      · exact (dispatchPacket_eff ..).toAll.step (ih ..) rfl

theorem resume_eff (s : State) (o : Outstanding) : Eff (.hostMem :: .free :: booting) s (resume s o) := by
  unfold resume
  split
  · exact Eff.refl _ _
  · next c hc =>
    have ok := cmdOf_ok hc
    dsimp only
    split
    · next hw =>
      split
      · exact (endTouched_eff ..).toAll
      · exact runBody_eff1 (fun t d hb => ok.complete hb) rfl (fun p s => (ok.spent p s).toAll)
    · split
      · exact ((abandon_eff ..).toAll).step (refuse_eff ..).toAll rfl
      · next h => exact runBody_eff1 (fun t d hb => ok.body (ok.life h) hb) rfl (fun p s => (ok.spent p s).toAll)

theorem resumeServed_eff (s : State) (ctx : Nat) : Eff (.hostMem :: .free :: booting) s (resumeServed s ctx) := by
  unfold resumeServed
  repeat' (first
    | (with_reducible assumption)
    | (with_reducible exact Eff.refl _ _)
    | (with_reducible refine unlessStalled_eff ?_ ?_)
    | ((with_reducible show Eff _ _ (resume ..)); (with_reducible refine Eff.step ?_ (resume_eff ..) ?hc); case hc => rfl)
    | (with_reducible refine Eff.mapGetD ?_ (fun k => ?_))
    | (with_reducible refine Eff.foldl ?_ (fun s x => ?_))
    | dsimp only
    | dsimp only [Option.getD_some, Option.getD_none]
    | split
    | simp only [List.length_map, length_mapIf, length_setAt])

theorem turnReplies_eff (s : State) (ctx : Nat) : Eff (.gloves :: .casks :: .vintages :: answering) s (turnReplies s ctx) := by
  unfold turnReplies
  repeat' (first
    | (with_reducible exact Eff.refl _ _)
    | ((with_reducible show Eff _ _ (resetReplies ..)); (with_reducible refine Eff.step ?_ (resetReplies_eff ..) ?hc); case hc => rfl)
    | split)

theorem execDispatchTurn_eff (ctx : Nat) (s : State) {t : State} (h : execDispatchTurn ctx s = .next t) : Eff (.hostMem :: .free :: booting) s t := by
  unfold execDispatchTurn at h
  split at h
  · replace h := Host.Outcome.next.inj h
    subst h
    exact (((turnReplies_eff ..).toAll.step (resumeServed_eff ..) rfl).step (turnLoop_eff ..) rfl).step (settleLedgers_eff _) rfl
  · replace h := Host.Outcome.next.inj h
    subst h
    exact Eff.refl _ _

theorem execGloveResetReplies_eff (glove : Nat) (s : State) {t : State} (h : execGloveResetReplies glove s = .next t) : Eff (.gloves :: .casks :: .vintages :: answering) s t := by
  unfold execGloveResetReplies at h
  repeat' (first
    | (split at h)
    | (replace h := Host.Outcome.next.inj h; subst h))
  all_goals repeat' (first
    | (with_reducible exact Eff.refl _ _)
    | ((with_reducible show Eff _ _ (turnReplies ..)); (with_reducible refine Eff.step ?_ (turnReplies_eff ..) ?hc); case hc => rfl))

theorem execLiveWaitTimeout_eff (wait : LiveWait) (s : State) {t : State} (h : execLiveWaitTimeout wait s = .next t) : Eff [.vectors, .side, .inject, .wire, .gloves, .sessions, .queues, .outstanding, .conns, .casks, .vintages] s t := by
  unfold execLiveWaitTimeout at h
  try dsimp only [bind, Except.bind, Except.map, pure, Except.pure, Option.map] at h
  repeat' (first
    | (split at h)
    | (replace h := ok_fst h; subst h)
    | (replace h := Except.ok.inj h; subst h)
    | (replace h := Host.Outcome.next.inj h; subst h)
    | (replace h := Option.some.inj h; subst h)
    | cases h
    | (dsimp only at h))
  all_goals repeat' (first
    | (with_reducible assumption)
    | (with_reducible exact Eff.refl _ _)
    | ((with_reducible show Eff _ _ (endTableWait ..)); (with_reducible refine Eff.step ?_ (endTableWait_eff ..) ?hc); case hc => rfl)
    | ((with_reducible show Eff _ _ (endWaiting ..)); (with_reducible refine Eff.step ?_ (endWaiting_eff ..) ?hc); case hc => rfl)
    | (with_reducible refine Eff.mapGetD ?_ (fun k => ?_))
    | (with_reducible refine Eff.foldl ?_ (fun s x => ?_))
    | dsimp only
    | dsimp only [Option.getD_some, Option.getD_none]
    | split
    | simp only [List.length_map, length_mapIf, length_setAt])

theorem fetchSideband_eff (bytes : List Byte) (cycle : Nat) (s : State) : Eff (.clock :: .gloves :: .casks :: .vintages :: answering) s (fetchSideband bytes cycle s) := by
  unfold fetchSideband
  repeat' (first
    | (with_reducible assumption)
    | (with_reducible exact Eff.refl _ _)
    | ((with_reducible show Eff _ _ (deliver ..)); (with_reducible refine Eff.step ?_ (deliver_eff ..) ?hc); case hc => rfl)
    | ((with_reducible show Eff _ _ (serialize ..)); (with_reducible refine Eff.step ?_ (serialize_eff ..) ?hc); case hc => rfl)
    | (with_reducible refine Eff.mapGetD ?_ (fun k => ?_))
    | (with_reducible refine Eff.foldl ?_ (fun s x => ?_))
    | dsimp only
    | dsimp only [Option.getD_some, Option.getD_none]
    | split
    | simp only [List.length_map, length_mapIf, length_setAt])

theorem releaseSideband_eff (s : State) : Eff (.clock :: .gloves :: .casks :: .vintages :: answering) s (releaseSideband s) := by
  unfold releaseSideband
  repeat' (first
    | (with_reducible assumption)
    | (with_reducible exact Eff.refl _ _)
    | ((with_reducible show Eff _ _ (fetchSideband ..)); (with_reducible refine Eff.step ?_ (fetchSideband_eff ..) ?hc); case hc => rfl)
    | (with_reducible refine Eff.mapGetD ?_ (fun k => ?_))
    | (with_reducible refine Eff.foldl ?_ (fun s x => ?_))
    | dsimp only
    | dsimp only [Option.getD_some, Option.getD_none]
    | split
    | (with_reducible apply Eff.of_rec (s := _))
    | (with_reducible exact .inl rfl)
    | (with_reducible rfl)
    | exact .inr rfl
    | (with_reducible exact .inl ⟨rfl, rfl, rfl, rfl⟩)
    | (with_reducible exact .inl (map_map_keep (fun _ => by first | rfl | ((try dsimp only); split <;> rfl))))
    | simp only [List.length_map, length_mapIf, length_setAt]
    | exact .inr ⟨rfl, by first | exact id | simp only [length_setAt, length_mapIf]⟩
    | exact .inr ⟨rfl, fun h => all_filter h⟩
    | exact .inr ⟨rfl, fun h => wf_set h _ _⟩
    | exact .inr ⟨rfl, fun h => wf_writeN h _ _⟩)

theorem serveSideband_eff (s : State) (p : Packet) : Eff (.hostMem :: .free :: booting) s (serveSideband s p) := by
  unfold serveSideband
  split
  · next c hc => exact dispatch_all (cmdOf_ok hc) ..
  · exact (deliver_eff ..).toAll

theorem execSidebandPacket_eff (bytes : List Byte) (cycle : Nat) (s : State) {t : State} (h : execSidebandPacket bytes cycle s = .next t) : Eff (.hostMem :: .free :: booting) s t := by
  unfold execSidebandPacket at h
  try dsimp only [bind, Except.bind, Except.map, pure, Except.pure, Option.map] at h
  repeat' (first
    | (split at h)
    | (replace h := ok_fst h; subst h)
    | (replace h := Except.ok.inj h; subst h)
    | (replace h := Host.Outcome.next.inj h; subst h)
    | (replace h := Option.some.inj h; subst h)
    | cases h
    | (dsimp only at h))
  all_goals repeat' (first
    | (with_reducible assumption)
    | (with_reducible exact Eff.refl _ _)
    | ((with_reducible show Eff _ _ (deliver ..)); (with_reducible refine Eff.step ?_ (deliver_eff ..) ?hc); case hc => rfl)
    | ((with_reducible show Eff _ _ (serveSideband ..)); (with_reducible refine Eff.step ?_ (serveSideband_eff ..) ?hc); case hc => rfl)
    | ((with_reducible show Eff _ _ (fetchSideband ..)); (with_reducible refine Eff.step ?_ (fetchSideband_eff ..) ?hc); case hc => rfl)
    | (with_reducible refine Eff.mapGetD ?_ (fun k => ?_))
    | (with_reducible refine Eff.foldl ?_ (fun s x => ?_))
    | dsimp only
    | dsimp only [Option.getD_some, Option.getD_none]
    | split
    | (with_reducible apply Eff.of_rec (s := _))
    | (with_reducible exact .inl rfl)
    | (with_reducible rfl)
    | exact .inr rfl
    | (with_reducible exact .inl ⟨rfl, rfl, rfl, rfl⟩)
    | (with_reducible exact .inl (map_map_keep (fun _ => by first | rfl | ((try dsimp only); split <;> rfl))))
    | simp only [List.length_map, length_mapIf, length_setAt]
    | exact .inr ⟨rfl, by first | exact id | simp only [length_setAt, length_mapIf]⟩
    | exact .inr ⟨rfl, fun h => all_filter h⟩
    | exact .inr ⟨rfl, fun h => wf_set h _ _⟩
    | exact .inr ⟨rfl, fun h => wf_writeN h _ _⟩)

theorem execFullResetReady_eff (s : State) {t : State} (h : execFullResetReady s = .next t) : Eff (.clock :: .cm :: .pwr :: .hostPort :: .int :: .gloves :: .casks :: .vintages :: .free :: answering) s t := by
  unfold execFullResetReady at h
  split at h
  · have h := Host.Outcome.next.inj h
    subst h
    dsimp only
    refine Eff.step ?_ (releaseSideband_eff _) rfl
    have h1 : Eff [.vectors, .int, .sessions, .queues, .free] s ((List.range 8).foldl startupBist s) :=
      Eff.foldl (Eff.refl _ _) (fun s x => startupBist_eff ..)
    generalize (List.range 8).foldl startupBist s = s1 at h1 ⊢
    have h2 : ∀ f : Vat → Vat, Eff [.int] s1 { s1 with int := { s1.int with vats := s1.int.vats.map f } } := fun f => by
      apply Eff.of_rec (s := s1) (Eff.refl _ _)
      all_goals first | (with_reducible exact .inl rfl) | (with_reducible rfl) | exact .inr rfl | (with_reducible exact .inl ⟨rfl, rfl, rfl, rfl⟩) | exact .inr ⟨rfl, List.length_map ..⟩
    have h3 := ((h1.step (h2 (fun v => { v with out := !(v.state == .active || v.state == .joining), shadows := 0 })) rfl).step
      (settleVats_eff _) rfl).step (startScan_eff _) rfl
    refine Eff.step (a := [.pwr, .cm, .hostPort]) (h3.weaken rfl) ?_ rfl
    generalize startScan _ = s3
    apply Eff.of_rec (s := s3) (Eff.refl _ _)
    all_goals first | (with_reducible exact .inl rfl) | (with_reducible rfl) | exact .inr rfl | (with_reducible exact .inl ⟨rfl, rfl, rfl, rfl⟩)
  · have h := Host.Outcome.next.inj h; subst h; exact Eff.refl _ _

theorem cmEvent_eff (s : State) (code : Nat) (st : Status) (replies redispatched duration : Nat) : Eff [.vectors, .sessions, .queues] s (cmEvent s code st replies redispatched duration) := by
  unfold cmEvent
  repeat' (first
    | (with_reducible exact Eff.refl _ _)
    | ((with_reducible show Eff _ _ (postEvent ..)); (with_reducible refine Eff.step ?_ (postEvent_eff ..) ?hc); case hc => rfl))

theorem haltCm_eff (s : State) : Eff (.cm :: answering) s (haltCm s) := by
  unfold haltCm
  repeat' (first
    | (with_reducible assumption)
    | (with_reducible exact Eff.refl _ _)
    | ((with_reducible show Eff _ _ (cmEvent ..)); (with_reducible refine Eff.step ?_ (cmEvent_eff ..) ?hc); case hc => rfl)
    | ((with_reducible show Eff _ _ (deliver ..)); (with_reducible refine Eff.step ?_ (deliver_eff ..) ?hc); case hc => rfl)
    | (with_reducible refine Eff.mapGetD ?_ (fun k => ?_))
    | (with_reducible refine Eff.foldl ?_ (fun s x => ?_))
    | dsimp only
    | dsimp only [Option.getD_some, Option.getD_none]
    | split
    | (with_reducible apply Eff.of_rec (s := _))
    | (with_reducible exact .inl rfl)
    | (with_reducible rfl)
    | exact .inr rfl
    | (with_reducible exact .inl ⟨rfl, rfl, rfl, rfl⟩)
    | (with_reducible exact .inl (map_map_keep (fun _ => by first | rfl | ((try dsimp only); split <;> rfl))))
    | simp only [List.length_map, length_mapIf, length_setAt]
    | exact .inr ⟨rfl, by first | exact id | simp only [length_setAt, length_mapIf]⟩
    | exact .inr ⟨rfl, fun h => all_filter h⟩
    | exact .inr ⟨rfl, fun h => wf_set h _ _⟩
    | exact .inr ⟨rfl, fun h => wf_writeN h _ _⟩)

theorem faultCm_eff (s : State) (cause : Nat) : Eff (.cm :: .int :: answering) s (faultCm s cause) := by
  unfold faultCm
  repeat' (first
    | (with_reducible assumption)
    | (with_reducible exact Eff.refl _ _)
    | ((with_reducible show Eff _ _ (haltCm ..)); (with_reducible refine Eff.step ?_ (haltCm_eff ..) ?hc); case hc => rfl)
    | ((with_reducible show Eff _ _ (addRecord ..)); (with_reducible refine Eff.step ?_ (addRecord_eff ..) ?hc); case hc => rfl)
    | (with_reducible refine Eff.mapGetD ?_ (fun k => ?_))
    | (with_reducible refine Eff.foldl ?_ (fun s x => ?_))
    | dsimp only
    | dsimp only [Option.getD_some, Option.getD_none]
    | split
    | (with_reducible apply Eff.of_rec (s := _))
    | (with_reducible exact .inl rfl)
    | (with_reducible rfl)
    | exact .inr rfl
    | (with_reducible exact .inl ⟨rfl, rfl, rfl, rfl⟩)
    | (with_reducible exact .inl (map_map_keep (fun _ => by first | rfl | ((try dsimp only); split <;> rfl))))
    | simp only [List.length_map, length_mapIf, length_setAt]
    | exact .inr ⟨rfl, by first | exact id | simp only [length_setAt, length_mapIf]⟩
    | exact .inr ⟨rfl, fun h => all_filter h⟩
    | exact .inr ⟨rfl, fun h => wf_set h _ _⟩
    | exact .inr ⟨rfl, fun h => wf_writeN h _ _⟩)

theorem execCmFault_eff (cause : CmCause) (s : State) {t : State} (h : execCmFault cause s = .next t) : Eff (.cm :: .int :: answering) s t := by
  unfold execCmFault at h
  try dsimp only [bind, Except.bind, Except.map, pure, Except.pure, Option.map] at h
  repeat' (first
    | (split at h)
    | (replace h := ok_fst h; subst h)
    | (replace h := Except.ok.inj h; subst h)
    | (replace h := Host.Outcome.next.inj h; subst h)
    | (replace h := Option.some.inj h; subst h)
    | cases h
    | (dsimp only at h))
  all_goals repeat' (first
    | (with_reducible assumption)
    | (with_reducible exact Eff.refl _ _)
    | ((with_reducible show Eff _ _ (faultCm ..)); (with_reducible refine Eff.step ?_ (faultCm_eff ..) ?hc); case hc => rfl)
    | (with_reducible refine Eff.mapGetD ?_ (fun k => ?_))
    | (with_reducible refine Eff.foldl ?_ (fun s x => ?_))
    | dsimp only
    | dsimp only [Option.getD_some, Option.getD_none]
    | split
    | simp only [List.length_map, length_mapIf, length_setAt])

theorem execWatchdogExpire_eff (s : State) {t : State} (h : execWatchdogExpire s = .next t) : Eff (.cm :: .int :: answering) s t := by
  unfold execWatchdogExpire at h
  try dsimp only [bind, Except.bind, Except.map, pure, Except.pure, Option.map] at h
  repeat' (first
    | (replace h := Host.Outcome.next.inj h; subst h))
  all_goals repeat' (first
    | (with_reducible exact Eff.refl _ _)
    | ((with_reducible show Eff _ _ (faultCm ..)); (with_reducible refine Eff.step ?_ (faultCm_eff ..) ?hc); case hc => rfl))

theorem execCmEccCorrected_eff (s : State) {t : State} (h : execCmEccCorrected s = .next t) : Eff [.cm] s t := by
  unfold execCmEccCorrected at h
  try dsimp only [bind, Except.bind, Except.map, pure, Except.pure, Option.map] at h
  repeat' (first
    | (split at h)
    | (replace h := ok_fst h; subst h)
    | (replace h := Except.ok.inj h; subst h)
    | (replace h := Host.Outcome.next.inj h; subst h)
    | (replace h := Option.some.inj h; subst h)
    | cases h
    | (dsimp only at h))
  all_goals repeat' (first
    | (with_reducible assumption)
    | (with_reducible exact Eff.refl _ _)
    | (with_reducible refine Eff.mapGetD ?_ (fun k => ?_))
    | (with_reducible refine Eff.foldl ?_ (fun s x => ?_))
    | dsimp only
    | dsimp only [Option.getD_some, Option.getD_none]
    | split
    | (with_reducible apply Eff.of_rec (s := _))
    | (with_reducible exact .inl rfl)
    | (with_reducible rfl)
    | exact .inr rfl
    | (with_reducible exact .inl ⟨rfl, rfl, rfl, rfl⟩)
    | (with_reducible exact .inl (map_map_keep (fun _ => by first | rfl | ((try dsimp only); split <;> rfl))))
    | simp only [List.length_map, length_mapIf, length_setAt]
    | exact .inr ⟨rfl, by first | exact id | simp only [length_setAt, length_mapIf]⟩
    | exact .inr ⟨rfl, fun h => all_filter h⟩
    | exact .inr ⟨rfl, fun h => wf_set h _ _⟩
    | exact .inr ⟨rfl, fun h => wf_writeN h _ _⟩)

theorem postStored_eff (s : State) (o : Outstanding) : Eff [.vectors, .side, .inject, .wire, .sessions, .queues, .outstanding, .conns] s (postStored s o) := by
  unfold postStored
  repeat' (first
    | (with_reducible assumption)
    | (with_reducible exact Eff.refl _ _)
    | ((with_reducible show Eff _ _ (settleDestroys ..)); (with_reducible refine Eff.step ?_ (settleDestroys_eff ..) ?hc); case hc => rfl)
    | ((with_reducible show Eff _ _ (deliver ..)); (with_reducible refine Eff.step ?_ (deliver_eff ..) ?hc); case hc => rfl)
    | ((with_reducible show Eff _ _ (dropOutstanding ..)); (with_reducible refine Eff.step ?_ (dropOutstanding_eff ..) ?hc); case hc => rfl)
    | (with_reducible refine Eff.mapGetD ?_ (fun k => ?_))
    | (with_reducible refine Eff.foldl ?_ (fun s x => ?_))
    | dsimp only
    | dsimp only [Option.getD_some, Option.getD_none]
    | split
    | simp only [List.length_map, length_mapIf, length_setAt])

theorem performAgain_eff (s : State) (o : Outstanding) : Eff (.hostMem :: .free :: booting) s (performAgain s o) := by
  unfold performAgain
  split
  · next c hc =>
    exact (((abandon_eff ..).toAll).step (dropOutstanding_eff ..).toAll rfl).step (dispatch_all (cmdOk_timed (cmdOf_ok hc)) ..) rfl
  · exact Eff.refl _ _

theorem execCmRestartDone_eff (durationUs : Nat) (s : State) {t : State} (h : execCmRestartDone durationUs s = .next t) : Eff (.hostMem :: .free :: booting) s t := by
  unfold execCmRestartDone at h
  try dsimp only [bind, Except.bind, Except.map, pure, Except.pure, Option.map] at h
  repeat' (first
    | (split at h)
    | (replace h := ok_fst h; subst h)
    | (replace h := Except.ok.inj h; subst h)
    | (replace h := Host.Outcome.next.inj h; subst h)
    | (replace h := Option.some.inj h; subst h)
    | cases h
    | (dsimp only at h))
  all_goals repeat' (first
    | (with_reducible assumption)
    | (with_reducible exact Eff.refl _ _)
    | ((with_reducible show Eff _ _ (performAgain ..)); (with_reducible refine Eff.step ?_ (performAgain_eff ..) ?hc); case hc => rfl)
    | ((with_reducible show Eff _ _ (postStored ..)); (with_reducible refine Eff.step ?_ (postStored_eff ..) ?hc); case hc => rfl)
    | ((with_reducible show Eff _ _ (releaseSideband ..)); (with_reducible refine Eff.step ?_ (releaseSideband_eff ..) ?hc); case hc => rfl)
    | ((with_reducible show Eff _ _ (cmEvent ..)); (with_reducible refine Eff.step ?_ (cmEvent_eff ..) ?hc); case hc => rfl)
    | (with_reducible refine Eff.mapGetD ?_ (fun k => ?_))
    | (with_reducible refine Eff.foldl ?_ (fun s x => ?_))
    | dsimp only
    | dsimp only [Option.getD_some, Option.getD_none]
    | split
    | (with_reducible apply Eff.of_rec (s := _))
    | (with_reducible exact .inl rfl)
    | (with_reducible rfl)
    | exact .inr rfl
    | (with_reducible exact .inl ⟨rfl, rfl, rfl, rfl⟩)
    | (with_reducible exact .inl (map_map_keep (fun _ => by first | rfl | ((try dsimp only); split <;> rfl))))
    | simp only [List.length_map, length_mapIf, length_setAt]
    | exact .inr ⟨rfl, by first | exact id | simp only [length_setAt, length_mapIf]⟩
    | exact .inr ⟨rfl, fun h => all_filter h⟩
    | exact .inr ⟨rfl, fun h => wf_set h _ _⟩
    | exact .inr ⟨rfl, fun h => wf_writeN h _ _⟩)

end Sys2Proof.Machine
end

