-- ==== Sys2Proof/Laws/Memory.lean ====
section
/-! SUPPORT. What a byte of a canonical memory reads as after a block of bytes is written, and after a range is
cleared; and the generations and incarnations of R120 and R135, which have the same form. -/

set_option autoImplicit false
set_option Elab.async false

namespace Sys2Proof.Machine

/-- A byte inside the written block reads as the byte written there, every other one as before. -/
theorem read_writeN {m : List (Nat × Byte)} (h : Memory.wf m = true) (a : Nat) (bs : List Byte) (x : Nat) :
    Memory.read (Memory.writeN m a bs) x = if a ≤ x ∧ x < a + bs.length then bs.getD (x - a) 0 else Memory.read m x := by
  induction bs generalizing m a with
  | nil => simp [Memory.writeN]
  | cons b bs ih =>
    rw [Memory.writeN, ih (wf_write h a b), read_write h]
    by_cases hx : x = a
    · subst hx; rw [if_neg (by omega)]; simp
    · by_cases h1 : a + 1 ≤ x ∧ x < a + 1 + bs.length
      · have h2 : a ≤ x ∧ x < a + (b :: bs).length := by simp; omega
        rw [if_pos h1, if_pos h2]
        obtain ⟨k, rfl⟩ : ∃ k, x = a + 1 + k := ⟨x - (a + 1), by omega⟩
        have : a + 1 + k - a = k + 1 := by omega
        simp [this]
      · have h2 : ¬ (a ≤ x ∧ x < a + (b :: bs).length) := by simp; omega
        rw [if_neg h1, if_neg h2, if_neg hx]

theorem readN_eq {m : List (Nat × Byte)} (a n : Nat) : Memory.readN m a n = (List.range n).map (fun i => Memory.read m (a + i)) := by
  induction n generalizing a with
  | zero => rfl
  | succ n ih =>
    rw [Memory.readN, ih, List.range_succ_eq_map]
    simp [Function.comp_def, Nat.add_assoc, Nat.add_comm 1]

/-- What is listed outside the kept addresses reads as nothing listed. -/
theorem cellGet_filter {m : List (Nat × Byte)} (lo : Nat) (f : Nat → Bool) (h : cellWfFrom 0 lo m = true) (x : Nat) :
    cellGet 0 (m.filter (fun c => f c.1)) x = if f x then cellGet 0 m x else 0 := by
  induction m generalizing lo with
  | nil => simp [cellGet]
  | cons e m ih =>
    obtain ⟨k, v⟩ := e
    simp only [cellWfFrom, Bool.and_eq_true, decide_eq_true_eq] at h
    simp only [List.filter_cons]
    by_cases hk : f k = true
    · rw [if_pos hk]
      simp only [cellGet]
      by_cases h1 : x = k
      · subst h1; simp [hk]
      · by_cases h2 : x < k
        · simp [h1, h2]
        · simp only [h1, h2, if_false]; exact ih _ h.2
    · rw [if_neg hk, ih _ h.2]
      by_cases h1 : x = k
      · subst h1; simp [hk]
      · by_cases h2 : x < k
        · simp only [cellGet, h1, h2, if_false, if_true]
          rw [cellGet_below h.2 (by omega)]
        · simp [cellGet, h1, h2]

theorem sparse_get_set {m : List (Nat × Nat)} (h : Sparse.wf m = true) (a v x : Nat) :
    Sparse.get (Sparse.set m a v) x = if x = a then v else Sparse.get m x := cellGet_cellSet m 0 a x v h

end Sys2Proof.Machine
end

