-- ==== Sys2Proof/Laws/State.lean ====
section
/-! SUPPORT. One lemma for each field and each update of the state, so that no later proof unfolds a record update. -/

set_option autoImplicit false
set_option Elab.async false

namespace Sys2Proof.Machine

/-! ### setGlove -/

section
variable (s : State) (g : Nat) (f : Glove → Glove)
@[simp] theorem setGlove_pending : (setGlove s g f).pending = s.pending := rfl
@[simp] theorem setGlove_clock : (setGlove s g f).clock = s.clock := rfl
@[simp] theorem setGlove_cm : (setGlove s g f).cm = s.cm := rfl
@[simp] theorem setGlove_cal : (setGlove s g f).cal = s.cal := rfl
@[simp] theorem setGlove_pwr : (setGlove s g f).pwr = s.pwr := rfl
@[simp] theorem setGlove_host : (setGlove s g f).host = s.host := rfl
@[simp] theorem setGlove_side : (setGlove s g f).side = s.side := rfl
@[simp] theorem setGlove_net : (setGlove s g f).net = s.net := rfl
@[simp] theorem setGlove_ent : (setGlove s g f).ent = s.ent := rfl
@[simp] theorem setGlove_keys : (setGlove s g f).keys = s.keys := rfl
@[simp] theorem setGlove_fw : (setGlove s g f).fw = s.fw := rfl
@[simp] theorem setGlove_int : (setGlove s g f).int = s.int := rfl
@[simp] theorem setGlove_gloves : (setGlove s g f).gloves = setAt s.gloves g f := rfl
@[simp] theorem setGlove_queues : (setGlove s g f).queues = s.queues := rfl
@[simp] theorem setGlove_staged : (setGlove s g f).staged = s.staged := rfl
@[simp] theorem setGlove_outstanding : (setGlove s g f).outstanding = s.outstanding := rfl
@[simp] theorem setGlove_windows : (setGlove s g f).windows = s.windows := rfl
@[simp] theorem setGlove_revokedWins : (setGlove s g f).revokedWins = s.revokedWins := rfl
@[simp] theorem setGlove_gens : (setGlove s g f).gens = s.gens := rfl
@[simp] theorem setGlove_conns : (setGlove s g f).conns = s.conns := rfl
@[simp] theorem setGlove_incs : (setGlove s g f).incs = s.incs := rfl
@[simp] theorem setGlove_casks : (setGlove s g f).casks = s.casks := rfl
@[simp] theorem setGlove_spill : (setGlove s g f).spill = s.spill := rfl
@[simp] theorem setGlove_vintages : (setGlove s g f).vintages = s.vintages := rfl
@[simp] theorem setGlove_free : (setGlove s g f).free = s.free := rfl
end

/-! ### setQueue -/

section
variable (s : State) (q : Nat) (f : Queue → Queue)
@[simp] theorem setQueue_pending : (setQueue s q f).pending = s.pending := rfl
@[simp] theorem setQueue_clock : (setQueue s q f).clock = s.clock := rfl
@[simp] theorem setQueue_cm : (setQueue s q f).cm = s.cm := rfl
@[simp] theorem setQueue_cal : (setQueue s q f).cal = s.cal := rfl
@[simp] theorem setQueue_pwr : (setQueue s q f).pwr = s.pwr := rfl
@[simp] theorem setQueue_host : (setQueue s q f).host = s.host := rfl
@[simp] theorem setQueue_side : (setQueue s q f).side = s.side := rfl
@[simp] theorem setQueue_net : (setQueue s q f).net = s.net := rfl
@[simp] theorem setQueue_ent : (setQueue s q f).ent = s.ent := rfl
@[simp] theorem setQueue_keys : (setQueue s q f).keys = s.keys := rfl
@[simp] theorem setQueue_fw : (setQueue s q f).fw = s.fw := rfl
@[simp] theorem setQueue_int : (setQueue s q f).int = s.int := rfl
@[simp] theorem setQueue_gloves : (setQueue s q f).gloves = s.gloves := rfl
@[simp] theorem setQueue_queues : (setQueue s q f).queues = mapIf (fun x => x.id == q) f s.queues := rfl
@[simp] theorem setQueue_staged : (setQueue s q f).staged = s.staged := rfl
@[simp] theorem setQueue_outstanding : (setQueue s q f).outstanding = s.outstanding := rfl
@[simp] theorem setQueue_windows : (setQueue s q f).windows = s.windows := rfl
@[simp] theorem setQueue_revokedWins : (setQueue s q f).revokedWins = s.revokedWins := rfl
@[simp] theorem setQueue_gens : (setQueue s q f).gens = s.gens := rfl
@[simp] theorem setQueue_conns : (setQueue s q f).conns = s.conns := rfl
@[simp] theorem setQueue_incs : (setQueue s q f).incs = s.incs := rfl
@[simp] theorem setQueue_casks : (setQueue s q f).casks = s.casks := rfl
@[simp] theorem setQueue_spill : (setQueue s q f).spill = s.spill := rfl
@[simp] theorem setQueue_vintages : (setQueue s q f).vintages = s.vintages := rfl
@[simp] theorem setQueue_free : (setQueue s q f).free = s.free := rfl
end

/-! ### setConn -/

section
variable (s : State) (c : Nat) (f : Conn → Conn)
@[simp] theorem setConn_pending : (setConn s c f).pending = s.pending := rfl
@[simp] theorem setConn_clock : (setConn s c f).clock = s.clock := rfl
@[simp] theorem setConn_cm : (setConn s c f).cm = s.cm := rfl
@[simp] theorem setConn_cal : (setConn s c f).cal = s.cal := rfl
@[simp] theorem setConn_pwr : (setConn s c f).pwr = s.pwr := rfl
@[simp] theorem setConn_host : (setConn s c f).host = s.host := rfl
@[simp] theorem setConn_side : (setConn s c f).side = s.side := rfl
@[simp] theorem setConn_net : (setConn s c f).net = s.net := rfl
@[simp] theorem setConn_ent : (setConn s c f).ent = s.ent := rfl
@[simp] theorem setConn_keys : (setConn s c f).keys = s.keys := rfl
@[simp] theorem setConn_fw : (setConn s c f).fw = s.fw := rfl
@[simp] theorem setConn_int : (setConn s c f).int = s.int := rfl
@[simp] theorem setConn_gloves : (setConn s c f).gloves = s.gloves := rfl
@[simp] theorem setConn_queues : (setConn s c f).queues = s.queues := rfl
@[simp] theorem setConn_staged : (setConn s c f).staged = s.staged := rfl
@[simp] theorem setConn_outstanding : (setConn s c f).outstanding = s.outstanding := rfl
@[simp] theorem setConn_windows : (setConn s c f).windows = s.windows := rfl
@[simp] theorem setConn_revokedWins : (setConn s c f).revokedWins = s.revokedWins := rfl
@[simp] theorem setConn_gens : (setConn s c f).gens = s.gens := rfl
@[simp] theorem setConn_conns : (setConn s c f).conns = mapIf (fun x => x.id == c) f s.conns := rfl
@[simp] theorem setConn_incs : (setConn s c f).incs = s.incs := rfl
@[simp] theorem setConn_casks : (setConn s c f).casks = s.casks := rfl
@[simp] theorem setConn_spill : (setConn s c f).spill = s.spill := rfl
@[simp] theorem setConn_vintages : (setConn s c f).vintages = s.vintages := rfl
@[simp] theorem setConn_free : (setConn s c f).free = s.free := rfl
end

/-! ### setWindow -/

section
variable (s : State) (i : Nat) (f : Window → Window)
@[simp] theorem setWindow_pending : (setWindow s i f).pending = s.pending := rfl
@[simp] theorem setWindow_clock : (setWindow s i f).clock = s.clock := rfl
@[simp] theorem setWindow_cm : (setWindow s i f).cm = s.cm := rfl
@[simp] theorem setWindow_cal : (setWindow s i f).cal = s.cal := rfl
@[simp] theorem setWindow_pwr : (setWindow s i f).pwr = s.pwr := rfl
@[simp] theorem setWindow_host : (setWindow s i f).host = s.host := rfl
@[simp] theorem setWindow_side : (setWindow s i f).side = s.side := rfl
@[simp] theorem setWindow_net : (setWindow s i f).net = s.net := rfl
@[simp] theorem setWindow_ent : (setWindow s i f).ent = s.ent := rfl
@[simp] theorem setWindow_keys : (setWindow s i f).keys = s.keys := rfl
@[simp] theorem setWindow_fw : (setWindow s i f).fw = s.fw := rfl
@[simp] theorem setWindow_int : (setWindow s i f).int = s.int := rfl
@[simp] theorem setWindow_gloves : (setWindow s i f).gloves = s.gloves := rfl
@[simp] theorem setWindow_queues : (setWindow s i f).queues = s.queues := rfl
@[simp] theorem setWindow_staged : (setWindow s i f).staged = s.staged := rfl
@[simp] theorem setWindow_outstanding : (setWindow s i f).outstanding = s.outstanding := rfl
@[simp] theorem setWindow_windows : (setWindow s i f).windows = mapIf (fun x => x.index == i) f s.windows := rfl
@[simp] theorem setWindow_revokedWins : (setWindow s i f).revokedWins = s.revokedWins := rfl
@[simp] theorem setWindow_gens : (setWindow s i f).gens = s.gens := rfl
@[simp] theorem setWindow_conns : (setWindow s i f).conns = s.conns := rfl
@[simp] theorem setWindow_incs : (setWindow s i f).incs = s.incs := rfl
@[simp] theorem setWindow_casks : (setWindow s i f).casks = s.casks := rfl
@[simp] theorem setWindow_spill : (setWindow s i f).spill = s.spill := rfl
@[simp] theorem setWindow_vintages : (setWindow s i f).vintages = s.vintages := rfl
@[simp] theorem setWindow_free : (setWindow s i f).free = s.free := rfl
end

/-! ### setCask -/

section
variable (s : State) (g c : Nat) (f : Cask → Cask)
@[simp] theorem setCask_pending : (setCask s g c f).pending = s.pending := rfl
@[simp] theorem setCask_clock : (setCask s g c f).clock = s.clock := rfl
@[simp] theorem setCask_cm : (setCask s g c f).cm = s.cm := rfl
@[simp] theorem setCask_cal : (setCask s g c f).cal = s.cal := rfl
@[simp] theorem setCask_pwr : (setCask s g c f).pwr = s.pwr := rfl
@[simp] theorem setCask_host : (setCask s g c f).host = s.host := rfl
@[simp] theorem setCask_side : (setCask s g c f).side = s.side := rfl
@[simp] theorem setCask_net : (setCask s g c f).net = s.net := rfl
@[simp] theorem setCask_ent : (setCask s g c f).ent = s.ent := rfl
@[simp] theorem setCask_keys : (setCask s g c f).keys = s.keys := rfl
@[simp] theorem setCask_fw : (setCask s g c f).fw = s.fw := rfl
@[simp] theorem setCask_int : (setCask s g c f).int = s.int := rfl
@[simp] theorem setCask_gloves : (setCask s g c f).gloves = s.gloves := rfl
@[simp] theorem setCask_queues : (setCask s g c f).queues = s.queues := rfl
@[simp] theorem setCask_staged : (setCask s g c f).staged = s.staged := rfl
@[simp] theorem setCask_outstanding : (setCask s g c f).outstanding = s.outstanding := rfl
@[simp] theorem setCask_windows : (setCask s g c f).windows = s.windows := rfl
@[simp] theorem setCask_revokedWins : (setCask s g c f).revokedWins = s.revokedWins := rfl
@[simp] theorem setCask_gens : (setCask s g c f).gens = s.gens := rfl
@[simp] theorem setCask_conns : (setCask s g c f).conns = s.conns := rfl
@[simp] theorem setCask_incs : (setCask s g c f).incs = s.incs := rfl
@[simp] theorem setCask_casks : (setCask s g c f).casks = mapIf (fun x => x.glove == g && x.id == c) f s.casks := rfl
@[simp] theorem setCask_spill : (setCask s g c f).spill = s.spill := rfl
@[simp] theorem setCask_vintages : (setCask s g c f).vintages = s.vintages := rfl
@[simp] theorem setCask_free : (setCask s g c f).free = s.free := rfl
end

/-! ### setVintage -/

section
variable (s : State) (g v : Nat) (f : Vintage → Vintage)
@[simp] theorem setVintage_pending : (setVintage s g v f).pending = s.pending := rfl
@[simp] theorem setVintage_clock : (setVintage s g v f).clock = s.clock := rfl
@[simp] theorem setVintage_cm : (setVintage s g v f).cm = s.cm := rfl
@[simp] theorem setVintage_cal : (setVintage s g v f).cal = s.cal := rfl
@[simp] theorem setVintage_pwr : (setVintage s g v f).pwr = s.pwr := rfl
@[simp] theorem setVintage_host : (setVintage s g v f).host = s.host := rfl
@[simp] theorem setVintage_side : (setVintage s g v f).side = s.side := rfl
@[simp] theorem setVintage_net : (setVintage s g v f).net = s.net := rfl
@[simp] theorem setVintage_ent : (setVintage s g v f).ent = s.ent := rfl
@[simp] theorem setVintage_keys : (setVintage s g v f).keys = s.keys := rfl
@[simp] theorem setVintage_fw : (setVintage s g v f).fw = s.fw := rfl
@[simp] theorem setVintage_int : (setVintage s g v f).int = s.int := rfl
@[simp] theorem setVintage_gloves : (setVintage s g v f).gloves = s.gloves := rfl
@[simp] theorem setVintage_queues : (setVintage s g v f).queues = s.queues := rfl
@[simp] theorem setVintage_staged : (setVintage s g v f).staged = s.staged := rfl
@[simp] theorem setVintage_outstanding : (setVintage s g v f).outstanding = s.outstanding := rfl
@[simp] theorem setVintage_windows : (setVintage s g v f).windows = s.windows := rfl
@[simp] theorem setVintage_revokedWins : (setVintage s g v f).revokedWins = s.revokedWins := rfl
@[simp] theorem setVintage_gens : (setVintage s g v f).gens = s.gens := rfl
@[simp] theorem setVintage_conns : (setVintage s g v f).conns = s.conns := rfl
@[simp] theorem setVintage_incs : (setVintage s g v f).incs = s.incs := rfl
@[simp] theorem setVintage_casks : (setVintage s g v f).casks = s.casks := rfl
@[simp] theorem setVintage_spill : (setVintage s g v f).spill = s.spill := rfl
@[simp] theorem setVintage_vintages : (setVintage s g v f).vintages = mapIf (fun x => x.glove == g && x.id == v) f s.vintages := rfl
@[simp] theorem setVintage_free : (setVintage s g v f).free = s.free := rfl
end

/-! ### setVat -/

section
variable (s : State) (v : Nat) (f : Vat → Vat)
@[simp] theorem setVat_pending : (setVat s v f).pending = s.pending := rfl
@[simp] theorem setVat_clock : (setVat s v f).clock = s.clock := rfl
@[simp] theorem setVat_cm : (setVat s v f).cm = s.cm := rfl
@[simp] theorem setVat_cal : (setVat s v f).cal = s.cal := rfl
@[simp] theorem setVat_pwr : (setVat s v f).pwr = s.pwr := rfl
@[simp] theorem setVat_host : (setVat s v f).host = s.host := rfl
@[simp] theorem setVat_side : (setVat s v f).side = s.side := rfl
@[simp] theorem setVat_net : (setVat s v f).net = s.net := rfl
@[simp] theorem setVat_ent : (setVat s v f).ent = s.ent := rfl
@[simp] theorem setVat_keys : (setVat s v f).keys = s.keys := rfl
@[simp] theorem setVat_fw : (setVat s v f).fw = s.fw := rfl
@[simp] theorem setVat_int : (setVat s v f).int = { s.int with vats := setAt s.int.vats v f } := rfl
@[simp] theorem setVat_gloves : (setVat s v f).gloves = s.gloves := rfl
@[simp] theorem setVat_queues : (setVat s v f).queues = s.queues := rfl
@[simp] theorem setVat_staged : (setVat s v f).staged = s.staged := rfl
@[simp] theorem setVat_outstanding : (setVat s v f).outstanding = s.outstanding := rfl
@[simp] theorem setVat_windows : (setVat s v f).windows = s.windows := rfl
@[simp] theorem setVat_revokedWins : (setVat s v f).revokedWins = s.revokedWins := rfl
@[simp] theorem setVat_gens : (setVat s v f).gens = s.gens := rfl
@[simp] theorem setVat_conns : (setVat s v f).conns = s.conns := rfl
@[simp] theorem setVat_incs : (setVat s v f).incs = s.incs := rfl
@[simp] theorem setVat_casks : (setVat s v f).casks = s.casks := rfl
@[simp] theorem setVat_spill : (setVat s v f).spill = s.spill := rfl
@[simp] theorem setVat_vintages : (setVat s v f).vintages = s.vintages := rfl
@[simp] theorem setVat_free : (setVat s v f).free = s.free := rfl
end

/-! ### setFw -/

section
variable (s : State) (f : Firmware → Firmware)
@[simp] theorem setFw_pending : (setFw s f).pending = s.pending := rfl
@[simp] theorem setFw_clock : (setFw s f).clock = s.clock := rfl
@[simp] theorem setFw_cm : (setFw s f).cm = s.cm := rfl
@[simp] theorem setFw_cal : (setFw s f).cal = s.cal := rfl
@[simp] theorem setFw_pwr : (setFw s f).pwr = s.pwr := rfl
@[simp] theorem setFw_host : (setFw s f).host = s.host := rfl
@[simp] theorem setFw_side : (setFw s f).side = s.side := rfl
@[simp] theorem setFw_net : (setFw s f).net = s.net := rfl
@[simp] theorem setFw_ent : (setFw s f).ent = s.ent := rfl
@[simp] theorem setFw_keys : (setFw s f).keys = s.keys := rfl
@[simp] theorem setFw_fw : (setFw s f).fw = f s.fw := rfl
@[simp] theorem setFw_int : (setFw s f).int = s.int := rfl
@[simp] theorem setFw_gloves : (setFw s f).gloves = s.gloves := rfl
@[simp] theorem setFw_queues : (setFw s f).queues = s.queues := rfl
@[simp] theorem setFw_staged : (setFw s f).staged = s.staged := rfl
@[simp] theorem setFw_outstanding : (setFw s f).outstanding = s.outstanding := rfl
@[simp] theorem setFw_windows : (setFw s f).windows = s.windows := rfl
@[simp] theorem setFw_revokedWins : (setFw s f).revokedWins = s.revokedWins := rfl
@[simp] theorem setFw_gens : (setFw s f).gens = s.gens := rfl
@[simp] theorem setFw_conns : (setFw s f).conns = s.conns := rfl
@[simp] theorem setFw_incs : (setFw s f).incs = s.incs := rfl
@[simp] theorem setFw_casks : (setFw s f).casks = s.casks := rfl
@[simp] theorem setFw_spill : (setFw s f).spill = s.spill := rfl
@[simp] theorem setFw_vintages : (setFw s f).vintages = s.vintages := rfl
@[simp] theorem setFw_free : (setFw s f).free = s.free := rfl
end

/-! ### setPwr -/

section
variable (s : State) (f : Power → Power)
@[simp] theorem setPwr_pending : (setPwr s f).pending = s.pending := rfl
@[simp] theorem setPwr_clock : (setPwr s f).clock = s.clock := rfl
@[simp] theorem setPwr_cm : (setPwr s f).cm = s.cm := rfl
@[simp] theorem setPwr_cal : (setPwr s f).cal = s.cal := rfl
@[simp] theorem setPwr_pwr : (setPwr s f).pwr = f s.pwr := rfl
@[simp] theorem setPwr_host : (setPwr s f).host = s.host := rfl
@[simp] theorem setPwr_side : (setPwr s f).side = s.side := rfl
@[simp] theorem setPwr_net : (setPwr s f).net = s.net := rfl
@[simp] theorem setPwr_ent : (setPwr s f).ent = s.ent := rfl
@[simp] theorem setPwr_keys : (setPwr s f).keys = s.keys := rfl
@[simp] theorem setPwr_fw : (setPwr s f).fw = s.fw := rfl
@[simp] theorem setPwr_int : (setPwr s f).int = s.int := rfl
@[simp] theorem setPwr_gloves : (setPwr s f).gloves = s.gloves := rfl
@[simp] theorem setPwr_queues : (setPwr s f).queues = s.queues := rfl
@[simp] theorem setPwr_staged : (setPwr s f).staged = s.staged := rfl
@[simp] theorem setPwr_outstanding : (setPwr s f).outstanding = s.outstanding := rfl
@[simp] theorem setPwr_windows : (setPwr s f).windows = s.windows := rfl
@[simp] theorem setPwr_revokedWins : (setPwr s f).revokedWins = s.revokedWins := rfl
@[simp] theorem setPwr_gens : (setPwr s f).gens = s.gens := rfl
@[simp] theorem setPwr_conns : (setPwr s f).conns = s.conns := rfl
@[simp] theorem setPwr_incs : (setPwr s f).incs = s.incs := rfl
@[simp] theorem setPwr_casks : (setPwr s f).casks = s.casks := rfl
@[simp] theorem setPwr_spill : (setPwr s f).spill = s.spill := rfl
@[simp] theorem setPwr_vintages : (setPwr s f).vintages = s.vintages := rfl
@[simp] theorem setPwr_free : (setPwr s f).free = s.free := rfl
end

/-! ### setTrellis -/

section
variable (s : State) (f : Trellis → Trellis)
@[simp] theorem setTrellis_pending : (setTrellis s f).pending = s.pending := rfl
@[simp] theorem setTrellis_clock : (setTrellis s f).clock = s.clock := rfl
@[simp] theorem setTrellis_cm : (setTrellis s f).cm = s.cm := rfl
@[simp] theorem setTrellis_cal : (setTrellis s f).cal = s.cal := rfl
@[simp] theorem setTrellis_pwr : (setTrellis s f).pwr = s.pwr := rfl
@[simp] theorem setTrellis_host : (setTrellis s f).host = s.host := rfl
@[simp] theorem setTrellis_side : (setTrellis s f).side = s.side := rfl
@[simp] theorem setTrellis_net : (setTrellis s f).net = { s.net with trellis := f s.net.trellis } := rfl
@[simp] theorem setTrellis_ent : (setTrellis s f).ent = s.ent := rfl
@[simp] theorem setTrellis_keys : (setTrellis s f).keys = s.keys := rfl
@[simp] theorem setTrellis_fw : (setTrellis s f).fw = s.fw := rfl
@[simp] theorem setTrellis_int : (setTrellis s f).int = s.int := rfl
@[simp] theorem setTrellis_gloves : (setTrellis s f).gloves = s.gloves := rfl
@[simp] theorem setTrellis_queues : (setTrellis s f).queues = s.queues := rfl
@[simp] theorem setTrellis_staged : (setTrellis s f).staged = s.staged := rfl
@[simp] theorem setTrellis_outstanding : (setTrellis s f).outstanding = s.outstanding := rfl
@[simp] theorem setTrellis_windows : (setTrellis s f).windows = s.windows := rfl
@[simp] theorem setTrellis_revokedWins : (setTrellis s f).revokedWins = s.revokedWins := rfl
@[simp] theorem setTrellis_gens : (setTrellis s f).gens = s.gens := rfl
@[simp] theorem setTrellis_conns : (setTrellis s f).conns = s.conns := rfl
@[simp] theorem setTrellis_incs : (setTrellis s f).incs = s.incs := rfl
@[simp] theorem setTrellis_casks : (setTrellis s f).casks = s.casks := rfl
@[simp] theorem setTrellis_spill : (setTrellis s f).spill = s.spill := rfl
@[simp] theorem setTrellis_vintages : (setTrellis s f).vintages = s.vintages := rfl
@[simp] theorem setTrellis_free : (setTrellis s f).free = s.free := rfl
end

end Sys2Proof.Machine
end

