-- ==== Sys2Proof/Tests/Slice0.lean ====
section
/-! SUPPORT. Tests: ill-formed commands that the check refuses; values worked out from the manual; and, for the
hypotheses of every clause of every obligation, a concrete state and operands that meet all of them together
(`<obligation>_<clause>`). -/

set_option autoImplicit false

namespace Sys2Proof.Tests

set_option Elab.async false

open Sys2Proof Sys2Proof.Machine

/-! ### A small module -/

/-- Resources of Glove `g`: one block of each range, 16 Casks, 8 LPDDR channels. -/
def cfgOfTest (g : Nat) : GloveCfg where
  masker := g == 1
  trellis := true
  ports := 1
  cellar := 1024
  channels := 255
  queueFirst := 4 + g
  queueBlocks := 1
  winFirst := 1 + g
  winBlocks := 1
  connFirst := g
  connBlocks := 1
  keyFirst := 1 + g
  keyBlocks := 1
  casks := 16
  resident := 8
  pinned := 4
  primes := 40
  luts := 64
  slots := 16
  shares := List.replicate 8 { rate := 1, ingress := 1, mac := 5, ipv4 := 77, ipv6 := 78 }

/-- An assigned Glove with the phase source COORDINATOR and 100 blocks of entropy. -/
def gloveOfTest (g : Nat) : Glove where
  state := .active
  cfg := cfgOfTest g
  phase := { word := ⟨3, 5⟩, type := .coordinator, source := 3, queue := 258, limit := 100 }
  blocks := 100
  vatList := [0, 1, 2, 3, 4, 5, 6, 7]

/-- A queue, and a window that accepts every access of its Glove. -/
def queue (id owner : Nat) (kind : QKind) (bound : Nat := 0) : Queue :=
  { id := id, owner := owner, kind := kind, log2Depth := 6, bound := bound }
def window (index owner target object : Nat) : Window :=
  { index := index, gen := 0, owner := owner, target := target, rights := 31, anyConn := true, object := object
    length := 2 ^ 33, eventQ := 257 }

/-- The module running: Glove 0 an aggregator, Glove 1 a MASKER, the Vintner's queues 0 to 2, each Glove's reply, event and
command queues, and a window of each Glove. -/
def live : State := { State.reset with
  cm := { state := .running }
  pwr := { State.reset.pwr with ready := true }
  host := { vfEnable := true, numVfs := 16 }
  ent := { state := .ready, sources := List.replicate 4 { role := .active, startup := true } ++
    List.replicate 2 { role := .standby, startup := true }, reserve := 10 }
  gloves := gloveOfTest 0 :: gloveOfTest 1 :: List.replicate 14 {}
  queues := [queue 0 16 .reply, queue 1 16 .event, queue 2 16 .command 0, queue 256 0 .reply, queue 257 0 .event,
    queue 258 0 .command 256, queue 320 1 .reply, queue 321 1 .event, queue 322 1 .command 320]
  windows := [window 4096 0 2 256, window 8192 1 2 320, window 5 16 2 0] }

/-- A packet of Glove 0, of the MASKER Glove 1, of the Vintner, and of the sideband. -/
def pkt (op : Nat) (params : List Byte) (vintage : Nat := 0) : Packet where
  route := .vf
  queue := 258
  opcode := op
  ctx := 0
  vintage := vintage
  tag := 1
  priority := 1
  fence := false
  ordered := false
  params := params
  stamp := ⟨3, 5⟩
  cycle := 10
  order := 7
def pktM (op : Nat) (params : List Byte) : Packet := { pkt op params with queue := 322, ctx := 1 }
def pktV (op : Nat) (params : List Byte) : Packet := { pkt op params with route := .pf, queue := 2, ctx := 16 }
def pktS (op : Nat) (params : List Byte) : Packet := { pkt op params with route := .sideband, queue := 0, ctx := 16 }

/-- The key of window 4096, as Glove 0 names it; of 8192, as Glove 1 does; of 5, as the Vintner does. -/
def key0 : List Byte := toLE 4 (256 * 4096)
def key1 : List Byte := toLE 4 (256 * 8192)
def keyV : List Byte := toLE 4 (256 * 5)

theorem ok_of_isOk {ε α : Type} {e : Except ε α} (h : e.isOk = true) : ∃ a, e = .ok a := by
  cases e with
  | ok a => exact ⟨a, rfl⟩
  | error x => cases h

/-- A Vintage of Glove 0 with 200 clients that closes at phase 10, and a Cask of 4 coordinates bound to it. -/
def vintage (id : Nat) (state : VState) : Vintage where
  glove := 0
  id := id
  state := state
  encrypted := false
  sealAbort := false
  noise := false
  clients := 200
  floor := 100
  recipe := 0xFFFF
  c := 10
  s := 20
  e := 30
  k := 0
  sigma := 0
  keySet := 0
  shardCount := 1
  shardIndex := 0
  lead := 0
def cask (id vid role ring : Nat) (glove : Nat := 0) : Cask where
  glove := glove
  id := id
  vintage := vid
  ring := ring
  n := 4
  limbs := 1
  role := role
  placement := 0
  spilled := false
  granules := 1
  lpddr := 2
  vats := [0, 1, 2, 3, 4, 5, 6, 7]

/-- The module with one Vintage and its Cask. -/
def withV (v : Vintage) : State := { live with vintages := [v], casks := [cask 0 v.id 0 0] }

/-- A masking configuration, and a Vintage of the given state with it. -/
def maskingOf : Masking where
  uploaded := true
  degree := 2
  threshold := 2
  commit := false
  sealedShares := false
  salt := zeros 32
  seed := zeros 32
def masked (state : VState) : Vintage := { vintage 3 state with masking := some maskingOf }

/-- The module with one more queue. -/
def withQ (q : Queue) : State := { live with queues := live.queues ++ [q] }

/-- A key slot of the MASKER Glove. -/
def slot (n usage kind : Nat) : KeySlot where
  slot := n
  owner := 1
  state := .loaded
  keyId := 0
  parent := 0
  usage := usage
  kind := kind
  lifetime := 1
  left := 1
  share0 := zeros 32
  share1 := zeros 32

theorem some_of_isSome {α : Type} {o : Option α} (h : o.isSome = true) : ∃ a, o = some a := Option.isSome_iff_exists.mp h

/-- A HALTED queue; a Glove 0 with a session; a Vintage with a client whose contributions are being removed. -/
def haltedQ : Queue := { queue 259 0 .command 256 with state := .halted }
def withSession (x : Session) : State := { live with gloves := { gloveOfTest 0 with session := x } :: live.gloves.drop 1 }
def retractingV : Vintage := { vintage 1 .opened with standings := [(0, .retracting)] }
def retractingC : Cask := { cask 0 1 0 0 with tallies := [⟨0, 1, 1, false⟩] }
def withRetracting : State := { live with vintages := [retractingV], casks := [retractingC, cask 1 0 1 0] }


/-- The value of a check that passes. -/
def valOr {ε α : Type} (e : Except ε α) (d : α) : α :=
  match e with
  | .ok a => a
  | .error _ => d
theorem ok_val {ε α : Type} {e : Except ε α} (d : α) (h : e.isOk = true) : e = .ok (valOr e d) := by
  cases e with
  | ok a => rfl
  | error x => cases h

/-- A window that maps a queue takes what a command writes to it and reads as zeros. -/
def blankWindow (s : State) (ctx key right off n : Nat) : Bool :=
  windowInRange s ctx (key / 256) && match windowOf s (key / 256) with
  | some w => w.gen == key % 256 && w.rights.testBit right && decide (off + n ≤ w.length) && w.target == 2
  | none => false
theorem local_blank {s : State} {ctx key right off n k : Nat} (h : blankWindow s ctx key right off n = true) (hk : k ≤ n) :
    ∃ w, localWindow s ctx key right off k = .ok w ∧ w.target = 2 := by
  unfold blankWindow at h
  split at h
  · next w hw =>
    simp only [Bool.and_eq_true, beq_iff_eq, decide_eq_true_eq] at h
    obtain ⟨h1, ⟨⟨h2, h3⟩, h4⟩, h5⟩ := h
    have h6 : off + k ≤ w.length := by omega
    exact ⟨w, by simp [localWindow, need, want, bind, Except.bind, h1, hw, h2, h3, h6, plaintextBarred, h5, Option.filter], h5⟩
  · simp at h
theorem read_blank {s : State} {ctx key off n : Nat} (h : blankWindow s ctx key rightRead off n = true) :
    readWindow s ctx key off n = .ok (zeros n, s) := by
  obtain ⟨w, hw, h2⟩ := local_blank h (Nat.le_refl n)
  simp [readWindow, hw, bind, Except.bind, need, mapsWithheld, h2, windowBytes, hostRefused]
theorem write_blank {s : State} {ctx key off : Nat} {bs : List Byte} (n : Nat) (hn : bs.length ≤ n)
    (h : blankWindow s ctx key rightWrite off n = true) : writeWindow s ctx key off bs = .ok s := by
  obtain ⟨w, hw, h2⟩ := local_blank h hn
  simp [writeWindow, hw, bind, Except.bind, need, mapsWithheld, h2, windowStore, hostRefused]
theorem toLE_length (n x : Nat) : (toLE n x).length = n := by
  induction n generalizing x with
  | zero => rfl
  | succ n ih => simp [toLE, ih]
theorem padTo_length (n : Nat) (l : List Byte) : (padTo n l).length = n := by
  simp [padTo, zeros]; omega
theorem drawn_length (s : State) (n : Nat) : (drawBytes s n).1.length = n := by simp [drawBytes]
theorem seal_length (k nonce aad text : List Byte) : (Crypto.gcmSeal k nonce aad text).length ≤ text.length + 16 := by
  have h : ∀ n x, (toBE n x).length = n := fun n x => by simp [toBE, toLE_length]
  simp [Crypto.gcmSeal, Crypto.gcmCrypt, Crypto.gcmTag, xorBytes, h]
  omega

/-- A window on host memory for Glove `g`, which holds `bytes` from its start. -/
def withHost (g : Nat) (bytes : List Byte) (s : State) : State := { s with
  windows := s.windows ++ [{ window (4097 + 4096 * g) g 1 0 with eventQ := 257 + 64 * g }]
  host := { s.host with mem := Memory.writeN s.host.mem (2 ^ 64 * (g + 1)) bytes } }
def keyH0 : List Byte := toLE 4 (256 * 4097)
def keyH1 : List Byte := toLE 4 (256 * 8193)
def withKeys (l : List KeySlot) (s : State) : State := { s with keys := { s.keys with slots := l } }
def withV2 (v : Vintage) (c : List Cask) : State := { live with vintages := [v], casks := c }

/-- Two clients that are each other's neighbours; all of what a VINTAGE_OPEN asks for. -/
def pairMasking : Masking := { maskingOf with
  degree := 1, threshold := 1, graph := [(0, [1]), (1, [0])], graphComplete := true
  registry := [(0, toLE 32 9, zeros 32), (1, toLE 32 9, zeros 32)] }
def paired (state : VState) : Vintage := { vintage 3 state with clients := 2, masking := some pairMasking, survivors := [0, 1] }
/-- Two neighbours as a MASKER receives them. -/
def peers : List Byte := toLE 4 3 ++ toLE 32 9 ++ toLE 4 5 ++ toLE 32 9
def masker : State := withHost 1 peers (withKeys [slot 32 usageMaskSelf 0, slot 33 usageMaskAgree 2]
  { live with casks := [{ cask 0 0 1 0 1 with role := 2 }] })
/-- A share of client 0 held by client 1, of its self seed. -/
def shareRecord : List Byte := toLE 4 0 ++ toLE 4 1 ++ toLE 1 1 ++ zeros 7 ++ toLE 32 5 ++ zeros 16
def uploadM : Masking := { maskingOf with uploaded := true }
def uploadV : Vintage := { vintage 3 .draft with masking := some uploadM }
def graphState : State := withHost 0 (toLE 4 0 ++ toLE 4 1 ++ toLE 4 3 ++ toLE 4 4) (withV uploadV)
def shardedV : Vintage := { paired .sealedV with shardCount := 2 }
/-- Packets of Glove 0 at another phase. -/
def pktAt (c op : Nat) (params : List Byte) (vintage : Nat) : Packet := { pkt op params vintage with stamp := ⟨3, c⟩ }
theorem flatten_le {α : Type} (f : α → List Byte) (n : Nat) (hf : ∀ a, (f a).length ≤ n) (l : List α) (k : Nat)
    (hk : l.length ≤ k) : ((l.map f).flatten).length ≤ n * k := by
  have h : ((l.map f).flatten).length ≤ n * l.length := by
    clear hk
    induction l with
    | nil => simp
    | cons a l ih =>
      simp only [List.map_cons, List.flatten_cons, List.length_append, List.length_cons]
      have := hf a
      rw [Nat.mul_succ]; omega
  exact Nat.le_trans h (Nat.mul_le_mul_left n hk)
theorem split_length (p : Packet) (a k v : Nat) (e : Nat × List Byte) : (splitRecord p a k v e).length ≤ 64 := by
  have h := fun k n aad => seal_length k n aad (toLE 32 v)
  simp only [toLE_length] at h
  simp only [splitRecord, List.length_append, toLE_length, zeros, List.length_replicate]
  exact Nat.le_trans (Nat.add_le_add_left (h _ _ _) _) (by decide)

/-- A small parameter set of a construction, its key set with every kind of key, and ciphertext Casks. -/
def tiny (c : Nat) : ParamSet where
  index := 0
  construction := c
  log2N := if c = 2 then 0 else 1
  limbs := if c = 2 then 1 else 4
  special := if c = 2 then 0 else 1
  dnum := if c = 2 then 0 else 4
  secret := 0
  weight := 0
  sigma := 819
  n := if c = 2 then 1 else 0
  pMin := 0
  mu := 0
  t := if c = 1 then 0 else 2
  moduli := if c = 2 then [2 ^ 40 + 1] else [2 ^ 40 + 1, 2 ^ 40 + 5, 2 ^ 40 + 9, 2 ^ 40 + 13, 2 ^ 60 + 1]
  digest := zeros 32
def evk (kind element : Nat) : EvalKey where
  kind := kind
  element := element
  seed := zeros 32
  b := []
  mib := 2
def refreshCfg : RefreshCfg := { (default : RefreshCfg) with
  packed := true, lookup := true, log2Nb := 10, rMs := 100000, pMax := 20, pSs := 20, bLwe := 256, tMax := 16 }
def table (i : Nat) (switch : Bool) : Lut where
  index := i
  switchKind := switch
  log2t := 1
  r := 0
  exponent := 0
  entries := [0, 1]
  poly := []
  kib := 8
def keySet : KeySet where
  id := 0
  set := 0
  keys := [evk 0 0, evk 1 0, evk 2 3, evk 3 0, evk 4 0, evk 4 1, evk 5 0]
  refresh := some refreshCfg
  luts := [table 0 true, table 1 false]
def header (c limbs : Nat) : CtHeader := { (default : CtHeader) with
  digest := zeros 32, keySet := 0, state := 1, level := limbs - 1, ntt := true, construction := c
  scale := if c = 1 then 1280 else 0, noise := 256, engineSum := true, cohort := 150, vintage := 9 }
def ctCaskOf (c id limbs : Nat) : Cask := { cask id 0 2 3 with
  limbs := limbs, moduli := (tiny c).moduli.take limbs
  binding := some { keySet := 0, ntt := true, level := limbs - 1, scale := 1280, size := ctSize (tiny c), headers := [header c limbs] } }
def plainOf (c id limbs : Nat) : Cask := { cask id 0 2 3 with limbs := limbs, moduli := (tiny c).moduli.take limbs }
def lattice (c : Nat) (k : KeySet) (casks : List Cask) : State := { live with
  gloves := { gloveOfTest 0 with params := [tiny c], keySets := [k] } :: live.gloves.drop 1, casks := casks }
/-- Casks 0 and 1 at two limbs (one for LWE), 2 of plaintexts, 3 of scratch, 4 at the top level, 5 at level 0. -/
def latOps (c : Nat) : State :=
  let n := if c = 2 then 1 else 2
  lattice c keySet [ctCaskOf c 0 n, ctCaskOf c 1 n, plainOf c 2 n, { cask 3 0 2 0 with granules := 100 }, ctCaskOf c 4 4, ctCaskOf c 5 1]
def latPkt (op dst a b scratch arg : Nat) : Packet :=
  pkt op (toLE 2 dst ++ toLE 2 a ++ toLE 2 b ++ toLE 2 scratch ++ zeros 12 ++ toLE 4 1 ++ zeros 4 ++ toLE 4 arg ++ zeros 16)
/-- The hypotheses of the completion statement of an opcode of the layout. -/
abbrev LatHyps (o : LatOp) (p : Packet) (s : State) (d a b : Cask) (k : KeySet) (set : ParamSet) (plan : List (Nat × Nat)) : Prop :=
  Admitted (latCmd o) p s ∧ latCasks o p s = .ok (d, a, b) ∧ keySetOf s p.ctx (latKeys p) = some k ∧
    paramSetOf s p.ctx k.set = some set ∧ latSpilled o p s d a b = false ∧
    (o.waves = false ∨ o.scratch set (if o.aPlain then d.limbs else a.limbs) ≤ latGranules p s) ∧
    (mightRefresh o p s = false ∨ refreshScratch set ≤ latGranules p s) ∧
    latForeign o p set d a b = false ∧ latPlan o p s k set d a b = .ok plan ∧
    s.int.faulted.contains (p.ctx, d.id) = false
/-- The rest of them, once the Casks are found. -/
abbrev LatRest (o : LatOp) (p : Packet) (s : State) (d a b : Cask) (k : KeySet) (set : ParamSet) : Prop :=
  keySetOf s p.ctx (latKeys p) = some k ∧ paramSetOf s p.ctx k.set = some set ∧ latSpilled o p s d a b = false ∧
    (o.waves = false ∨ o.scratch set (if o.aPlain then d.limbs else a.limbs) ≤ latGranules p s) ∧
    (mightRefresh o p s = false ∨ refreshScratch set ≤ latGranules p s) ∧
    latForeign o p set d a b = false ∧ (latPlan o p s k set d a b).isOk = true ∧
    s.int.faulted.contains (p.ctx, d.id) = false
theorem lat_ready {o : LatOp} {p : Packet} {s : State} {d a b : Cask} {k : KeySet} {set : ParamSet}
    (h0 : Admitted (latCmd o) p s) (h1 : latCasks o p s = .ok (d, a, b)) (h2 : LatRest o p s d a b k set) :
    LatHyps o p s d a b k set (valOr (latPlan o p s k set d a b) []) :=
  ⟨h0, h1, h2.1, h2.2.1, h2.2.2.1, h2.2.2.2.1, h2.2.2.2.2.1, h2.2.2.2.2.2.1, ok_val _ h2.2.2.2.2.2.2.1, h2.2.2.2.2.2.2.2⟩
/-- Glove 0 with a parameter set and a key set that holds nothing yet. -/
def bareKeys : KeySet := { id := 0, set := 0 }
def latticeBare (c : Nat) (casks : List Cask) : State := lattice c bareKeys casks
/-- A ring of dimension 1 and one limb, and the key set for its public key. -/
def unitSet : ParamSet := { tiny 0 with log2N := 0, limbs := 0, special := 0, dnum := 0, moduli := [] }
def unitState (k : KeySet) : State := { live with
  gloves := { gloveOfTest 0 with params := [unitSet], keySets := [k] } :: live.gloves.drop 1 }
/-- A Cask of one ciphertext, not yet bound. -/
def unbound (role : Nat) : Cask := { plainOf 0 0 2 with role := role }
/-- CKKS with 30 limbs, for a packed refresh. -/
def deepState : State := { live with
  gloves := { gloveOfTest 0 with params := [{ tiny 1 with limbs := 30 }], keySets := [bareKeys] } :: live.gloves.drop 1 }
/-- A threshold share, its Vintage RELEASED, and an engine sum that may be decrypted. -/
def thrShareOfTest : ThrShare where
  party := 1
  margin := 1
  parent := 0
  mib := 2
  half0 := []
  half1 := []
def thrHeader : CtHeader := { header 1 2 with noise := 256 }
def thrVintage : Vintage := { vintage 9 .released with encrypted := true, allowance := 4 }
def thrState (share : Option ThrShare) (l : List KeySlot) : State := withKeys l
  { lattice 1 { keySet with share := share } [ctCaskOf 1 0 2] with vintages := [thrVintage] }
/-- As much entropy queued as an encryption takes. -/
def encryptState : State :=
  let s := latOps 0
  { s with gloves := mapIf (fun _ => true) (fun g => { g with blocks := Config.encryptBlocks 2 1 }) (s.gloves.take 1) ++ s.gloves.drop 1 }
/-- A key slot of Glove 0. -/
def slot0 (n usage kind : Nat) : KeySlot := { slot n usage kind with owner := 0 }
/-- A release in progress at a stage, its Vintage, and the command that waits for it. -/
def releaseOf (stage : Nat) : Release where
  stage := stage
  output := 0xFFFF
  phase := ⟨3, 30⟩
  noiseBits := 0
  draw := 0
def releasing (stage : Nat) (state : VState) : Vintage := { vintage 1 state with release := some (releaseOf stage) }
def waits (p : Packet) (w : Wait) : Outstanding := { pkt := p, wait := w }
def releaseState_ (stage : Nat) (state : VState) : State := { withV (releasing stage state) with
  outstanding := [waits (pkt 0x501 (zeros 8) 1) (.release 0 1)] }
def recipeOfTest : Recipe where
  id := 0
  steps := []
  digest := []
def withRecipe : State := { live with gloves := { gloveOfTest 0 with recipes := [recipeOfTest] } :: live.gloves.drop 1 }
/-- A connection of Glove 0. -/
def conn (id : Nat) (state : ConnState) : Conn where
  id := id
  owner := 0
  state := state
  incarnation := 1
  eventQ := 257
def withC (c : Conn) : State := { live with conns := [c] }
/-- Glove 0 with a send and a receive queue. -/
def withRings : State := { live with queues := live.queues ++ [queue 260 0 .send, queue 261 0 .receive] }
def onRing : State := { live with net := { live.net with trellis := { live.net.trellis with bypass := 2, member := 7 } } }
theorem sha_length (m : List Byte) : (Crypto.sha256 m).length ≤ 32 := by
  have h : ∀ (l : List (List Byte)) (v : List (BitVec 32)), v.length ≤ 8 → (l.foldl Crypto.shaBlock v).length ≤ 8 := by
    intro l
    induction l with
    | nil => intro v hv; exact hv
    | cons b l ih =>
      intro v hv
      exact ih _ (Nat.le_trans (by rw [Crypto.shaBlock, List.length_zipWith]; exact Nat.min_le_left _ _) hv)
  have h4 : ∀ l : List (BitVec 32), ((l.map (fun w => toBE 4 w.toNat)).flatten).length = 4 * l.length := by
    intro l
    induction l with
    | nil => rfl
    | cons a l ih => simp [toBE, toLE_length] at ih ⊢; omega
  rw [Crypto.sha256, h4]
  exact Nat.mul_le_mul_left 4 (h _ _ (by decide +kernel))
theorem sign_length (s : State) (m : List Byte) : (signShort s m).length = 17088 := by
  unfold signShort
  exact padTo_length 17088 _
theorem pick_length (c : Prop) [Decidable c] (a b : List Byte) (ha : a.length ≤ 32) (hb : b.length ≤ 32) :
    (if c then a else b).length ≤ 32 := by split <;> assumption
theorem body_length (s : State) (g : Nat) (library nonce : List Byte) (hl : library.length ≤ 32) (h : nonce.length ≤ 32) :
    (reportBody s g library nonce).length ≤ 400 := by
  have hi : (identityKey s).length ≤ 32 := by
    rw [identityKey, identityKeyOf, List.length_append, padTo_length, slice, List.length_take]; omega
  have hz : ∀ n, (zeros n).length = n := fun n => by rw [zeros, List.length_replicate]
  have hp := padTo_length 32
  have hm : ∀ x : FwSlot, (measurement x).length ≤ 32 := fun x => by rw [measurement]; exact sha_length _
  have e1 := pick_length (2 ≤ stagedCode s.fw) (measurement (fwSlot s.fw (otherSlot s.fw))) (zeros 32) (hm _) (Nat.le_of_eq (hz _))
  have e2 := pick_length (g < 16) (padTo 32 (gloveOf s g).digest) (zeros 32) (Nat.le_of_eq (hp _)) (Nat.le_of_eq (hz _))
  have e3 := pick_length (g < 16) library (zeros 32) hl (Nat.le_of_eq (hz _))
  have e4 := hm (fwSlot s.fw s.fw.running)
  unfold reportBody
  simp only
  generalize measurement (fwSlot s.fw s.fw.running) = m1 at *
  generalize (if 2 ≤ stagedCode s.fw then measurement (fwSlot s.fw (otherSlot s.fw)) else zeros 32) = m2 at *
  generalize (if g < 16 then padTo 32 (gloveOf s g).digest else zeros 32) = m3 at *
  generalize (if g < 16 then library else zeros 32) = m4 at *
  simp only [List.length_append, toLE_length, hz, hp, serialBytes, calendarBytes]
  omega
theorem report_length (s : State) (g : Nat) (library nonce : List Byte) (hl : library.length ≤ 32) (h : nonce.length ≤ 32) :
    (reportBody s g library nonce ++ signShort s (reportBody s g library nonce)).length ≤ 17500 := by
  have := body_length s g library nonce hl h
  rw [List.length_append, sign_length]
  omega
def inMfg : State := { live with fw := { live.fw with lc := .mfg } }
def noGloves : State := { live with gloves := List.replicate 16 {} }
def writing : State := { live with fw := { live.fw with slotB := { state := .writing } } }
def verified : State := { live with fw := { live.fw with slotB := { state := .verified } } }
def withSource (r : SrcRole) : State := setSource live 5 (fun x => { x with role := r })
def withVat (v : Nat) (x : Vat) : State := setVat live v (fun _ => x)
def withHistory : State := { live with int := { live.int with
  seq := 8, history := [{ kind := 5, unit := 2, seq := 7 }] } }
theorem leNat_toLE (n x : Nat) : leNat (toLE n x) = x % 256 ^ n := by
  induction n generalizing x with
  | zero => simp [toLE, leNat, Nat.mod_one]
  | succ n ih =>
    have h : 256 ^ (n + 1) = 256 * 256 ^ n := by rw [Nat.pow_succ, Nat.mul_comm]
    rw [h, Nat.mod_mul]
    simp [toLE, leNat] at ih ⊢
    simp [ih]
/-- LC_TRANSITION to RMA, its serial number the module's. -/
def lcPacket : Packet := pktV 0x920 (toLE 1 3 ++ zeros 7 ++ toLE 8 (Config.serialNumber % 2 ^ 64))
theorem lc_serial : (lcPacket.u64 8 == Config.serialNumber % 2 ^ 64) = true := by
  have h : lcPacket.u64 8 = leNat (toLE 8 (Config.serialNumber % 2 ^ 64)) := rfl
  rw [h, leNat_toLE]
  simp
theorem lc_admitted : Admitted cmdLcTransition lcPacket noGloves := by
  refine ⟨by decide +kernel, ?_⟩
  unfold passes checks cmdLcTransition
  dsimp only
  rw [lc_serial]
  decide +kernel
/-- MODULE_RESET, its serial number the module's. -/
def resetPacket : Packet := pktV 0xD01 (toLE 8 (Config.serialNumber % 2 ^ 64))
theorem reset_admitted : Admitted cmdModuleReset resetPacket live := by
  refine ⟨by decide +kernel, ?_⟩
  have h : (resetPacket.u64 0 == Config.serialNumber % 2 ^ 64) = true := by
    have h : resetPacket.u64 0 = leNat (toLE 8 (Config.serialNumber % 2 ^ 64)) := rfl
    rw [h, leNat_toLE]
    simp
  unfold passes checks cmdModuleReset
  dsimp only
  rw [h]
  decide +kernel

/-- A header slot without parameters, its CRC right. -/
def frontSlot : List Byte := toLE 2 0x4357 ++ toLE 1 1 ++ zeros 9 ++ toLE 2 1 ++ zeros 46
def headerSlot : List Byte := frontSlot ++ toLE 4 (Crypto.crc32c frontSlot)
def ringQ (h : List Byte) : Queue := { queue 258 0 .command 256 with slots := [h], prod := 1 }
def withRing (h : List Byte) : State := { live with queues := [queue 256 0 .reply, ringQ h] }

/-- Port 0 up, a connection in the Trellis, and windows on a Cask, on host memory and on a receive queue. -/
def upPort : PortRegs := { enable := true, linkUp := true }
def issuedOf (m : Nat) (atomic : Bool) : Issued where
  msg := m
  key := 256 * 4098
  offset := 0
  left := 8
  total := 8
  atomic := atomic
  wr := (260, 0, false)
def wireConn (state : ConnState) : Conn := { conn 1 state with trellis := true, issued := [issuedOf 7 false, issuedOf 8 true] }
def wire (state : ConnState) : State := { live with
  net := { live.net with ports := upPort :: live.net.ports.drop 1, trellis := { live.net.trellis with bypass := 2 } }
  conns := [wireConn state]
  casks := [cask 0 1 0 0]
  vintages := [vintage 1 .opened, { vintage 2 .opened with shardCount := 2 }]
  queues := live.queues ++ [queue 261 0 .receive]
  windows := [{ window 4097 0 0 0 with rights := 4, length := 8 }, { window 4098 0 1 0 with rights := 11 },
    { window 4099 0 2 261 with rights := 16 }] }
def wra (key : Nat) (ext payload : List Byte) (msg : Nat := 0) : WraPacket :=
  { port := 0, conn := 1, incarnation := 1, key := 256 * key, ext := ext, payload := payload, msg := msg, first := true, last := true }
theorem accepted_of {op : Nat} {w w1 : WraPacket} {s : State} {c c1 k : Conn} {win : Option Window}
    (h1 : arrives op w s = some (c, w1)) (h2 : reachedConn op w s c w1 = some c1)
    (h3 : w1.incarnation = c.incarnation ∧ c.state = .established ∧ c1.resident = true ∧
      (trellisOnly op = true → c.trellis = true))
    (h4 : (if hasWindow op w1 then (windowFor (reached op w s c w1) c1 op w1).map some else .ok none) = .ok win)
    (h5 : connOf (touchConn (reached op w s c w1) c.id) c.id = some k)
    (h6 : ingressFull (injected op w s).2 c.owner op w1 = false ∧
      freshPsn (connRx k (isResponse op)) w1.psn = true ∧ (isResponse op = true → matchesIssued k op w1 = true))
    (h7 : judge (touchConn (reached op w s c w1) c.id) k op w1 (stampAt (reached op w s c w1) c.owner w1.cycle) win = .place) :
    ∃ c c1 k w1 win, Accepted op w s c c1 k w1 win :=
  ⟨c, c1, k, w1, win, ⟨h1, h3.1, h2, h3.2.2.1⟩, h3.2.1, h3.2.2.2, h4, h5, h6.1, h6.2.1, h6.2.2, h7⟩

/-- A write in progress on a connection. -/
def flying : Inflight := { (default : Inflight) with
  psn := 0, op := 1, pkt := wra 4098 [] [1, 2], verdict := .place, win := some { window 4098 0 1 0 with rights := 11 } }
def placingC : Conn := { conn 1 .established with req := { bitmap := 1, flight := [flying] } }
/-- A send queue with one entry. -/
def sendQ (e : List Byte) : Queue := { queue 260 0 .send with slots := [e], prod := 1 }
def sending (e : List Byte) : State := { live with
  queues := live.queues ++ [sendQ e, queue 261 0 .receive], conns := [{ conn 1 .established with sendQ := 260 }] }
def waitEntry (threshold : Nat) : List Byte :=
  zeros 8 ++ toLE 1 1 ++ toLE 1 2 ++ zeros 10 ++ toLE 2 261 ++ zeros 2 ++ toLE 8 threshold ++ zeros 24 ++ toLE 4 8 ++ zeros 4
/-- Glove 0 with one change. -/
def glove0 (f : Glove → Glove) (s : State) : State := { s with gloves := f (gloveOfTest 0) :: live.gloves.drop 1 }
def dueOf (kind : EvKind) (v : Nat) : DueEvent where
  phase := 10
  kind := kind
  vintage := v
  tick := ⟨3, 10⟩
def withDue (kind : EvKind) (v : Vintage) : State :=
  glove0 (fun g => { g with phase := { g.phase with due := [dueOf kind v.id] } }) (withV v)
def withDueKey : State := glove0 (fun g => { g with phase := { g.phase with due := [dueOf .keyRotation 0] } }) live
/-- A checkpoint copied out, and its Cask. -/
def copy : Checkpoint where
  index := 1
  sealCp := false
  phase := ⟨3, 5⟩
  epoch := 1
  racked := 0
  image := []
  tallies := []
  digests := []
  partials := []
  prints := []
  vats := [0, 1, 2, 3, 4, 5, 6, 7]
  conns := []
  copied := true
def withCask (c : Cask) : State := { withV (vintage 1 .opened) with casks := [c] }
def dueCask : Cask := { cask 0 1 0 0 with dueCuts := [(1, ⟨3, 6⟩, false)] }
def copiedCask : Cask := { cask 0 1 0 0 with inProgress := some copy }
def rollingCask : Cask := { cask 0 1 0 0 with rollback := some { fences := [], stripes := 8, phase := ⟨3, 5⟩, sealedR := false } }
def unmasked : Vintage := { vintage 1 .unmasking with survivorsFixed := true, ledgerClosed := true, encrypted := true }
/-- A packet sent and not acknowledged. -/
def sent (attempts : Nat) : TxPacket where
  psn := 0
  op := 7
  attempts := attempts
  timerUs := 20
  pkt := wra 4099 [] [1]
def sentC (attempts : Nat) : Conn := { conn 1 .established with txReq := { unacked := [sent attempts] } }
def gapC : Conn := { conn 1 .established with req := { bitmap := 2 } }
/-- A reset of Glove 0 whose replies are out. -/
def resetOf : Reset where
  source := 0
  release := false
  replied := true
  start := ⟨3, 5⟩
def resetting : State := glove0 (fun g => { g with state := .resetting, reset := some resetOf }) live
def inPower (x : PowerState) : State := { live with pwr := { live.pwr with state := x } }
def onPin (f : Power → Power) : State := { live with pwr := f live.pwr }
def drawWait : Outstanding := waits (pkt 0x201 []) (.entropy 1 2)
def heartbeat : WraPacket := { port := 8, conn := 0, incarnation := 0 }
def wireUp : State := { wire .established with gloves := { gloveOfTest 0 with cfg := { cfgOfTest 0 with ports := 1 } } :: live.gloves.drop 1 }
def gloveUp : Glove := gloveOfTest 0
def hostW : Window := { window 4097 0 1 0 with eventQ := 257 }
theorem localHost : localWindow (withHost 0 [1, 2] live) 0 (256 * 4097) rightWrite 0 1 = .ok hostW := rfl
def inRecovery : State := { live with fw := { live.fw with recovery := true } }

/-- The refusal of a check that fails. -/
def errOr {ε α : Type} (e : Except ε α) (d : ε) : ε :=
  match e with
  | .ok _ => d
  | .error x => x
theorem err_val {ε α : Type} {e : Except ε α} (d : ε) (h : e.isOk = false) : e = .error (errOr e d) := by
  cases e with
  | ok a => cases h
  | error x => rfl
/-- A vector of zeros has the empty digest, whatever the opaque fingerprint keys are. -/
theorem digest_zeros (draw u : Nat) (c : Cask) (n : Nat) : vectorDigest draw c u (List.replicate n 0) = [] := by
  have hf : ∀ (g : Cask → Nat → Cask), (∀ c f, c.digests = [] → c.prints = [] → (g c f).digests = [] ∧ (g c f).prints = []) →
      ∀ (l : List Nat) (c : Cask), c.digests = [] → c.prints = [] → (l.foldl g c).digests = [] ∧ (l.foldl g c).prints = [] := by
    intro g hg l
    induction l with
    | nil => intro c h1 h2; exact ⟨h1, h2⟩
    | cons a l ih => intro c h1 h2; exact ih _ (hg c a h1 h2).1 (hg c a h1 h2).2
  have hz : ∀ (m k : Nat), Sparse.set [] k (addMod m (Sparse.get [] k) 0) = [] := by
    intro m k; simp [Sparse.set, Sparse.get, cellGet, cellSet, addMod]
  have hp : ∀ (c : Cask) (i : Nat), c.digests = [] → c.prints = [] →
      (printCoord draw c false (some u) i 0).digests = [] ∧ (printCoord draw c false (some u) i 0).prints = [] := by
    intro c i h1 h2
    refine hf _ (fun c f h1 h2 => ?_) _ c h1 h2
    simp only [h1, h2, Nat.mul_zero, Nat.zero_mod, Bool.false_eq_true, if_false]
    exact ⟨hz _ _, hz _ _⟩
  have hv : ∀ (n i : Nat) (c : Cask), c.digests = [] → c.prints = [] →
      (placeValues draw false (some u) c i (List.replicate n 0)).digests = [] := by
    intro n
    induction n with
    | zero => intro i c h1 _; exact h1
    | succ n ih =>
      intro i c h1 h2
      have := hp (adjustCoord c false i 0) i h1 h2
      exact ih _ _ this.1 this.2
  exact hv n 0 _ rfl rfl
/-- A header of a packet of two slots. -/
def pairFront : List Byte := toLE 2 0x4357 ++ toLE 1 1 ++ zeros 7 ++ toLE 2 64 ++ toLE 2 2 ++ zeros 46
def pairSlot : List Byte := pairFront ++ toLE 4 (Crypto.crc32c pairFront)
def lostQ : Queue := { queue 258 0 .command 256 with slots := [pairSlot, []], prod := 2 }
def withLost : State := { live with queues := [queue 256 0 .reply, lostQ] }
/-- A window on host memory that only READ_RESP, WRITE and READ may use; a spilled context; a class tasted 1/1. -/
def respW : Window := { window 4098 0 1 0 with rights := 11 }
def flyingResp : Inflight := { flying with op := 3, pkt := wra 4098 [] [1, 2] 7 }
def storedC : Conn := { conn 1 .established with fetching := true, store := some 0 }
def noVfs : State := { withC storedC with host := { live.host with vfEnable := false } }
def alwaysTasted : State := glove0 (fun g => { g with tastes := [{ cls := 1, always := true, lfsr := 1 }] }) live
/-- A Cuff of Glove 0, and a window in it. -/
def cuffed : State := glove0 (fun g => { g with session := { state := .established, tagBase := 8192, keys := zeros 64 } }) live
def cuffW : Window := { window 4097 0 1 0 with cuff := true }
theorem cuff_write_of (bs : List Byte) (h2 : bs.length = 4096) : ∃ t, windowStore cuffed cuffW 0 bs = .ok t := by
  have h3 : recordsOf 0 4096 = [0] := by decide +kernel
  have h4 : dmaReaches cuffed cuffW.owner = true := by decide +kernel
  have h6 : cuffPlain cuffed cuffW.owner 0 bs 0 = .ok (bs, cuffed) := by
    unfold cuffPlain
    simp only [Nat.mul_zero, Nat.le_refl, if_true, Nat.sub_self, List.drop_zero]
    rw [List.take_of_length_le (Nat.le_of_eq h2), if_pos h2]
  simp only [windowStore, show cuffW.base + 0 = 0 from rfl, cuffWrite, h2, h3, show cuffW.target = 1 from rfl, h4,
    not_true_eq_false, if_false, show cuffW.cuff = true from rfl, if_true, List.foldlM, h6, bind, Except.bind]
  exact ⟨_, rfl⟩
theorem cuff_write : ∃ t, windowStore cuffed cuffW 0 (zeros 4096) = .ok t :=
  cuff_write_of _ (by rw [zeros, List.length_replicate])

/-! ### Ill-formed commands are refused by the check, and one good command of each kind passes -/

theorem test_wf_good : [Instr.nop (pkt 0 []), .windowRevoke (pkt 0x602 (zeros 8)), .accumulate (wra 4097 (zeros 8) [1]),
    .gblDbProd 0 2 1 [zeros 64] [], .linkLost 9, .dispatchTurn 16, .registerWrite 4 0].all Instr.wf = true := by decide +kernel
theorem test_wf_opcode : (Instr.nop (pkt 1 [])).wf = false := by decide +kernel
theorem test_wf_queue : (Instr.nop { pkt 0 [] with queue := 65536 }).wf = false := by decide +kernel
theorem test_wf_context : (Instr.nop { pkt 0 [] with ctx := 256 }).wf = false := by decide +kernel
theorem test_wf_vintage : (Instr.nop { pkt 0 [] with vintage := 2 ^ 32 }).wf = false := by decide +kernel
theorem test_wf_tag : (Instr.nop { pkt 0 [] with tag := 2 ^ 32 }).wf = false := by decide +kernel
theorem test_wf_priority : (Instr.nop { pkt 0 [] with priority := 8 }).wf = false := by decide +kernel
theorem test_wf_params : (Instr.nop (pkt 0 (zeros 4033))).wf = false := by decide +kernel
theorem test_wf_stamp : (Instr.nop { pkt 0 [] with stamp := ⟨65536, 0⟩ }).wf = false ∧
    (Instr.nop { pkt 0 [] with stamp := ⟨0, 2 ^ 48⟩ }).wf = false := by decide +kernel
theorem test_wf_trellis : [({ dest := 65536, source := 0, origin := 0, subclass := false, hops := 0 } : TrellisHeader),
    { dest := 0, source := 65536, origin := 0, subclass := false, hops := 0 },
    { dest := 0, source := 0, origin := 65536, subclass := false, hops := 0 },
    { dest := 0, source := 0, origin := 0, subclass := false, hops := 128 }].all (fun h =>
      !(Instr.heartbeat { wra 0 [] [] with trellis := some h }).wf) = true := by decide +kernel
theorem test_wf_wire : let w := wra 4097 [] []
    [{ w with port := 10 }, { w with version := 16 }, { w with path := 256 }, { w with conn := 32768 },
     { w with incarnation := 65536 }, { w with psn := 2 ^ 32 }, { w with msg := 2 ^ 32 }, { w with key := 2 ^ 32 },
     { w with trigTag := 2 ^ 32 }, { w with offset := 2 ^ 64 }, { w with ext := zeros 73 },
     { w with payload := zeros 4097 }, { w with counter := 2 ^ 64 }, { w with sealedP := true }].all
      (fun x => !(Instr.write x).wf) = true := by decide +kernel
theorem test_wf_ip : let w := wra 4097 [] []
    [{ w.ip with protocol := 256 }, { w.ip with source := 2 ^ 128 }, { w.ip with dest := 2 ^ 128 },
     { w.ip with srcPort := 65536 }, { w.ip with dstPort := 65536 }, { w.ip with vlan := some 4096 }].all
      (fun i => !(Instr.write { w with ip := i }).wf) = true := by decide +kernel
theorem test_wf_doorbell : [Instr.gblDbProd 17 0 0 [] [], .gblDbProd 0 65536 0 [] [], .gblDbProd 0 0 0 [zeros 63] [],
    .gblDbProd 0 0 0 [] [⟨17, 0, []⟩], .gblDbProd 0 0 0 [] [⟨0, 2 ^ 64, [1]⟩], .gblDbCons 17 0 0,
    .gblDbCons 0 65536 0].all (fun i => !i.wf) = true := by decide +kernel
theorem test_wf_registers : [Instr.phsCountLoRead 17 0, .phsCountLoRead 0 16, .phsRefusedRead 17 0, .prtNaksRead 10,
    .registerWrite (2 ^ 24) 0, .registerWrite 2 0, .fijCtrlWrite 10 0].all (fun i => !i.wf) = true := by decide +kernel
theorem test_wf_reads : [Instr.dmaReadFail (.commandRing 65536) .hostFault, .dmaReadFail (.sendRing 65536) .hostFault,
    .dmaReadFail (.window 32768 0) .hostFault, .dmaReadFail (.window 0 (2 ^ 32)) .hostFault,
    .dmaReadFail (.context 32768) .hostFault].all (fun i => !i.wf) = true := by decide +kernel
theorem test_wf_objects : [Instr.vintageReady 16 0, .vintageReady 0 (2 ^ 32), .checkpointCut 0 65536, .packetPlaced 0 2 0,
    .dispatchTurn 17, .healthTestFail .alive 6 0 0 0, .entropyStartupDone [], .tasteArbitration (.press 0 0 0) 8 ⟨0, []⟩,
    .chaseEnd 0 0 256, .dynamicAddressAssignment 128 none, .arpRequest 0 (2 ^ 32) 0, .echoRequest 0 false (2 ^ 32) 0 [],
    .vfEnableSet 65536, .mctpResetMessage (2 ^ 64)].all (fun i => !i.wf) = true := by decide +kernel

/-! ### Values worked out by hand from the manual -/

/-- The field of the state that a command leaves. -/
def after {α : Type} (i : Instr) (s : State) (f : State → α) : Option α :=
  match exec i s with
  | .next t => some (f t)
  | _ => none

/-- R8: a byte string is read with its least significant byte first. -/
theorem test_byte_order : toLE 4 0x01020304 = [4, 3, 2, 1] ∧ field [4, 3, 2, 1] 0 4 = 0x01020304 := by decide +kernel
/-- R11: a 1 written clears its bit of KEY_TAMPER, a 0 leaves it. -/
theorem test_tamper_w1c : after (.keyTamperWrite 1) { live with keys := { live.keys with tamper := 5 } } (fun s => s.keys.tamper) =
    some 4 := by decide +kernel
/-- R3: GBL_ORDER, at 0x4 of BAR0 of the physical function, reports the ordering generation. -/
theorem test_gbl_order : readRegister { live with fw := { live.fw with ordering := 1 } } 0 4 = some 1 := by decide +kernel
/-- R11: GBL_CTRL is write-only and reads as zero. -/
theorem test_gbl_ctrl_reads_zero : readRegister live 0 0x10000 = some 0 := by decide +kernel
/-- R478: a Vat at 95 °C calls for level 1, at 100 °C for level 2. -/
theorem test_throttle_levels : after (.throttleRaise .vat95) live (fun s => s.pwr.level) = some 1 ∧
    after (.throttleRaise .vat100) live (fun s => s.pwr.level) = some 2 := by decide +kernel
/-- R481: a trip enters TRIPPED. -/
theorem test_trip : after (.trip .flow) live (fun s => s.pwr.state) = some .tripped := by decide +kernel
/-- R399: a tamper event empties the Root Store. -/
theorem test_tamper : after (.tamperTrip .voltage) { live with keys := { live.keys with tenantRoot := some (zeros 32) } }
    (fun s => s.keys.zeroized) = some true := by decide +kernel
/-- R501: a new cap waits for the calendar second. -/
theorem test_cap_waits : after (.powerCapSet (pktV 0xD03 (toLE 2 1000 ++ zeros 6))) live (fun s => (s.pwr.cap, s.pwr.capNext)) =
    some (1900, some 1000) := by decide +kernel
/-- R67: the trim takes −1,000 to +1,000. -/
theorem test_trim : after (.calTrimWrite 1001) live (fun s => s.cal.trim) = some live.cal.trim ∧
    after (.calTrimWrite 1000) live (fun s => s.cal.trim) = some 1000 := by decide +kernel
/-- R52: the count of corrected errors stays at its highest value. -/
theorem test_ecc_saturates : after .cmEccCorrected { live with cm := { live.cm with eccCorr := 255 } } (fun s => s.cm.eccCorr) =
    some 255 := by decide +kernel
/-- R420: a rotation that is due raises the generation by one. -/
theorem test_rotation : after (.keyRotationDue 0) withDueKey (fun s => (gloveOf s 0).generation) =
    some ((gloveOf withDueKey 0).generation + 1) := by decide +kernel
/-- The CRC-32C of "123456789" is 0xE3069283 (RFC 3720). -/
theorem test_crc32c : Crypto.crc32c [0x31, 0x32, 0x33, 0x34, 0x35, 0x36, 0x37, 0x38, 0x39] = 0xE3069283 := by decide +kernel
/-- A write to a function's memory that makes a byte 0 leaves nothing listed. -/
theorem test_memory_canonical : Memory.writeN [(3, 1)] 3 [0] = [] := by decide +kernel
/-- The SHA-256 digest of "abc" begins BA7816BF (FIPS 180-4). -/
theorem test_sha256 : (Crypto.sha256 [0x61, 0x62, 0x63]).take 4 = [0xBA, 0x78, 0x16, 0xBF] := by decide +kernel
/-- R67 counts from 1970-01-01: day 19,782 is the leap day of 2024. -/
theorem test_civil_date : civilDate 0 = (1970, 1, 1) ∧ civilDate 19782 = (2024, 2, 29) := by decide +kernel
/-- R459: a record whose copies both fail is skipped, and counted. -/
theorem test_lost_record : (let s : State := { live with int := { live.int with
      history := [{ kind := 1, unit := 0, seq := 5, lost := true }, { kind := 1, unit := 1, seq := 6 }] } }
    ((recordsFrom s 5 2).map (fun r => r.seq), recordsSkipped s 5 2)) = ([6], 1) := by decide +kernel

/-! ### What meets the hypotheses of the obligations -/

theorem latAdd_runs : ∃ (p : Packet) (s : State) (d a b : Cask) (k : KeySet) (set : ParamSet),
    LatHyps latAdd p s d a b k set (valOr (latPlan latAdd p s k set d a b) []) :=
  ⟨latPkt 0x310 0 1 0x1 0xffff 0x0, latOps 0, ctCaskOf 0 0 2, ctCaskOf 0 1 2, ctCaskOf 0 1 2, keySet, tiny 0,
    lat_ready (by decide +kernel) rfl (by decide +kernel)⟩
theorem latSub_runs : ∃ (p : Packet) (s : State) (d a b : Cask) (k : KeySet) (set : ParamSet),
    LatHyps latSub p s d a b k set (valOr (latPlan latSub p s k set d a b) []) :=
  ⟨latPkt 0x311 0 1 0x1 0xffff 0x0, latOps 0, ctCaskOf 0 0 2, ctCaskOf 0 1 2, ctCaskOf 0 1 2, keySet, tiny 0,
    lat_ready (by decide +kernel) rfl (by decide +kernel)⟩
theorem latMulConst_runs : ∃ (p : Packet) (s : State) (d a b : Cask) (k : KeySet) (set : ParamSet),
    LatHyps latMulConst p s d a b k set (valOr (latPlan latMulConst p s k set d a b) []) :=
  ⟨latPkt 0x312 0 1 0xffff 0xffff 0x0, latOps 0, ctCaskOf 0 0 2, ctCaskOf 0 1 2, ctCaskOf 0 1 2, keySet, tiny 0,
    lat_ready (by decide +kernel) rfl (by decide +kernel)⟩
theorem latMulPlain_runs : ∃ (p : Packet) (s : State) (d a b : Cask) (k : KeySet) (set : ParamSet),
    LatHyps latMulPlain p s d a b k set (valOr (latPlan latMulPlain p s k set d a b) []) :=
  ⟨latPkt 0x313 0 1 0x2 0xffff 0x0, latOps 0, ctCaskOf 0 0 2, ctCaskOf 0 1 2, plainOf 0 2 2, keySet, tiny 0,
    lat_ready (by decide +kernel) rfl (by decide +kernel)⟩
theorem latMul_runs : ∃ (p : Packet) (s : State) (d a b : Cask) (k : KeySet) (set : ParamSet),
    LatHyps latMul p s d a b k set (valOr (latPlan latMul p s k set d a b) []) :=
  ⟨latPkt 0x314 0 1 0x1 0x3 0x0, latOps 0, ctCaskOf 0 0 2, ctCaskOf 0 1 2, ctCaskOf 0 1 2, keySet, tiny 0,
    lat_ready (by decide +kernel) rfl (by decide +kernel)⟩
theorem latRotate_runs : ∃ (p : Packet) (s : State) (d a b : Cask) (k : KeySet) (set : ParamSet),
    LatHyps latRotate p s d a b k set (valOr (latPlan latRotate p s k set d a b) []) :=
  ⟨latPkt 0x315 0 1 0xffff 0x3 0x3, latOps 0, ctCaskOf 0 0 2, ctCaskOf 0 1 2, ctCaskOf 0 1 2, keySet, tiny 0,
    lat_ready (by decide +kernel) rfl (by decide +kernel)⟩
theorem latRescale_runs : ∃ (p : Packet) (s : State) (d a b : Cask) (k : KeySet) (set : ParamSet),
    LatHyps latRescale p s d a b k set (valOr (latPlan latRescale p s k set d a b) []) :=
  ⟨latPkt 0x316 5 1 0xffff 0x3 0x0, latOps 0, ctCaskOf 0 5 1, ctCaskOf 0 1 2, ctCaskOf 0 1 2, keySet, tiny 0,
    lat_ready (by decide +kernel) rfl (by decide +kernel)⟩
theorem latLevelDrop_runs : ∃ (p : Packet) (s : State) (d a b : Cask) (k : KeySet) (set : ParamSet),
    LatHyps latLevelDrop p s d a b k set (valOr (latPlan latLevelDrop p s k set d a b) []) :=
  ⟨latPkt 0x317 5 1 0xffff 0xffff 0x1, latOps 1, ctCaskOf 1 5 1, ctCaskOf 1 1 2, ctCaskOf 1 1 2, keySet, tiny 1,
    lat_ready (by decide +kernel) rfl (by decide +kernel)⟩
theorem latForm_runs : ∃ (p : Packet) (s : State) (d a b : Cask) (k : KeySet) (set : ParamSet),
    LatHyps latForm_ p s d a b k set (valOr (latPlan latForm_ p s k set d a b) []) :=
  ⟨latPkt 0x318 0 1 0xffff 0x3 0x1, latOps 0, ctCaskOf 0 0 2, ctCaskOf 0 1 2, ctCaskOf 0 1 2, keySet, tiny 0,
    lat_ready (by decide +kernel) rfl (by decide +kernel)⟩
theorem refreshPacked_runs : ∃ (p : Packet) (s : State) (d a b : Cask) (k : KeySet) (set : ParamSet),
    LatHyps refreshPackedOp p s d a b k set (valOr (latPlan refreshPackedOp p s k set d a b) []) :=
  ⟨latPkt 0x410 4 1 0xffff 0x3 0x0, latOps 1, ctCaskOf 1 4 4, ctCaskOf 1 1 2, ctCaskOf 1 1 2, keySet, tiny 1,
    lat_ready (by decide +kernel) rfl (by decide +kernel)⟩
theorem refreshLwe_runs : ∃ (p : Packet) (s : State) (d a b : Cask) (k : KeySet) (set : ParamSet),
    LatHyps refreshLweOp p s d a b k set (valOr (latPlan refreshLweOp p s k set d a b) []) :=
  ⟨latPkt 0x411 0 1 0xffff 0xffff 0x1, latOps 2, ctCaskOf 2 0 1, ctCaskOf 2 1 1, ctCaskOf 2 1 1, keySet, tiny 2,
    lat_ready (by decide +kernel) rfl (by decide +kernel)⟩
theorem schemeSwitch_runs : ∃ (p : Packet) (s : State) (d a b : Cask) (k : KeySet) (set : ParamSet),
    LatHyps schemeSwitchOp p s d a b k set (valOr (latPlan schemeSwitchOp p s k set d a b) []) :=
  ⟨latPkt 0x412 0 1 0xffff 0x3 0xff00, latOps 1, ctCaskOf 1 0 2, ctCaskOf 1 1 2, ctCaskOf 1 1 2, keySet, tiny 1,
    lat_ready (by decide +kernel) rfl (by decide +kernel)⟩
def wireAtomic : State := { wire .established with windows := [{ window 4098 0 1 0 with rights := 8 }] }
theorem accumulate_accepted : ∃ (w : WraPacket) (s : State) (c c1 k : Conn) (w1 : WraPacket) (win : Option Window), Accepted 0x04 w s c c1 k w1 win :=
  ⟨wra 4097 (toLE 4 199 ++ toLE 4 4) [1, 0], wire .established, accepted_of (w1 := wra 4097 (toLE 4 199 ++ toLE 4 4) [1, 0]) (c := wireConn .established) (c1 := wireConn .established) (by decide +kernel) rfl (by decide +kernel)
    (ok_val none (by decide +kernel)) rfl (by decide +kernel) (by decide +kernel)⟩
theorem write_accepted : ∃ (w : WraPacket) (s : State) (c c1 k : Conn) (w1 : WraPacket) (win : Option Window), Accepted 0x01 w s c c1 k w1 win :=
  ⟨wra 4098 [] [1], wire .established, accepted_of (w1 := wra 4098 [] [1]) (c := wireConn .established) (c1 := wireConn .established) (by decide +kernel) rfl (by decide +kernel)
    (ok_val none (by decide +kernel)) rfl (by decide +kernel) (by decide +kernel)⟩
theorem readReq_accepted : ∃ (w : WraPacket) (s : State) (c c1 k : Conn) (w1 : WraPacket) (win : Option Window), Accepted 0x02 w s c c1 k w1 win :=
  ⟨wra 4098 (zeros 4 ++ toLE 4 8) [], wire .established, accepted_of (w1 := wra 4098 (zeros 4 ++ toLE 4 8) []) (c := wireConn .established) (c1 := wireConn .established) (by decide +kernel) rfl (by decide +kernel)
    (ok_val none (by decide +kernel)) rfl (by decide +kernel) (by decide +kernel)⟩
theorem atomic_accepted : ∃ (w : WraPacket) (s : State) (c c1 k : Conn) (w1 : WraPacket) (win : Option Window), Accepted 0x05 w s c c1 k w1 win :=
  ⟨wra 4098 (zeros 24) [], wireAtomic, accepted_of (w1 := wra 4098 (zeros 24) []) (c := wireConn .established) (c1 := wireConn .established) (by decide +kernel) rfl (by decide +kernel)
    (ok_val none (by decide +kernel)) rfl (by decide +kernel) (by decide +kernel)⟩
theorem send_accepted : ∃ (w : WraPacket) (s : State) (c c1 k : Conn) (w1 : WraPacket) (win : Option Window), Accepted 0x07 w s c c1 k w1 win :=
  ⟨wra 4099 [] [1], wire .established, accepted_of (w1 := wra 4099 [] [1]) (c := wireConn .established) (c1 := wireConn .established) (by decide +kernel) rfl (by decide +kernel)
    (ok_val none (by decide +kernel)) rfl (by decide +kernel) (by decide +kernel)⟩
theorem partialPkt_accepted : ∃ (w : WraPacket) (s : State) (c c1 k : Conn) (w1 : WraPacket) (win : Option Window), Accepted 0x0D w s c c1 k w1 win :=
  ⟨wra 4097 (zeros 16) [1, 0], wire .established, accepted_of (w1 := wra 4097 (zeros 16) [1, 0]) (c := wireConn .established) (c1 := wireConn .established) (by decide +kernel) rfl (by decide +kernel)
    (ok_val none (by decide +kernel)) rfl (by decide +kernel) (by decide +kernel)⟩
theorem shard_accepted : ∃ (w : WraPacket) (s : State) (c c1 k : Conn) (w1 : WraPacket) (win : Option Window), Accepted 0x0F w s c c1 k w1 win :=
  ⟨wra 0 (toLE 4 2 ++ toLE 1 1 ++ toLE 1 0 ++ toLE 2 1 ++ toLE 4 (shardBytes 200) ++ zeros 4) [], wire .established, accepted_of (w1 := wra 0 (toLE 4 2 ++ toLE 1 1 ++ toLE 1 0 ++ toLE 2 1 ++ toLE 4 (shardBytes 200) ++ zeros 4) []) (c := wireConn .established) (c1 := wireConn .established) (by decide +kernel) rfl (by decide +kernel)
    (ok_val none (by decide +kernel)) rfl (by decide +kernel) (by decide +kernel)⟩
theorem readResp_accepted : ∃ (w : WraPacket) (s : State) (c c1 k : Conn) (w1 : WraPacket) (win : Option Window), Accepted 0x03 w s c c1 k w1 win :=
  ⟨wra 4098 (zeros 16) [1] 7, wire .established, accepted_of (w1 := wra 4098 (zeros 16) [1] 7) (c := wireConn .established) (c1 := wireConn .established) (by decide +kernel) rfl (by decide +kernel)
    (ok_val none (by decide +kernel)) rfl (by decide +kernel) (by decide +kernel)⟩
theorem atomicResp_accepted : ∃ (w : WraPacket) (s : State) (c c1 k : Conn) (w1 : WraPacket) (win : Option Window), Accepted 0x06 w s c c1 k w1 win :=
  ⟨wra 0 (zeros 16) [] 8, wire .established, accepted_of (w1 := wra 0 (zeros 16) [] 8) (c := wireConn .established) (c1 := wireConn .established) (by decide +kernel) rfl (by decide +kernel)
    (ok_val none (by decide +kernel)) rfl (by decide +kernel) (by decide +kernel)⟩
/-- The word after the UDP port, which is no register of the list. -/
theorem registerWritesComplete_beside : ∃ (s : State) (offset : Nat), regsReady s = true ∧ offset ≠ 0x00071000 ∧ ((∀ port : Nat, port < 10 → offset ≠ 0x00070008 + 0x100 * port ∧ offset ≠ 0x00090004 + 0x40 * port ∧ offset ≠ 0x00090008 + 0x40 * port ∧ offset ≠ 0x0009000C + 0x40 * port ∧ offset ≠ 0x00090010 + 0x40 * port)) :=
  ⟨live, 0x00071004, by decide +kernel⟩
theorem stepTakesFrontCommand_0 : ∃ (c : Instr) (rest : List Instr) (s : State), s.pending = c :: rest :=
  ⟨.auxLoss, [], { live with pending := [.auxLoss] }, rfl⟩
theorem stepTakesFrontCommand_1 : ∃ (s : State), s.pending = [] :=
  ⟨State.reset, rfl⟩
theorem queueCommandsComplete_0 : ∃ (p : Packet) (s : State), Admitted cmdNop p s :=
  ⟨pkt 0 [], live, by decide +kernel⟩
theorem queueCommandsComplete_1 : ∃ (p : Packet) (s : State), Admitted cmdQueueCreate p s ∧ ((p.u8 2 ≠ 0 ∨ (s.queues.filter (fun q => q.kind == .command && q.bound == p.u16 4)).length < 64)) :=
  ⟨pkt 1 (toLE 2 259 ++ toLE 2 0x0600 ++ toLE 2 256 ++ zeros 18), live, by decide +kernel⟩
theorem queueCommandsComplete_2 : ∃ (p : Packet) (s : State) (q : Queue), Admitted cmdQueueDestroy p s ∧ queueOf s (p.u16 0) = some q ∧ q.kind ≠ .command :=
  ⟨pkt 2 (toLE 2 257 ++ zeros 6), live, queue 257 0 .event, by decide +kernel⟩
theorem queueCommandsComplete_3 : ∃ (p : Packet) (s s1 s2 : State) (q : Queue) (a b n : Nat), Admitted cmdQueueDestroy p s ∧ queueOf s (p.u16 0) = some q ∧ q.kind = .command ∧ flushStaged s (p.u16 0) q.prod = (s1, a) ∧ discardUnfetched s1 q q.prod = (s2, b, n) :=
  ⟨pkt 2 (toLE 2 259 ++ zeros 6), withQ (queue 259 0 .command 256), (flushStaged (withQ (queue 259 0 .command 256)) 259 0).1, (discardUnfetched (flushStaged (withQ (queue 259 0 .command 256)) 259 0).1 (queue 259 0 .command 256) 0).1, queue 259 0 .command 256, 0, 0, 0, by decide +kernel⟩
theorem queueCommandsComplete_4 : ∃ (p : Packet) (s s1 : State) (q : Queue) (a : Nat), Admitted cmdQueueFlush p s ∧ queueOf s (p.u16 0) = some q ∧ flushStaged s q.id (p.mark.getD q.prod) = (s1, a) ∧ q.state = .halted :=
  ⟨pkt 3 (toLE 2 259 ++ zeros 6), withQ haltedQ, (flushStaged (withQ haltedQ) 259 0).1, haltedQ, 0, by decide +kernel⟩
theorem queueCommandsComplete_5 : ∃ (p : Packet) (s s1 s2 : State) (q : Queue) (a b : Nat), Admitted cmdQueueFlush p s ∧ queueOf s (p.u16 0) = some q ∧ flushStaged s q.id (p.mark.getD q.prod) = (s1, a) ∧ q.state ≠ .halted ∧ flushRing q.slots.length s1 q.id (p.mark.getD q.prod) = (s2, b) :=
  ⟨pkt 3 (toLE 2 258 ++ zeros 6), live, (flushStaged live 258 0).1, (flushRing 0 (flushStaged live 258 0).1 258 0).1, queue 258 0 .command 256, 0, 0, by decide +kernel⟩
theorem queueCommandsComplete_6 : ∃ (p : Packet) (s : State) (q : Queue), Admitted cmdQueueQuery p s ∧ queueOf s (p.u16 0) = some q :=
  ⟨pkt 4 (toLE 2 258 ++ zeros 6), live, queue 258 0 .command 256, by decide +kernel⟩
theorem sessionCommandsComplete_0 : ∃ (p : Packet) (s s1 s2 : State) (seed : List Byte), Admitted cmdSessionKeygen p s ∧ DrawReady cmdSessionKeygen p s 2 ∧ drawBytes (takeBlocks s p.ctx 2) 64 = (seed, s1) ∧ writeWindow s1 p.ctx (p.u32 0) (p.u64 8) (padTo 1568 (Config.mlkemEk seed)) = .ok s2 :=
  ⟨pkt 0x10 (key0 ++ zeros 12), live, (drawBytes (takeBlocks live 0 2) 64).2, _, (drawBytes (takeBlocks live 0 2) 64).1, by decide +kernel, by decide +kernel, rfl, write_blank 1568 (Nat.le_of_eq (padTo_length _ _)) (by decide +kernel)⟩
theorem sessionCommandsComplete_1 : ∃ (p : Packet) (s : State), Admitted cmdSessionOpen p s ∧ lpddrFits s p.ctx (tableMib (p.u8 16)) = true :=
  ⟨pkt 0x11 (zeros 16 ++ toLE 1 21 ++ zeros 1599), withSession { state := .keyed }, by decide +kernel⟩
theorem sessionCommandsComplete_2 : ∃ (p : Packet) (s : State), Admitted cmdSessionClose p s :=
  ⟨pkt 0x12 (zeros 8), withSession { state := .established }, by decide +kernel⟩
theorem sessionCommandsComplete_3 : ∃ (p : Packet) (s : State), Admitted cmdSessionQuery p s :=
  ⟨pkt 0x13 (zeros 8), live, by decide +kernel⟩
theorem vintageCommandsComplete_0 : ∃ (p : Packet) (s : State), Admitted cmdVintageCreate p s ∧ openCount s (fun v => v.glove == p.ctx) < 32 ∧ openCount s (fun _ => true) < 128 ∧ lpddrFits s p.ctx (vintageLpddr (p.u8 0 == 1) (p.u32 4) (p.u16 60)) = true :=
  ⟨pkt 0x101 (zeros 4 ++ toLE 4 200 ++ toLE 4 100 ++ toLE 2 0xFFFF ++ zeros 2 ++ toLE 8 10 ++ toLE 8 20 ++ toLE 8 30 ++ zeros 20 ++ toLE 2 1 ++ zeros 10) 9, live, by decide +kernel⟩
theorem vintageCommandsComplete_1 : ∃ (p : Packet) (s : State) (v : Vintage), Admitted cmdVintageOpen p s ∧ DrawReady cmdVintageOpen p s 4 ∧ vintageOf (takeBlocks s p.ctx 4) p.ctx p.vintage = some v :=
  ⟨pkt 0x104 [] 3, withV (paired .draft), paired .draft, by decide +kernel⟩
theorem vintageCommandsComplete_2 : ∃ (p : Packet) (s : State) (v w : Vintage), Admitted cmdVintageSeal p s ∧ vintageOf s p.ctx p.vintage = some v ∧ vintageOf (sealVintage s p.ctx p.vintage p.stamp) p.ctx p.vintage = some w :=
  ⟨pkt 0x105 [] 1, withV (vintage 1 .opened), vintage 1 .opened, _, by decide +kernel, by decide +kernel, (some_of_isSome (by decide +kernel)).choose_spec⟩
theorem vintageCommandsComplete_3 : ∃ (p : Packet) (s : State) (v : Vintage), Admitted cmdVintageQuery p s ∧ vintageOf s p.ctx p.vintage = some v :=
  ⟨pkt 0x108 [] 1, withV (vintage 1 .opened), vintage 1 .opened, by decide +kernel⟩
theorem vintageCommandsComplete_5 : ∃ (p : Packet) (s s1 : State) (v : Vintage) (sum : Summary), Admitted cmdVintageClose p s ∧ vintageOf s p.ctx p.vintage = some v ∧ enterEnd s v .closed false = (s1, sum) :=
  ⟨pkt 0x106 [] 1, withV (vintage 1 .released), (enterEnd (withV (vintage 1 .released)) (vintage 1 .released) .closed false).1, vintage 1 .released, (enterEnd (withV (vintage 1 .released)) (vintage 1 .released) .closed false).2, by decide +kernel, by decide +kernel, rfl⟩
theorem vintageCommandsComplete_6 : ∃ (p : Packet) (s s1 s2 : State) (n : Nat) (v : Vintage) (sum : Summary), Admitted cmdVintageAbort p s ∧ vintageOf s p.ctx p.vintage = some v ∧ preempt s 4 0x0107 (fun o => o.names.any (abortScope s p.ctx p.vintage).contains) = (s1, n) ∧ enterEnd s1 v .aborted false = (s2, sum) :=
  ⟨pkt 0x107 [] 1, withV (vintage 1 .opened), _, _, _, vintage 1 .opened, _, by decide +kernel, by decide +kernel, Prod.eta _ |>.symm, Prod.eta _ |>.symm⟩
theorem caskCommandsComplete_0 : ∃ (p : Packet) (s : State), Admitted cmdCaskAlloc p s ∧ ((p.u8 3 ≠ 0 ∨ (newCask p s).spilled = false)) ∧ lpddrFits s p.ctx (newCask p s).lpddr = true ∧ s.casks.length < 16384 ∧ ((p.u8 2 ≠ 3 ∨ badModulus (caskModuli p) = none)) :=
  ⟨pkt 0x102 (toLE 2 1 ++ zeros 1 ++ toLE 1 1 ++ toLE 4 4 ++ toLE 1 1 ++ zeros 15) 1, withV (vintage 1 .draft), by decide +kernel⟩
theorem caskCommandsComplete_1 : ∃ (p : Packet) (s : State), Admitted cmdCaskFree p s :=
  ⟨pkt 0x103 (zeros 8), withV (vintage 1 .draft), by decide +kernel⟩
theorem caskCommandsComplete_2 : ∃ (p : Packet) (s : State) (c : Cask), Admitted cmdCaskQuery p s ∧ caskOf s p.ctx (p.u16 0) = some c :=
  ⟨pkt 0x109 (zeros 8), withV (vintage 1 .draft), cask 0 1 0 0, by decide +kernel⟩
theorem caskCommandsComplete_3 : ∃ (p : Packet) (s : State) (v : Vintage) (c st : Cask) (row : Adjustment), Admitted cmdCaskAdjust p s ∧ vintageOf s p.ctx p.vintage = some v ∧ caskOf s p.ctx (p.u16 0) = some c ∧ caskOf s p.ctx (p.u16 2) = some st ∧ adjustRow v c (p.u8 4 == 1) (p.u32 8) = some row ∧ vectorDigest v.printDraw c (p.u32 8) ((List.range (caskCount st)).map (coord st)) = row.digest :=
  ⟨pkt 0x122 (toLE 2 0 ++ toLE 2 1 ++ zeros 12) 1, withRetracting, retractingV, retractingC, cask 1 0 1 0, _, by decide +kernel, by decide +kernel, by decide +kernel, by decide +kernel, rfl, digest_zeros 0 0 _ 4⟩
theorem leesCommandsComplete_0 : ∃ (p : Packet) (s : State) (v : Vintage), Admitted cmdLeesRack p s ∧ vintageOf s p.ctx p.vintage = some v ∧ batchError v retracted (batchClients p) = none :=
  ⟨pkt 0x120 (toLE 2 1 ++ zeros 6 ++ toLE 4 199) 1, withV (vintage 1 .opened), vintage 1 .opened, by decide +kernel⟩
theorem leesCommandsComplete_1 : ∃ (p : Packet) (s : State) (v : Vintage), Admitted cmdLeesRetract p s ∧ vintageOf s p.ctx p.vintage = some v ∧ batchError v racked (batchClients p) = none :=
  ⟨pkt 0x121 (toLE 2 1 ++ zeros 6 ++ toLE 4 199) 1, withV (vintage 1 .opened), vintage 1 .opened, by decide +kernel⟩
theorem maskSetupCommandsComplete_0 : ∃ (p : Packet) (s : State) (v : Vintage), Admitted cmdMaskSetup p s ∧ setupSealed p = false ∧ vintageOf s p.ctx p.vintage = some v ∧ lpddrFits s p.ctx (maskLpddr v.clients (p.u8 1) false) = true :=
  ⟨pkt 0x201 (toLE 1 0 ++ toLE 1 2 ++ toLE 1 2 ++ toLE 1 0 ++ zeros 4 ++ zeros 72) 3, withV (vintage 3 .draft), vintage 3 .draft, by decide +kernel⟩
theorem maskSetupCommandsComplete_1 : ∃ (p : Packet) (s s1 s3 : State) (v : Vintage) (key : List Byte), Admitted cmdMaskSetup p s ∧ setupSealed p = true ∧ DrawReady cmdMaskSetup p s 1 ∧ vintageOf (takeBlocks s p.ctx 1) p.ctx p.vintage = some v ∧ lpddrFits (takeBlocks s p.ctx 1) p.ctx (maskLpddr v.clients (p.u8 1) true) = true ∧ drawBytes (takeBlocks s p.ctx 1) 32 = (key, s1) ∧ (
    writeWindow (setVintage s1 p.ctx p.vintage (fun x => { x with
        masking := some {
          uploaded := p.u8 0 == 1, degree := p.u8 1, threshold := p.u8 2, commit := (p.u8 3).testBit 0
          sealedShares := true, salt := p.bytes 16 32, seed := p.bytes 48 32, engineKey := key }
        lpddr := x.lpddr + maskLpddr v.clients (p.u8 1) true })) p.ctx (p.u32 4) (p.u64 8) (Crypto.x25519Base key) = .ok s3) :=
  ⟨pkt 0x201 (toLE 1 0 ++ toLE 1 2 ++ toLE 1 2 ++ toLE 1 2 ++ key0 ++ zeros 72) 3, withV (vintage 3 .draft), (drawBytes (takeBlocks (withV (vintage 3 .draft)) 0 1) 32).2, _, vintage 3 .draft, (drawBytes (takeBlocks (withV (vintage 3 .draft)) 0 1) 32).1, by decide +kernel, by decide +kernel, by decide +kernel, by decide +kernel, by decide +kernel, rfl, write_blank 32 (Nat.le_of_eq (by rw [Crypto.x25519Base, Crypto.x25519, toLE_length])) (by decide +kernel)⟩
theorem maskSetupCommandsComplete_2 : ∃ (p : Packet) (s s1 : State) (v : Vintage) (m : Masking) (bytes : List Byte), Admitted cmdGraphLoad p s ∧ draftMasking s p.ctx p.vintage = .ok (v, m) ∧ readWindow s p.ctx (p.u32 8) (p.u64 16) (p.u32 4 * 4 * m.degree) = .ok (bytes, s1) ∧ (List.zip ((List.range (p.u32 4)).map (· + p.u32 0)) (pieces (4 * m.degree) bytes)).find? (fun x => badGraphRecord v m x.1 x.2) = none :=
  ⟨pkt 0x202 (toLE 4 198 ++ toLE 4 2 ++ keyH0 ++ zeros 12) 3, graphState, _, uploadV, uploadM, _, by decide +kernel, rfl, ok_val ([], graphState) (by decide +kernel), by decide +kernel⟩
theorem maskSetupCommandsComplete_3 : ∃ (p : Packet) (s s1 : State) (v : Vintage) (m : Masking) (bytes : List Byte), Admitted cmdPubkeyLoad p s ∧ draftMasking s p.ctx p.vintage = .ok (v, m) ∧ readWindow s p.ctx (p.u32 8) (p.u64 16) (p.u32 4 * pubkeyEntry p) = .ok (bytes, s1) :=
  ⟨pkt 0x203 (toLE 4 198 ++ toLE 4 2 ++ key0 ++ zeros 12) 3, withV (masked .draft), _, masked .draft, maskingOf, _, by decide +kernel, rfl, read_blank (by decide +kernel)⟩
theorem ledgerCommandsComplete_0 : ∃ (p : Packet) (s s1 s2 : State) (v : Vintage) (m : Masking) (a : Answer) (bytes : List Byte), Admitted cmdShareSubmit p s ∧ vintageOf s p.ctx p.vintage = some v ∧ v.masking = some m ∧ ((p.u8 0 = 0 ∧ bytes = p.bytes 16 (64 * p.u16 2) ∧ s1 = s ∨ p.u8 0 ≠ 0 ∧ readWindow s p.ctx (p.u32 4) (p.u64 8) (64 * p.u16 2) = .ok (bytes, s1))) ∧ (¬ (1 < v.shardCount ∧ v.survivorsFixed = false ∧ v.state ≠ .draft ∧ v.state ≠ .opened ∧ v.c < p.stamp.count ∧ p.stamp.count ≤ v.s)) ∧ judgeShares p s1 v m (pieces 64 bytes) = (s2, a) ∧ a.status = .ok :=
  ⟨pktAt 15 0x210 (toLE 2 0 ++ toLE 2 1 ++ zeros 12 ++ shareRecord) 3, withV (paired .sealedV), withV (paired .sealedV), _, paired .sealedV, pairMasking, _, shareRecord, by decide +kernel, by decide +kernel, by decide +kernel, .inl (by decide +kernel), by decide +kernel, (Prod.eta _).symm, by decide +kernel⟩
theorem ledgerCommandsComplete_1 : ∃ (p : Packet) (s s1 : State) (v : Vintage) (m : Masking) (bytes : List Byte), Admitted cmdShareSubmit p s ∧ vintageOf s p.ctx p.vintage = some v ∧ v.masking = some m ∧ ((p.u8 0 = 0 ∧ bytes = p.bytes 16 (64 * p.u16 2) ∧ s1 = s ∨ p.u8 0 ≠ 0 ∧ readWindow s p.ctx (p.u32 4) (p.u64 8) (64 * p.u16 2) = .ok (bytes, s1))) ∧ 1 < v.shardCount ∧ v.survivorsFixed = false ∧ v.state ≠ .draft ∧ v.state ≠ .opened ∧ v.c < p.stamp.count ∧ p.stamp.count ≤ v.s :=
  ⟨pktAt 15 0x210 (toLE 2 0 ++ toLE 2 1 ++ zeros 12 ++ shareRecord) 3, withV shardedV, withV shardedV, shardedV, pairMasking, shareRecord, by decide +kernel, by decide +kernel, by decide +kernel, .inl (by decide +kernel), by decide +kernel⟩
theorem ledgerCommandsComplete_2 : ∃ (p : Packet) (s : State) (v : Vintage) (m : Masking), Admitted cmdLedgerQuery p s ∧ vintageOf s p.ctx p.vintage = some v ∧ v.masking = some m ∧ p.u32 0 = 0xFFFFFFFF :=
  ⟨pkt 0x211 (toLE 4 0xFFFFFFFF ++ zeros 4) 3, withV (paired .sealedV), paired .sealedV, pairMasking, by decide +kernel⟩
theorem ledgerCommandsComplete_3 : ∃ (p : Packet) (s : State) (v : Vintage) (m : Masking), Admitted cmdLedgerQuery p s ∧ vintageOf s p.ctx p.vintage = some v ∧ v.masking = some m ∧ p.u32 0 ≠ 0xFFFFFFFF :=
  ⟨pkt 0x211 (toLE 4 1 ++ zeros 4) 3, withV (paired .sealedV), paired .sealedV, pairMasking, by decide +kernel⟩
theorem maskerCommandsComplete_0 : ∃ (p : Packet) (s s5 : State), Admitted cmdMaskKeygen p s ∧ DrawReady cmdMaskKeygen p s 4 ∧ 
    (let s0 := takeBlocks s p.ctx 4
     let seed := toLE 32 (leNat (drawBytes s0 32).1 % gfP)
     let sk := toLE 32 (leNat (drawBytes (drawBytes s0 32).2 32).1 % gfP)
     let slot (n usage kind lifetime left : Nat) : KeySlot := {
       slot := n, owner := p.ctx, state := .loaded, keyId := 0, parent := 0, usage := usage, kind := kind
       lifetime := lifetime, left := left, share0 := [], share1 := [] }
     writeWindow (loadSlot (loadSlot (drawBytes (drawBytes s0 32).2 32).2 (slot (p.u16 0) usageMaskSelf 0 1 1) seed)
       (slot (p.u16 2) usageMaskAgree 2 0 0) sk) p.ctx (p.u32 4) (p.u64 8) (Crypto.x25519Base sk) = .ok s5) :=
  ⟨pktM 0x220 (toLE 2 32 ++ toLE 2 33 ++ key1 ++ zeros 8), live, _, by decide +kernel, by decide +kernel, write_blank 32 (Nat.le_of_eq (by rw [Crypto.x25519Base, Crypto.x25519, toLE_length])) (by decide +kernel)⟩
theorem maskerCommandsComplete_1 : ∃ (p : Packet) (s s1 : State) (c : Cask) (self_ agree : KeySlot) (bytes : List Byte), Admitted cmdMaskApply p s ∧ caskOf s p.ctx (p.u16 0) = some c ∧ servingSlot s (p.u16 2) = .ok self_ ∧ servingSlot s (p.u16 4) = .ok agree ∧ readWindow s p.ctx (p.u32 16) (p.u64 24) (36 * p.u16 6) = .ok (bytes, s1) ∧ badNeighbour (p.u32 8) (neighbourList bytes) = none :=
  ⟨pktM 0x221 (toLE 2 0 ++ toLE 2 32 ++ toLE 2 33 ++ toLE 2 2 ++ zeros 8 ++ keyH1 ++ zeros 52), masker, _, { cask 0 0 1 0 1 with role := 2 }, slot 32 usageMaskSelf 0, slot 33 usageMaskAgree 2, _, by decide +kernel, by decide +kernel, rfl, rfl, ok_val ([], masker) (by decide +kernel), by decide +kernel⟩
theorem maskerCommandsComplete_2 : ∃ (p : Packet) (s s1 s3 : State) (k agree : KeySlot) (bytes : List Byte), Admitted cmdShareSplit p s ∧ DrawReady cmdShareSplit p s (p.u8 4 - 1) ∧ servingSlot (takeBlocks s p.ctx (p.u8 4 - 1)) (p.u16 0) = .ok k ∧ servingSlot (takeBlocks s p.ctx (p.u8 4 - 1)) (p.u16 2) = .ok agree ∧ readWindow (takeBlocks s p.ctx (p.u8 4 - 1)) p.ctx (p.u32 16) (p.u64 24) (36 * p.u8 5) = .ok (bytes, s1) ∧ badNeighbour (p.u32 8) (neighbourList bytes) = none ∧ 
    (let coeffs := drawBytes s1 (32 * (p.u8 4 - 1))
     let poly := leNat (slotKey k) % gfP :: (pieces 32 coeffs.1).map (fun c => leNat c % gfP)
     let kind := if k.usage &&& usageMaskSelf != 0 then 1 else 2
     writeWindow (setKeySlot coeffs.2 (p.u16 0) (fun k => { k with split := true })) p.ctx (p.u32 20) (p.u64 32)
       ((neighbourList bytes).map (fun e =>
         splitRecord (drawnOf p) (leNat (slotKey agree)) kind (gfEval poly (e.1 + 1)) e)).flatten = .ok s3) :=
  ⟨pktM 0x222 (toLE 2 32 ++ toLE 2 33 ++ toLE 1 2 ++ toLE 1 2 ++ zeros 10 ++ keyH1 ++ key1 ++ zeros 48), masker, _, _, slot 32 usageMaskSelf 0, slot 33 usageMaskAgree 2, _, by decide +kernel, by decide +kernel, rfl, rfl, ok_val ([], masker) (by decide +kernel), by decide +kernel, write_blank 128 (flatten_le _ 64 (fun e => split_length _ _ _ _ e) _ 2 (by decide +kernel)) (by decide +kernel)⟩
theorem latticeSetCommandsComplete_0 : ∃ (p : Packet) (s : State), Admitted cmdLatParamLoad p s ∧ primesUsed (gloveOf s p.ctx) + (loadedSet p).limbs + (loadedSet p).special ≤ (gloveOf s p.ctx).cfg.primes :=
  ⟨pkt 0x301 (zeros 8 ++ toLE 1 2 ++ toLE 1 0 ++ toLE 1 1 ++ zeros 3 ++ zeros 2 ++ toLE 2 819 ++ toLE 2 256 ++ zeros 4 ++ toLE 8 2 ++ toLE 8 4093), live, by decide +kernel⟩
theorem latticeSetCommandsComplete_1 : ∃ (p : Packet) (s : State), Admitted cmdLatUnload p s :=
  ⟨pkt 0x302 (zeros 8), { live with gloves := { gloveOfTest 0 with params := [tiny 0] } :: live.gloves.drop 1 }, by decide +kernel⟩
theorem latticeSetCommandsComplete_2 : ∃ (p : Packet) (s : State), Admitted cmdLatKeysetCreate p s ∧ (gloveOf s p.ctx).keySets.length < 16 :=
  ⟨pkt 0x303 (toLE 4 1 ++ zeros 4), latticeBare 0 [], by decide +kernel⟩
theorem latticeSetCommandsComplete_3 : ∃ (p : Packet) (s s1 s2 : State) (k : KeySet) (set : ParamSet) (shape : KeyShape) (head body : List Byte), Admitted cmdLatEvkLoad p s ∧ keySetOf s p.ctx (p.u32 0) = some k ∧ paramSetOf s p.ctx k.set = some set ∧ readWindow s p.ctx (p.u32 4) (p.u64 8) 96 = .ok (head, s1) ∧ keyShape s p.ctx k set (field head 36 1) (field head 40 4) = some shape ∧ hasKey k (field head 36 1) (field head 40 4) = false ∧ evkCount (gloveOf s p.ctx) < 4096 ∧ lpddrFits s p.ctx (mib2 (8 * keyValues shape)) = true ∧ allZero (slice head 37 3) = true ∧ allZero (slice head 44 20) = true ∧ readWindow s1 p.ctx (p.u32 4) (p.u64 8 + 96) (8 * keyValues shape) = .ok (body, s2) ∧ (List.zip (List.range (keyValues shape)) ((pieces 8 body).map leNat)).all (fun x => x.2 < valueModulus shape x.1) = true ∧ blocksFull shape (field head 36 1) (slice head 64 32) = true ∧ slice head 0 32 = set.digest ∧ field head 32 4 = k.id := by
  refine ⟨pkt 0x304 (zeros 4 ++ key0 ++ zeros 8), unitState bareKeys, unitState bareKeys, unitState bareKeys, bareKeys, unitSet, ⟨1, [], 1, 1, true⟩, zeros 96, zeros 0, ?main⟩
  case main => and_intros <;> first | exact read_blank (by decide +kernel) | decide +kernel
theorem latticeSetCommandsComplete_4 : ∃ (p : Packet) (s : State) (c : Cask) (set : ParamSet), Admitted cmdLatBind p s ∧ caskOf s p.ctx (p.u16 0) = some c ∧ setOfKeys s p.ctx (p.u32 4) = some set ∧ lpddrFits s p.ctx (mib2 (64 * (c.n / ctSize set))) = true ∧ ((c.role ≠ 0 ∨ ((vintageOf s p.ctx c.vintage).map (fun v => v.keySet == p.u32 4)).getD true = true)) :=
  ⟨pkt 0x305 (zeros 16), latticeBare 0 [unbound 1], unbound 1, tiny 0, by decide +kernel⟩
theorem latticeSetCommandsComplete_5 : ∃ (p : Packet) (s : State) (c : Cask) (b : Binding) (set : ParamSet), Admitted cmdLatImport p s ∧ caskOf s p.ctx (p.u16 0) = some c ∧ c.binding = some b ∧ setOfKeys s p.ctx b.keySet = some set :=
  ⟨pkt 0x306 (zeros 8 ++ toLE 4 1 ++ zeros 4), lattice 0 keySet [ctCaskOf 0 0 2], ctCaskOf 0 0 2, { keySet := 0, ntt := true, level := 1, scale := 1280, size := 4, headers := [header 0 2] }, tiny 0, by decide +kernel⟩
theorem latticeSetCommandsComplete_6 : ∃ (p : Packet) (s s1 : State) (c : Cask), Admitted cmdLatHdrRead p s ∧ caskOf s p.ctx (p.u16 0) = some c ∧ writeWindow s p.ctx (p.u32 12) (p.u64 16) ((headersOf c (p.u32 4) (p.u32 8)).flatMap headerBytes) = .ok s1 :=
  ⟨pkt 0x307 (zeros 8 ++ toLE 4 1 ++ key0 ++ zeros 8), lattice 0 keySet [ctCaskOf 0 0 2], _, ctCaskOf 0 0 2, by decide +kernel, by decide +kernel, write_blank 64 (by decide +kernel) (by decide +kernel)⟩
theorem latticeOpcodesComplete_1 : ∃ (p : Packet) (s : State) (d a b : Cask) (k : KeySet) (set : ParamSet) (plan : List (Nat × Nat)), Admitted (latCmd latEncryptPk encryptDraw) p s ∧ DrawReady (latCmd latEncryptPk encryptDraw) p s (Config.encryptBlocks (latDim p s) (latCount p)) ∧ 
    (let s0 := takeBlocks s p.ctx (Config.encryptBlocks (latDim p s) (latCount p))
     latCasks latEncryptPk p s0 = .ok (d, a, b) ∧ keySetOf s0 p.ctx (latKeys p) = some k ∧
     paramSetOf s0 p.ctx k.set = some set ∧ latSpilled latEncryptPk p s0 d a b = false ∧
     scratchNeed set d.limbs ≤ latGranules p s0 ∧ latForeign latEncryptPk p set d a b = false ∧
     latPlan latEncryptPk p s0 k set d a b = .ok plan ∧
     s0.int.faulted.contains (p.ctx, d.id) = false) :=
  ⟨latPkt 0x319 0 2 0xFFFF 3 0, encryptState, ctCaskOf 0 0 2, plainOf 0 2 2, plainOf 0 2 2, keySet, tiny 0, valOr (latPlan latEncryptPk (latPkt 0x319 0 2 0xFFFF 3 0) (takeBlocks encryptState 0 (Config.encryptBlocks 2 1)) keySet (tiny 0) (ctCaskOf 0 0 2) (plainOf 0 2 2) (plainOf 0 2 2)) [], by decide +kernel, ⟨rfl, by decide +kernel, by decide +kernel, Nat.le_of_eq rfl⟩, rfl, by decide +kernel, by decide +kernel, by decide +kernel, by decide +kernel, by decide +kernel, ok_val _ (by decide +kernel), by decide +kernel⟩
theorem refreshCommandsComplete_0 : ∃ (p : Packet) (s : State) (set : ParamSet), Admitted cmdRefreshSetup p s ∧ setOfKeys s p.ctx (p.u32 0) = some set :=
  ⟨pkt 0x401 (zeros 4 ++ toLE 1 1 ++ toLE 1 2 ++ toLE 1 2 ++ toLE 1 6 ++ zeros 16), deepState, { tiny 1 with limbs := 30 }, by decide +kernel⟩
theorem refreshCommandsComplete_1 : ∃ (p : Packet) (s s1 : State) (r : RefreshCfg) (q : ParamSet) (bytes : List Byte), Admitted cmdLutLoad p s ∧ lookupPart s p.ctx (p.u32 0) = some (r, q) ∧ lutsUsed (gloveOf s p.ctx) < (gloveOf s p.ctx).cfg.luts ∧ readWindow s p.ctx (p.u32 12) (p.u64 16) (4 * 2 ^ p.u8 6) = .ok (bytes, s1) ∧ ((p.u8 5 ≠ 0 ∨ posOf (fun x : Int => decide (x < 0 ∨ (2 ^ p.u8 6 : Nat) ≤ x)) ((pieces 4 bytes).map (fun e => signed 32 (leNat e))) = none)) :=
  ⟨pkt 0x402 (zeros 4 ++ toLE 1 2 ++ toLE 1 0 ++ toLE 1 1 ++ zeros 5 ++ key0 ++ zeros 8), latOps 2, _, refreshCfg, tiny 2, zeros 8, by decide +kernel, by decide +kernel, by decide +kernel, read_blank (by decide +kernel), by decide +kernel⟩
theorem refreshCommandsComplete_2 : ∃ (p : Packet) (s : State), Admitted cmdLutFree p s :=
  ⟨pkt 0x403 (zeros 8), latOps 2, by decide +kernel⟩
theorem thresholdCommandsComplete_0 : ∃ (p : Packet) (s s1 : State) (n : Nat) (set : ParamSet) (slot : KeySlot) (blob : List Byte), Admitted cmdThrShareLoad p s ∧ n = ((setOfKeys s p.ctx (p.u32 0)).map (fun x => blocksFor (8 * x.limbs * 2 ^ x.log2N))).getD 0 ∧ DrawReady cmdThrShareLoad p s n ∧ setOfKeys (takeBlocks s p.ctx n) p.ctx (p.u32 0) = some set ∧ servingSlot (takeBlocks s p.ctx n) (p.u16 4) = .ok slot ∧ lpddrFits (takeBlocks s p.ctx n) p.ctx (mib2 (16 * set.limbs * 2 ^ set.log2N)) = true ∧ readWindow (takeBlocks s p.ctx n) p.ctx (p.u32 8) (p.u64 16) (p.u32 12) = .ok (blob, s1) :=
  ⟨pkt 0x420 (zeros 4 ++ toLE 2 16 ++ zeros 2 ++ key0 ++ toLE 4 136 ++ zeros 8), thrState none [slot0 16 usageLatShareKek 0], _, _, tiny 1, slot0 16 usageLatShareKek 0, _, by decide +kernel, rfl, by decide +kernel, by decide +kernel, rfl, by decide +kernel, read_blank (by decide +kernel)⟩
theorem thresholdCommandsComplete_1 : ∃ (p : Packet) (s s0 s4 : State) (n : Nat) (c : Cask) (set : ParamSet) (share : ThrShare) (hs : List CtHeader), Admitted cmdThrPartial p s ∧ n = ((setOfKeys s p.ctx (p.u32 12)).map (fun x => blocksFor (8 * x.limbs * 2 ^ x.log2N))).getD 0 + floodBlocks p s ∧ DrawReady cmdThrPartial p s n ∧ s0 = takeBlocks s p.ctx n ∧ thrCask p s0 = some c ∧ setOfKeys s0 p.ctx (p.u32 12) = some set ∧ thrShare p s0 = some share ∧ hs = thrHeaders p s0 ∧ c.spilled = false ∧ hs.all (fun h => h.keySet == p.u32 12 && h.digest == set.digest) = true ∧ (List.range (p.u32 8)).find? (fun i => aggregateDetail s0 p.ctx (hs.getD i default) != 0) = none ∧ allowanceShort p s0 hs = none ∧ hs.all (fun h => fitsBudget set c.limbs h.scale (h.noise + 256 * share.margin)) = true ∧ s0.int.faulted.contains (p.ctx, p.u16 0) = false ∧ 
    (let r := resplitShare s0 set share
     let out := floodedPartials (drawnOf p) s0 set r.1 c hs
       (setKeySet r.2 p.ctx (p.u32 12) (fun k => { k with share := some (if share.evicted then evictShare r.1 else r.1) }))
     writeWindow out.2 p.ctx (p.u32 16) (p.u64 24) out.1 = .ok s4) := by
  refine ⟨pkt 0x421 (zeros 8 ++ toLE 4 1 ++ zeros 4 ++ key0 ++ zeros 12), thrState (some thrShareOfTest) [], takeBlocks (thrState (some thrShareOfTest) []) 0 3, ?t, 3, ctCaskOf 1 0 2, tiny 1, thrShareOfTest, [thrHeader], ?main⟩
  case main => and_intros <;> first | decide +kernel | rfl
theorem releaseAndRecipeCommandsComplete_0 : ∃ (p : Packet) (s : State) (v : Vintage) (keys : List Nat), Admitted cmdVintageRelease p s ∧ p.drawn = false ∧ vintageOf s p.ctx p.vintage = some v ∧ exportKeys s p.ctx (((recipeOf s p.ctx v.recipe).map exportRefs).getD []).length (((recipeOf s p.ctx v.recipe).map exportRefs).getD []) = some keys ∧ ((v.encrypted = false ∨ v.noise = false ∨ (sumCiphertexts s p.ctx v.id).all (fun x => fitsBudget ((setOfKeys s p.ctx v.keySet).getD default) x.1.limbs x.2.2.scale (outputNoise v ((setOfKeys s p.ctx v.keySet).getD default) x.2.2)) = true)) :=
  ⟨pktAt 30 0x501 (toLE 2 0xFFFF ++ zeros 6) 1, withV (vintage 1 .ready), vintage 1 .ready, [], by decide +kernel⟩
theorem releaseAndRecipeCommandsComplete_1 : ∃ (g vid : Nat) (s : State) (v : Vintage) (o : Outstanding) (r : Release), vintageOf s g vid = some v ∧ releaseWaiting s g vid = some o ∧ v.release = some r ∧ r.stage = 1 ∧ v.state = .ready ∧ (gloveOf s g).state = .active :=
  ⟨0, 1, releaseState_ 1 .ready, releasing 1 .ready, waits (pkt 0x501 (zeros 8) 1) (.release 0 1), releaseOf 1, by decide +kernel⟩
theorem releaseAndRecipeCommandsComplete_2 : ∃ (g vid : Nat) (s : State) (v : Vintage) (o : Outstanding) (r : Release), vintageOf s g vid = some v ∧ releaseWaiting s g vid = some o ∧ v.release = some r ∧ r.stage = 4 ∧ releaseHeld s g vid = false :=
  ⟨0, 1, releaseState_ 4 .released, releasing 4 .released, waits (pkt 0x501 (zeros 8) 1) (.release 0 1), releaseOf 4, by decide +kernel⟩
theorem releaseAndRecipeCommandsComplete_3 : ∃ (p : Packet) (s : State), Admitted cmdRecipeLoad p s ∧ stepsError 0 {} (pieces 32 (p.params.drop 8)) = none ∧ (pieces 32 (p.params.drop 8)).any (fun st => (stReads st ++ stWrites st).any (fun r => isCaskRef r && !caskInRange s p.ctx r)) = false :=
  ⟨pkt 0x502 (toLE 2 0 ++ toLE 2 1 ++ zeros 4 ++ toLE 1 8 ++ zeros 1 ++ toLE 2 0xFFFF ++ toLE 2 0 ++ toLE 2 0xFFFF ++ toLE 2 0xFFFF ++ zeros 22), live, by decide +kernel⟩
theorem releaseAndRecipeCommandsComplete_4 : ∃ (p : Packet) (s : State), Admitted cmdRecipeFree p s :=
  ⟨pkt 0x503 (zeros 8), withRecipe, by decide +kernel⟩
theorem windowCommandsComplete_0 : ∃ (p : Packet) (s : State) (i : Nat), Admitted cmdWindowCreate p s ∧ freeIndex s p.ctx = some i :=
  ⟨pkt 0x601 (toLE 1 1 ++ toLE 1 3 ++ toLE 1 1 ++ zeros 13 ++ toLE 8 4096 ++ toLE 2 257 ++ zeros 6), live, 4097, by decide +kernel⟩
theorem windowCommandsComplete_1 : ∃ (p : Packet) (s : State), Admitted cmdWindowRevoke p s :=
  ⟨pkt 0x602 (key0 ++ zeros 4), live, by decide +kernel⟩
theorem windowCommandsComplete_2 : ∃ (p : Packet) (s : State) (w : Window), Admitted cmdWindowQuery p s ∧ keyedWindow s (p.u32 0) = some w :=
  ⟨pkt 0x603 (key0 ++ zeros 4), live, window 4096 0 2 256, by decide +kernel⟩
theorem connectionCommandsComplete_0 : ∃ (p : Packet) (s : State), Admitted cmdConnCreate p s ∧ s.conns.length < 32768 ∧ pinFits p s = true ∧ contextStoreFits s p.ctx = true :=
  ⟨pkt 0x604 (toLE 2 1 ++ zeros 1 ++ toLE 1 4 ++ toLE 2 0 ++ toLE 2 1 ++ toLE 2 260 ++ toLE 2 261 ++ toLE 2 257 ++ zeros 18 ++ toLE 2 0xC5A8 ++ toLE 1 1 ++ zeros 13), withRings, by decide +kernel⟩
theorem connectionCommandsComplete_1 : ∃ (p : Packet) (s : State) (c : Conn), Admitted cmdConnDestroy p s ∧ connOf s (p.u16 0) = some c ∧ c.state = .error :=
  ⟨pkt 0x605 (toLE 2 1 ++ zeros 6), withC (conn 1 .error), conn 1 .error, by decide +kernel⟩
theorem connectionCommandsComplete_2 : ∃ (p : Packet) (s : State) (c : Conn), Admitted cmdConnDestroy p s ∧ connOf s (p.u16 0) = some c ∧ c.state ≠ .error :=
  ⟨pkt 0x605 (toLE 2 1 ++ zeros 6), withC (conn 1 .established), conn 1 .established, by decide +kernel⟩
theorem connectionCommandsComplete_3 : ∃ (p : Packet) (s : State) (c : Conn), Admitted cmdConnQuery p s ∧ connOf s (p.u16 0) = some c :=
  ⟨pkt 0x606 (toLE 2 1 ++ zeros 6), withC (conn 1 .established), conn 1 .established, by decide +kernel⟩
theorem connectionCommandsComplete_4 : ∃ (p : Packet) (s : State), Admitted cmdTriggerCancel p s :=
  ⟨pkt 0x607 (zeros 8), live, by decide +kernel⟩
theorem connectionCommandsComplete_5 : ∃ (p : Packet) (s : State) (c : Conn), Admitted cmdFaultInject p s ∧ connOf s (p.u16 0) = some c :=
  ⟨pkt 0x608 (toLE 2 1 ++ toLE 1 3 ++ toLE 1 1 ++ zeros 8 ++ toLE 4 9 ++ zeros 8), withC (conn 1 .established), conn 1 .established, by decide +kernel⟩
theorem trellisCommandsComplete_0 : ∃ (p : Packet) (s : State), Admitted cmdTrellisJoin p s :=
  ⟨pktV 0x609 (toLE 2 7 ++ zeros 6), live, by decide +kernel⟩
theorem trellisCommandsComplete_1 : ∃ (p : Packet) (s : State), Admitted cmdTrellisLeave p s :=
  ⟨pktV 0x60A (zeros 8), onRing, by decide +kernel⟩
theorem trellisCommandsComplete_2 : ∃ (p : Packet) (s : State), Admitted cmdTrellisStatus p s :=
  ⟨pktV 0x60B (zeros 8), onRing, by decide +kernel⟩
theorem gloveCommandsComplete_0 : ∃ (p : Packet) (s : State), Admitted cmdGloveAssign p s ∧ DrawReady cmdGloveAssign p s 1 ∧ assignLack (heldCfgs (takeBlocks s p.ctx 1)) (cfgOf p 0) = none :=
  ⟨pktV 0x702 (toLE 1 2 ++ zeros 3 ++ toLE 1 4 ++ zeros 7 ++ toLE 12 256 ++ toLE 2 10 ++ toLE 2 1 ++ toLE 2 10 ++ toLE 2 1 ++ toLE 2 10 ++ toLE 2 1 ++ toLE 2 10 ++ toLE 2 1 ++ toLE 2 1 ++ zeros 10 ++ toLE 2 1 ++ zeros 2 ++ toLE 32 1 ++ zeros 320), { live with gloves := State.reset.gloves }, by decide +kernel⟩
theorem gloveCommandsComplete_1 : ∃ (p : Packet) (s : State), Admitted cmdGloveReset p s :=
  ⟨pktV 0x701 (zeros 8), live, by decide +kernel⟩
theorem gloveCommandsComplete_2 : ∃ (p : Packet) (s : State), Admitted cmdGloveRelease p s :=
  ⟨pktV 0x703 (toLE 1 1 ++ zeros 7), live, by decide +kernel⟩
theorem gloveCommandsComplete_3 : ∃ (p : Packet) (s : State), Admitted cmdGloveModeSet p s :=
  ⟨pkt 0x704 (toLE 1 1 ++ zeros 7), live, by decide +kernel⟩
theorem gloveCommandsComplete_4 : ∃ (p : Packet) (s s1 : State), Admitted cmdGloveQuery p s ∧ ((p.u32 4 = 0 ∧ s1 = s ∨ p.u32 4 ≠ 0 ∧ writeWindow s p.ctx (p.u32 4) (p.u64 8) (padTo assignLength (gloveOf s (p.u8 0)).assign) = .ok s1)) :=
  ⟨pktV 0x705 (zeros 16), live, live, by decide +kernel, .inl (by decide +kernel)⟩
theorem keyLoadCommandsComplete_0 : ∃ (p : Packet) (s : State), Admitted cmdKeyOwnerSet p s :=
  ⟨pkt 0x801 (zeros 48), withSession { state := .established }, by decide +kernel⟩
theorem keyLoadCommandsComplete_1 : ∃ (p : Packet) (s : State) (b : List Byte), Admitted cmdKeyLoad p s ∧ b = blobOf p ∧ p.drawn = false ∧ s.ent.state ≠ .failed ∧ 1 ≤ queuedBlocks s p.ctx :=
  ⟨pktV 0x802 (zeros 8 ++ toLE 4 0x424B514C ++ toLE 2 1 ++ toLE 2 1 ++ toLE 4 5 ++ zeros 92), live, blobOf (pktV 0x802 (zeros 8 ++ toLE 4 0x424B514C ++ toLE 2 1 ++ toLE 2 1 ++ toLE 4 5 ++ zeros 92)), by decide +kernel⟩
theorem keyLoadCommandsComplete_2 : ∃ (p : Packet) (s s0 s1 s3 : State) (n : Nat) (key : List Byte), Admitted cmdKeyCreate p s ∧ n = (if p.u8 2 = 0 then 2 else 1) ∧ DrawReady cmdKeyCreate p s n ∧ s0 = takeBlocks s p.ctx n ∧ ((kcSpends p = false ∨ s0.keys.spent.length < 4096)) ∧ kcKey p s0 = .ok (some key, s1) ∧ 
    (let s2 := loadSlot s1 {
       slot := p.u16 0, owner := p.ctx, state := .loaded, keyId := p.u32 4, parent := p.u32 8
       chain := chainUnder s1 p.ctx (p.u32 8), usage := p.u16 12, kind := p.u8 3, lifetime := p.u8 14, left := p.u32 16, share0 := [], share1 := [] } key
     kcWrapOut p = false ∧ s3 = s2 ∨ kcWrapOut p = true ∧ writeWindow s2 p.ctx (p.u32 20) (p.u64 24)
       (kcHeader p s1 ++ Crypto.kwWrap (wrapKey s1 p.ctx (p.u32 8)) (kcHeader p s1 ++ key)) = .ok s3) :=
  ⟨pktV 0x804 (zeros 4 ++ toLE 4 5 ++ zeros 4 ++ toLE 2 1 ++ zeros 74), live, takeBlocks live 16 2, _, _, 2, _, by decide +kernel, by decide +kernel, by decide +kernel, rfl, .inr (by decide +kernel), rfl, .inl ⟨by decide +kernel, rfl⟩⟩
theorem keyLoadCommandsComplete_3 : ∃ (p : Packet) (s : State), Admitted cmdKeyEvict p s :=
  ⟨pktV 0x805 (zeros 8), withKeys [{ slot 0 1 0 with owner := 16 }] live, by decide +kernel⟩
theorem keyPolicyCommandsComplete_0 : ∃ (p : Packet) (s s1 : State), Admitted cmdKeyInvalidate p s ∧ (revokedOf s p.ctx).length < 256 ∧ (
    s1 = (if p.ctx < 16 then setGlove s p.ctx (fun x => { x with revoked := x.revoked ++ [p.u32 0] })
      else { s with keys := { s.keys with revoked := s.keys.revoked ++ [p.u32 0] } })) :=
  ⟨pktV 0x803 (toLE 4 5 ++ zeros 4), live, _, by decide +kernel, by decide +kernel, rfl⟩
theorem keyPolicyCommandsComplete_1 : ∃ (p : Packet) (s : State), Admitted cmdKeyQuery p s ∧ p.u16 0 = 0xFFFF :=
  ⟨pktV 0x806 (toLE 2 0xFFFF ++ zeros 6), live, by decide +kernel⟩
theorem keyPolicyCommandsComplete_2 : ∃ (p : Packet) (s : State), Admitted cmdKeyQuery p s ∧ p.u16 0 ≠ 0xFFFF :=
  ⟨pktV 0x806 (zeros 8), withKeys [{ slot 0 1 0 with owner := 16 }] live, by decide +kernel⟩
theorem keyPolicyCommandsComplete_3 : ∃ (p : Packet) (s : State), Admitted cmdKeyRotateSet p s :=
  ⟨pkt 0x807 (zeros 8 ++ toLE 8 100), live, by decide +kernel⟩
theorem attestationCommandsComplete_0 : ∃ (p : Packet) (s s1 : State), Admitted cmdAttestReport p s ∧ writeWindow s p.ctx (p.u32 4) (p.u64 8) (reportBody s (p.u8 0) (libraryOf s p) (p.bytes 16 32) ++ signShort s (reportBody s (p.u8 0) (libraryOf s p) (p.bytes 16 32))) = .ok s1 :=
  ⟨pktV 0x901 (toLE 1 16 ++ zeros 3 ++ keyV ++ zeros 40), live, _, by decide +kernel, write_blank 17500 (report_length _ _ _ _ (by decide +kernel) (by decide +kernel)) (by decide +kernel)⟩
theorem attestationCommandsComplete_1 : ∃ (p : Packet) (s s1 : State), Admitted cmdCertRead p s ∧ writeWindow s p.ctx (p.u32 0) (p.u64 8) (chainBytes s.fw) = .ok s1 :=
  ⟨pktV 0x902 (keyV ++ zeros 12), live, _, by decide +kernel, write_blank 0 (by decide +kernel) (by decide +kernel)⟩
theorem attestationCommandsComplete_2 : ∃ (p : Packet) (s s1 : State) (bytes : List Byte), Admitted cmdEndorseLoad p s ∧ readWindow s p.ctx (p.u32 0) (p.u64 8) endorseBytes = .ok (bytes, s1) :=
  ⟨pktV 0x903 (keyV ++ zeros 12), inMfg, _, _, by decide +kernel, read_blank (by decide +kernel)⟩
theorem attestationCommandsComplete_3 : ∃ (p : Packet) (s : State), Admitted cmdLcTransition p s ∧ DrawReady cmdLcTransition p s (if p.u8 0 = 2 then 2 else 1) :=
  ⟨lcPacket, noGloves, lc_admitted, by decide +kernel⟩
theorem attestationCommandsComplete_4 : ∃ (p : Packet) (s s1 : State) (bytes : List Byte), Admitted cmdDebugSet p s ∧ ((needsToken p s = false ∧ s1 = s ∨ needsToken p s = true ∧ readWindow s p.ctx (p.u32 4) (p.u64 8) tokenBytes = .ok (bytes, s1) ∧ tokenError s bytes = none)) :=
  ⟨pktV 0x921 (zeros 16), live, live, [], by decide +kernel, .inl (by decide +kernel)⟩
theorem firmwareCommandsComplete_0 : ∃ (p : Packet) (s : State), Admitted cmdFwStage p s ∧ p.u8 0 = 0 :=
  ⟨pktV 0x910 (zeros 32), live, by decide +kernel⟩
theorem firmwareCommandsComplete_1 : ∃ (p : Packet) (s s2 : State) (bytes : List Byte), Admitted cmdFwStage p s ∧ p.u8 0 = 1 ∧ 
    (stageInline p = true ∧ bytes = p.bytes 32 (p.u32 4) ∧ s2 = { s with free := s.free + 1 } ∨
      stageInline p = false ∧ readWindow { s with free := s.free + 1 } p.ctx (p.u32 16) (p.u64 24) (p.u32 4) = .ok (bytes, s2)) :=
  ⟨pktV 0x910 (toLE 1 1 ++ zeros 3 ++ toLE 4 4 ++ zeros 28), writing, _, _, by decide +kernel, by decide +kernel, .inl ⟨by decide +kernel, rfl, rfl⟩⟩
theorem firmwareCommandsComplete_2 : ∃ (p : Packet) (s : State), Admitted cmdFwStage p s ∧ p.u8 0 = 2 :=
  ⟨pktV 0x910 (toLE 1 2 ++ zeros 31), writing, by decide +kernel⟩
theorem firmwareCommandsComplete_3 : ∃ (p : Packet) (s : State), Admitted cmdFwSelect p s ∧ ((p.u8 0 ≠ 0 ∨ s.fw.rollback ≤ securityVersion (fwSlot s.fw (p.u8 1)))) :=
  ⟨pktV 0x911 (toLE 1 0 ++ toLE 1 1 ++ zeros 6), verified, by decide +kernel⟩
theorem firmwareCommandsComplete_4 : ∃ (p : Packet) (s : State), Admitted cmdFwQuery p s :=
  ⟨pktV 0x912 [], live, by decide +kernel⟩
theorem entropyCommandsComplete_0 : ∃ (p : Packet) (s s2 : State), Admitted cmdEntRead p s ∧ noShare s p.ctx = false ∧ DrawReady cmdEntRead p s (blocksFor (p.u32 4)) ∧ noShare (takeBlocks s p.ctx (blocksFor (p.u32 4))) p.ctx = false ∧ 
    (let d := drawBytes (takeBlocks s p.ctx (blocksFor (p.u32 4))) (p.u32 4)
     writeWindow d.2 p.ctx (p.u32 0) (p.u64 8) d.1 = .ok s2) :=
  ⟨pktV 0xA01 (keyV ++ toLE 4 32 ++ zeros 8), live, _, by decide +kernel, by decide +kernel, by decide +kernel, by decide +kernel, write_blank 32 (by rw [drawn_length]; exact Nat.le_of_eq rfl) (by decide +kernel)⟩
theorem entropyCommandsComplete_1 : ∃ (p : Packet) (s : State), Admitted cmdEntStatus p s :=
  ⟨pktV 0xA02 [], live, by decide +kernel⟩
theorem entropyCommandsComplete_2 : ∃ (p : Packet) (s : State), Admitted cmdEntSourceCtrl p s ∧ p.u8 1 = 1 :=
  ⟨pktV 0xA03 (toLE 1 4 ++ toLE 1 1 ++ zeros 6), live, by decide +kernel⟩
theorem entropyCommandsComplete_3 : ∃ (p : Packet) (s : State), Admitted cmdEntSourceCtrl p s ∧ p.u8 1 ≠ 1 :=
  ⟨pktV 0xA03 (toLE 1 5 ++ toLE 1 0 ++ zeros 6), withSource .quarantined, by decide +kernel⟩
theorem entropyCommandsComplete_4 : ∃ (p : Packet) (s s2 : State), Admitted cmdEntRawRead p s ∧ (
    writeWindow { s with free := s.free + 1 } p.ctx (p.u32 4) (p.u64 16)
      ((List.range (p.u32 8)).map (Config.rawByte s.free)) = .ok s2) :=
  ⟨pktV 0xA04 (toLE 1 5 ++ zeros 3 ++ keyV ++ toLE 4 9 ++ zeros 12), withSource .test, _, by decide +kernel, write_blank 9 (by decide +kernel) (by decide +kernel)⟩
theorem integrityCommandsComplete_0 : ∃ (p : Packet) (s : State), Admitted cmdIntVatCtrl p s :=
  ⟨pktV 0xB01 (zeros 8), live, by decide +kernel⟩
theorem integrityCommandsComplete_1 : ∃ (p : Packet) (s : State), Admitted cmdIntBist p s :=
  ⟨pktV 0xB02 (zeros 8), withVat 0 { state := .retired, out := true }, by decide +kernel⟩
theorem integrityCommandsComplete_2 : ∃ (p : Packet) (s : State), Admitted cmdIntHistoryRead p s ∧ p.route = .sideband :=
  ⟨pktS 0xB03 (toLE 4 7 ++ toLE 4 1 ++ zeros 16), withHistory, by decide +kernel⟩
theorem integrityCommandsComplete_3 : ∃ (p : Packet) (s s1 : State), Admitted cmdIntHistoryRead p s ∧ p.route ≠ .sideband ∧ writeWindow s p.ctx (p.u32 12) (p.u64 16) ((recordsFrom s (p.u32 0) (p.u32 4)).map (if p.u8 8 = 1 then cperBytes else recordBytes)).flatten = .ok s1 :=
  ⟨pktV 0xB03 (toLE 4 7 ++ toLE 4 1 ++ zeros 4 ++ keyV ++ zeros 8), withHistory, _, by decide +kernel, by decide +kernel, write_blank 64 (by decide +kernel) (by decide +kernel)⟩
theorem integrityCommandsComplete_4 : ∃ (p : Packet) (s : State), Admitted cmdIntQuery p s :=
  ⟨pktV 0xB04 (zeros 8), live, by decide +kernel⟩
theorem phaseCommandsComplete_0 : ∃ (p : Packet) (s : State), Admitted cmdPhaseTick p s ∧ p.tick = none ∧ (tickCheck p s).isOk = true :=
  ⟨pkt 0xC01 (toLE 2 3 ++ zeros 6 ++ toLE 8 6), live, by decide +kernel⟩
theorem phaseCommandsComplete_1 : ∃ (p : Packet) (s : State) (a : Answer), Admitted cmdPhaseTick p s ∧ p.tick = some a :=
  ⟨{ pkt 0xC01 (toLE 2 3 ++ zeros 6 ++ toLE 8 6) with tick := some { status := .ok } }, live, { status := .ok }, by decide +kernel⟩
theorem phaseCommandsComplete_2 : ∃ (p : Packet) (s : State), Admitted cmdPhaseSourceSet p s :=
  ⟨pkt 0xC02 (toLE 1 1 ++ zeros 1 ++ toLE 2 3 ++ toLE 2 258 ++ zeros 10), live, by decide +kernel⟩
theorem phaseCommandsComplete_3 : ∃ (p : Packet) (s : State), Admitted cmdCalSet p s :=
  ⟨pktV 0xC03 (toLE 8 1000), live, by decide +kernel⟩
theorem phaseCommandsComplete_4 : ∃ (p : Packet) (s : State), Admitted cmdPhaseQuery p s ∧ p.u8 0 = 16 :=
  ⟨pktV 0xC04 (toLE 1 16 ++ zeros 7), live, by decide +kernel⟩
theorem phaseCommandsComplete_5 : ∃ (p : Packet) (s : State), Admitted cmdPhaseQuery p s ∧ p.u8 0 ≠ 16 :=
  ⟨pkt 0xC04 (zeros 8), live, by decide +kernel⟩
theorem moduleCommandsComplete_0 : ∃ (p : Packet) (s : State), Admitted cmdModuleReset p s :=
  ⟨resetPacket, live, reset_admitted⟩
theorem moduleCommandsComplete_1 : ∃ (p : Packet) (s : State), Admitted cmdModuleStatus p s :=
  ⟨pktV 0xD02 [], live, by decide +kernel⟩
theorem moduleCommandsComplete_2 : ∃ (p : Packet) (s : State), Admitted cmdPowerCapSet p s :=
  ⟨pktV 0xD03 (toLE 2 1000 ++ zeros 6), live, by decide +kernel⟩
theorem registerReadsComplete_0 : ∃ (s : State) (fn g : Nat), regsReady s = true ∧ mayReadGlove s fn g = true :=
  ⟨live, 0, 15, by decide +kernel⟩
theorem registerReadsComplete_1 : ∃ (s : State), regsReady s = true :=
  ⟨live, by decide +kernel⟩
theorem registerReadsComplete_6 : ∃ (s : State) (port : Nat), regsReady s = true ∧ port < 10 :=
  ⟨live, 9, by decide +kernel⟩
theorem registerReadsComplete_17 : ∃ (s t : State), regsReady s = true ∧ exec .calMsLoRead s = .next t :=
  ⟨live, _, by decide +kernel, rfl⟩
theorem registerWritesComplete_11 : ∃ (s : State) (offset : Nat), regsReady s = true ∧ offset ≠ 0x00071000 ∧ ((∀ port : Nat, port < 10 → offset ≠ 0x00070008 + 0x100 * port ∧ offset ≠ 0x00090004 + 0x40 * port ∧ offset ≠ 0x00090008 + 0x40 * port ∧ offset ≠ 0x0009000C + 0x40 * port ∧ offset ≠ 0x00090010 + 0x40 * port)) :=
  ⟨live, 5, by decide +kernel⟩
theorem doorbellsAndInterruptsComplete_0 : ∃ (fn queue : Nat) (visible : List HostWrite) (s s1 : State) (q : Queue), visible.foldl (fun s w => hostWrite s w.fn w.addr w.bytes) s = s1 ∧ doorbellQueue s1 fn queue = some q :=
  ⟨1, 258, [], live, _, queue 258 0 .command 256, rfl, by decide +kernel⟩
theorem doorbellsAndInterruptsComplete_1 : ∃ (fn queue : Nat) (s : State) (q : Queue), doorbellQueue s fn queue = some q :=
  ⟨1, 256, live, queue 256 0 .reply, by decide +kernel⟩
theorem doorbellsAndInterruptsComplete_2 : ∃ (fn : Nat) (s : State), maySignal s fn = true :=
  ⟨1, live, by decide +kernel⟩
theorem readFailuresComplete_0 : ∃ (s : State) (id : Nat) (q : Queue), queueOf s id = some q :=
  ⟨live, 258, queue 258 0 .command 256, by decide +kernel⟩
theorem readFailuresComplete_2 : ∃ (s : State) (id : Nat) (c : Conn), connOf s id = some c :=
  ⟨withC (conn 1 .established), 1, conn 1 .established, by decide +kernel⟩
theorem readFailuresComplete_3 : ∃ (s : State) (id : Nat) (c : Conn), connOf s id = some c ∧ c.fetching = true :=
  ⟨withC { conn 1 .established with fetching := true }, 1, { conn 1 .established with fetching := true }, by decide +kernel⟩
theorem portAnswersComplete_0 : ∃ (port address : Nat) (s : State) (g : Glove), portUp s port false = true ∧ addressOwner s port (fun x => x.ipv4) address = some g :=
  ⟨0, 77, wireUp, gloveUp, by decide +kernel⟩
theorem portAnswersComplete_1 : ∃ (port address : Nat) (s : State) (g : Glove), portUp s port true = true ∧ addressOwner s port (fun x => x.ipv6) address = some g :=
  ⟨0, 78, wireUp, gloveUp, by decide +kernel⟩
theorem portAnswersComplete_2 : ∃ (port : Nat) (v6 : Bool) (address : Nat) (s : State) (g : Glove), portUp s port v6 = true ∧ addressOwner s port (fun x => if v6 then x.ipv6 else x.ipv4) address = some g :=
  ⟨0, true, 78, wireUp, gloveUp, by decide +kernel⟩
theorem portAnswersComplete_3 : ∃ (setdasa : Option Nat) (s : State), s.pwr.state ≠ .off ∧ ((setdasa = none ∨ s.side.address = none ∧ setdasa = some 0x4C)) :=
  ⟨none, live, by decide +kernel⟩
theorem fullResetsComplete_0 : ∃ (v : Word32) (s : State), regsReady s = true ∧ bitsAt v.toNat 0 1 = 1 ∧ bitsAt v.toNat 16 16 = 0xD1E0 :=
  ⟨0xD1E00001, live, by decide +kernel⟩
theorem fullResetsComplete_1 : ∃ (serial : Nat) (s : State), s.pwr.state = .on ∧ serial % 2 ^ 64 = Config.serialNumber % 2 ^ 64 :=
  ⟨Config.serialNumber, live, by decide +kernel, rfl⟩
theorem fullResetsComplete_2 : ∃ (s : State), s.pwr.state = .on :=
  ⟨live, by decide +kernel⟩
theorem fullResetsComplete_5 : ∃ (s : State), s.pwr.state = .on ∧ s.pwr.pwrGood = true ∧ s.pwr.perst = true :=
  ⟨onPin (fun x => { x with perst := true }), by decide +kernel⟩
theorem fullResetsComplete_6 : ∃ (s : State), s.pwr.state = .on ∧ s.pwr.pwrGood = false ∧ s.pwr.perst = true :=
  ⟨onPin (fun x => { x with perst := true, pwrGood := false }), by decide +kernel⟩
theorem fullResetsComplete_7 : ∃ (s : State), s.pwr.state = .on ∧ s.pwr.perst = true ∧ s.pwr.perstEarly = true :=
  ⟨onPin (fun x => { x with perst := true, pwrGood := false, perstEarly := true }), by decide +kernel⟩
theorem fullResetsComplete_8 : ∃ (s : State), s.pwr.state = .on ∧ s.pwr.pwrGood = true ∧ s.pwr.perst = false ∧ s.pwr.ready = false ∧ s.fw.recovery = false :=
  ⟨State.reset, by decide +kernel⟩
theorem fetchesAndTurnsComplete_0 : ∃ (queue : Nat) (s : State) (q : Queue) (h : List Byte) (rest : List (List Byte)), queueOf s queue = some q ∧ q.slots = h :: rest ∧ s.pwr.state = .on ∧ s.cm.state = .running ∧ mayFetch s q = true ∧ h = [] :=
  ⟨258, withRing [], ringQ [], [], [], by decide +kernel⟩
theorem fetchesAndTurnsComplete_1 : ∃ (queue : Nat) (s : State) (q : Queue) (h : List Byte) (rest : List (List Byte)) (i : Nat), queueOf s queue = some q ∧ q.slots = h :: rest ∧ s.pwr.state = .on ∧ s.cm.state = .running ∧ mayFetch s q = true ∧ h ≠ [] ∧ headerError h = 0 ∧ headerSlots h ≤ q.slots.length ∧ lostSlot q h = some i :=
  ⟨258, withLost, lostQ, pairSlot, [[]], 1, by decide +kernel⟩
theorem fetchesAndTurnsComplete_2 : ∃ (queue : Nat) (s : State) (q : Queue) (h : List Byte) (rest : List (List Byte)), queueOf s queue = some q ∧ q.slots = h :: rest ∧ s.pwr.state = .on ∧ s.cm.state = .running ∧ mayFetch s q = true ∧ h ≠ [] ∧ headerError h ≠ 0 :=
  ⟨258, withRing (zeros 64), ringQ (zeros 64), zeros 64, [], by decide +kernel⟩
theorem fetchesAndTurnsComplete_3 : ∃ (queue : Nat) (s : State) (q : Queue) (h : List Byte) (rest : List (List Byte)), queueOf s queue = some q ∧ q.slots = h :: rest ∧ s.pwr.state = .on ∧ s.cm.state = .running ∧ mayFetch s q = true ∧ h ≠ [] ∧ headerError h = 0 ∧ headerSlots h ≤ q.slots.length ∧ lostSlot q h = none ∧ q.flushTo = none ∧ stagingRoom s q = true :=
  ⟨258, withRing headerSlot, ringQ headerSlot, headerSlot, [], by decide +kernel⟩
theorem fetchesAndTurnsComplete_4 : ∃ (order : Nat) (s : State) (p : Packet), s.staged.find? (fun p => p.order == order && p.priority != 0) = some p :=
  ⟨7, { live with staged := [pkt 0 []] }, pkt 0 [], by decide +kernel⟩
theorem fetchesAndTurnsComplete_5 : ∃ (ctx : Nat) (s : State), s.cm.state = .running ∧ ctx ≤ 16 :=
  ⟨16, live, by decide +kernel⟩
theorem fetchesAndTurnsComplete_6 : ∃ (g : Nat) (s : State), s.cm.state = .running ∧ g < 16 :=
  ⟨15, live, by decide +kernel⟩
theorem fetchesAndTurnsComplete_7 : ∃ (bytes : List Byte) (s : State), s.pwr.state = .on ∧ s.fw.recovery = false ∧ sidebandStaged s < 4 ∧ headerError (padTo 64 bytes) = 0 ∧ s.cm.state = .running :=
  ⟨headerSlot, live, by decide +kernel⟩
theorem fetchesAndTurnsComplete_8 : ∃ (s : State), s.pwr.state = .on ∧ s.fw.recovery = false ∧ sidebandStaged s < 4 ∧ (s.cm.state = .restarting ∨ s.cm.state = .boot) :=
  ⟨{ live with cm := { state := .restarting } }, by decide +kernel⟩
theorem fetchesAndTurnsComplete_9 : ∃ (s : State), s.pwr.state = .on ∧ s.fw.recovery = false ∧ 4 ≤ sidebandStaged s :=
  ⟨{ live with staged := List.replicate 4 (pktS 0 []) }, by decide +kernel⟩
theorem cellarmasterEventsComplete_0 : ∃ (s : State) (n : Nat) (i : Instr), (((i, n) ∈ [(Instr.cmFault .ecc, 1), (Instr.watchdogExpire, 2)] ∨ n = 3 ∧ ∃ d : WorkDescriptor, i = .cmFault (.descriptor d) ∧ descriptorPasses s d = false)) ∧ s.cm.state = .running :=
  ⟨live, 2, .watchdogExpire, .inl (.tail _ (.head _)), rfl⟩
theorem cellarmasterEventsComplete_1 : ∃ (s : State) (d : WorkDescriptor), d.glove = d.context ∧ (∀ a ∈ d.granules, (gloveOf s d.glove).cfg.cellarBase ≤ a ∧ a < (gloveOf s d.glove).cfg.cellarBase + (gloveOf s d.glove).cfg.cellar) ∧ (∀ n ∈ d.channels, (gloveOf s d.glove).cfg.channels.testBit n = true) ∧ (gloveOf s d.glove).cfg.slots.testBit d.slot = true :=
  ⟨live, { context := 0, opcode := 0x101, glove := 0, granules := [3], channels := [2], slot := 4, cls := 0 }, by decide +kernel⟩
theorem cellarmasterEventsComplete_2 : ∃ (s : State), s.cm.state = .restarting :=
  ⟨{ live with cm := { state := .restarting } }, by decide +kernel⟩
theorem cellarmasterEventsComplete_4 : ∃ (order : Nat) (s : State) (o : Outstanding) (a : Answer), s.outstanding.find? (fun o => o.pkt.order == order) = some o ∧ timeoutAnswer o.wait = some a ∧ waitsLive s o = true :=
  ⟨7, { glove0 (fun g => { g with live := true }) live with outstanding := [drawWait] }, drawWait, { status := .entropyNotReady }, by decide +kernel⟩
theorem clockEventsComplete_0 : ∃ (s : State), s.cal.stopped = false :=
  ⟨live, by decide +kernel⟩
theorem clockEventsComplete_1 : ∃ (g : Nat) (s : State), (gloveOf s g).phase.type = .coordinator ∧ (gloveOf s g).phase.limit ≠ 0 ∧ (gloveOf s g).phase.limit ≤ (gloveOf s g).phase.sinceTick ∧ (gloveOf s g).phase.fallback = false ∧ fallbackSuspended s g = false :=
  ⟨0, glove0 (fun g => { g with phase := { g.phase with sinceTick := 100 } }) live, by decide +kernel⟩
theorem clockEventsComplete_2 : ∃ (g : Nat) (s : State), (gloveOf s g).phase.fallback = true ∧ fallbackSuspended s g = false :=
  ⟨0, glove0 (fun g => { g with phase := { g.phase with fallback := true } }) live, by decide +kernel⟩
theorem dueEventsComplete_0 : ∃ (g vid : Nat) (s : State) (e : DueEvent) (v : Vintage), dueFor s g .contributionClose vid = some e ∧ needsPass s e.cycle = false ∧ vintageOf s g vid = some v ∧ v.state = .opened ∧ closeWaits s g vid v.c = false :=
  ⟨0, 1, { withDue .contributionClose (vintage 1 .opened) with clock := { live.clock with passed := [0] } }, dueOf .contributionClose 1, vintage 1 .opened, by decide +kernel⟩
theorem dueEventsComplete_1 : ∃ (g vid : Nat) (s : State) (e : DueEvent) (v : Vintage), dueFor s g .shareClose vid = some e ∧ vintageOf s g vid = some v ∧ v.state = .sealedV :=
  ⟨0, 1, withDue .shareClose (vintage 1 .sealedV), dueOf .shareClose 1, vintage 1 .sealedV, by decide +kernel⟩
theorem dueEventsComplete_2 : ∃ (g vid : Nat) (s : State) (e : DueEvent) (v : Vintage), dueFor s g .checkpoint vid = some e ∧ vintageOf s g vid = some v ∧ v.state = .opened :=
  ⟨0, 1, withDue .checkpoint (vintage 1 .opened), dueOf .checkpoint 1, vintage 1 .opened, by decide +kernel⟩
theorem dueEventsComplete_3 : ∃ (g : Nat) (s : State) (e : DueEvent), dueFor s g .keyRotation 0 = some e :=
  ⟨0, withDueKey, dueOf .keyRotation 0, by decide +kernel⟩
theorem checkpointEventsComplete_0 : ∃ (g cask k : Nat) (s : State) (c : Cask) (v : Vintage) (word : PhaseWord) (sealCp : Bool) (rest : List (Nat × PhaseWord × Bool)), caskOf s g cask = some c ∧ c.dueCuts = (k, word, sealCp) :: rest ∧ vintageOf s g c.vintage = some v ∧ c.inProgress = none ∧ c.rollback = none ∧ cutWaits s g cask word.count = false ∧ (gloveOf s g).state = .active :=
  ⟨0, 0, 1, withCask dueCask, dueCask, vintage 1 .opened, ⟨3, 6⟩, false, [], by decide +kernel⟩
theorem checkpointEventsComplete_2 : ∃ (g cask : Nat) (s : State) (c : Cask) (cp : Checkpoint) (v : Vintage) (d : Nat), caskOf s g cask = some c ∧ c.inProgress = some cp ∧ vintageOf s g c.vintage = some v ∧ cp.copied = true ∧ (gloveOf s g).state = .active ∧ printDiff (imagePrints v.printDraw { c with vats := cp.vats } cp.image) cp.prints = d :=
  ⟨0, 0, withCask copiedCask, copiedCask, copy, vintage 1 .opened, _, by decide +kernel, by decide +kernel, by decide +kernel, by decide +kernel, by decide +kernel, rfl⟩
theorem checkpointEventsComplete_3 : ∃ (g cask : Nat) (s : State) (c : Cask), caskOf s g cask = some c ∧ c.rollback ≠ none ∧ restoreWaits s g cask = false ∧ (gloveOf s g).state = .active :=
  ⟨0, 0, withCask rollingCask, rollingCask, by decide +kernel⟩
theorem checkpointEventsComplete_4 : ∃ (g vid : Nat) (s : State) (v : Vintage), vintageOf s g vid = some v ∧ readyNow s v = true :=
  ⟨0, 1, withV unmasked, unmasked, by decide +kernel⟩
theorem wirePacketsComplete_1 : ∃ (w w1 : WraPacket) (s : State) (c c1 : Conn), Delivered 0x08 w s c c1 w1 ∧ c.state = .established :=
  ⟨wra 0 (zeros 16) [], wra 0 (zeros 16) [], wire .established, wireConn .established, wireConn .established, ⟨by decide +kernel, rfl, by decide +kernel, by decide +kernel⟩, rfl⟩
theorem wirePacketsComplete_2 : ∃ (w w1 : WraPacket) (s : State) (c c1 : Conn), Delivered 0x09 w s c c1 w1 ∧ c.state = .established :=
  ⟨wra 0 (zeros 16) [], wra 0 (zeros 16) [], wire .established, wireConn .established, wireConn .established, ⟨by decide +kernel, rfl, by decide +kernel, by decide +kernel⟩, rfl⟩
theorem wirePacketsComplete_3 : ∃ (w w1 : WraPacket) (s : State) (c c1 : Conn), arrives 0x0A w s = some (c, w1) ∧ c.state = .established ∧ ingressFull (injected 0x0A w s).2 c.owner 0x0A w1 = false ∧ reachedConn 0x0A w s c w1 = some c1 ∧ c1.resident = true ∧ field w1.ext 4 2 = c1.peerConn :=
  ⟨wra 0 (zeros 16) [], wra 0 (zeros 16) [], wire .established, wireConn .established, wireConn .established, by decide +kernel⟩
theorem wirePacketsComplete_4 : ∃ (w w1 : WraPacket) (s : State) (c c1 : Conn), arrives 0x0A w s = some (c, w1) ∧ c.state = .connecting ∧ ingressFull (injected 0x0A w s).2 c.owner 0x0A w1 = false ∧ reachedConn 0x0A w s c w1 = some c1 ∧ c1.resident = true ∧ field w1.ext 4 2 = c1.peerConn :=
  ⟨wra 0 (zeros 16) [], wra 0 (zeros 16) [], wire .connecting, wireConn .connecting, wireConn .connecting, by decide +kernel⟩
theorem wirePacketsComplete_5 : ∃ (w w1 : WraPacket) (s s0 : State) (op : Nat) (i : Instr) (c c1 : Conn), (op, i) ∈ [(0x04, Instr.accumulate w), (0x01, .write w), (0x02, .readReq w), (0x05, .atomic w), (0x07, .send w), (0x03, .readResp w), (0x06, .atomicResp w), (0x08, .ack w), (0x09, .status w), (0x0C, .close w)] ∧ arrives op w s = some (c, w1) ∧ c.state = .held ∧ w1.incarnation = c.incarnation ∧ ingressFull (injected op w s).2 c.owner op w1 = false ∧ (
    noteCe (setConn (injected op w s).2 c.id (fun x =>
      { x with sealRx := if x.sealedC then max x.sealRx w1.counter else x.sealRx })) c op w1 = s0) ∧ connOf (resumeConn s0 c.id) c.id = some c1 ∧ c1.resident = true :=
  ⟨wra 0 (zeros 16) [], wra 0 (zeros 16) [], wire .held, _, 0x08, .ack (wra 0 (zeros 16) []), wireConn .held, wireConn .established, by decide +kernel, by decide +kernel, rfl, rfl, by decide +kernel, rfl, by decide +kernel⟩
theorem wirePacketsComplete_6 : ∃ (w w1 : WraPacket) (s : State) (c c1 : Conn), Delivered 0x0B w s c c1 w1 ∧ c.state = .connecting ∧ field w1.ext 4 2 = c1.peerConn :=
  ⟨wra 0 (zeros 16) [], wra 0 (zeros 16) [], wire .connecting, wireConn .connecting, wireConn .connecting, ⟨by decide +kernel, rfl, by decide +kernel, by decide +kernel⟩, rfl, rfl⟩
theorem wirePacketsComplete_7 : ∃ (w w1 : WraPacket) (s : State) (c c1 : Conn), Delivered 0x0C w s c c1 w1 ∧ c.state = .established ∧ ingressFull (injected 0x0C w s).2 c.owner 0x0C w1 = false :=
  ⟨wra 0 [] [], wra 0 [] [], wire .established, wireConn .established, wireConn .established, ⟨by decide +kernel, rfl, by decide +kernel, by decide +kernel⟩, rfl, by decide +kernel⟩
theorem placementAndWorkComplete_0 : ∃ (conn space psn : Nat) (s s1 : State) (c : Conn) (f : Inflight) (lees : Bool), connOf s conn = some c ∧ (connRx c (space == 1)).flight.find? (fun f => f.psn == psn && !f.complete && placeable s c.owner f) = some f ∧ f.verdict = .place ∧ placeEffect s c f = (s1, lees) :=
  ⟨1, 0, 0, withC placingC, _, placingC, flying, _, by decide +kernel, by decide +kernel, by decide +kernel, (Prod.eta _).symm⟩
theorem placementAndWorkComplete_1 : ∃ (s s1 : State) (f : Inflight) (w : Window), f.op = 0x01 ∧ f.win = some w ∧ plaintextBarred s w = false ∧ windowStore s w f.pkt.offset f.pkt.payload = .ok s1 :=
  ⟨withC placingC, _, flying, respW, rfl, rfl, by decide +kernel, rfl⟩
theorem placementAndWorkComplete_3 : ∃ (s s1 s2 : State) (f : Inflight) (w : Window) (old : List Byte), plaintextBarred s w = false ∧ windowBytes s w f.pkt.offset 8 = .ok (old, s1) ∧ windowStore s1 w f.pkt.offset (toLE 8 (atomicResult f.pkt.ext (leNat old))) = .ok s2 :=
  ⟨live, _, _, flying, respW, _, by decide +kernel, rfl, rfl⟩
theorem placementAndWorkComplete_4 : ∃ (s s1 : State) (c : Conn) (f : Inflight) (w : Window) (i : Issued), f.op = 0x03 ∧ f.win = some w ∧ c.issued.find? (fun i => i.msg == f.pkt.msg) = some i ∧ plaintextBarred s w = false ∧ windowStore s w f.pkt.offset f.pkt.payload = .ok s1 :=
  ⟨live, _, wireConn .established, flyingResp, respW, issuedOf 7 false, rfl, rfl, by decide +kernel, by decide +kernel, rfl⟩
theorem placementAndWorkComplete_5 : ∃ (s t : State) (cid : Nat) (w : WraPacket) (win : Window) (k : Cask), caskOf s win.owner win.object = some k ∧ Memory.wf k.data = true ∧ ((t = (placeAccumulate s cid w win).1 ∨ t = placePartial s cid w win)) :=
  ⟨wire .established, _, 1, wra 4097 (toLE 4 199 ++ toLE 4 4) [1, 0], { window 4097 0 0 0 with rights := 4, length := 8 }, cask 0 1 0 0, by decide +kernel, by decide +kernel, .inl rfl⟩
theorem placementAndWorkComplete_6 : ∃ (s t : State) (cid : Nat) (w : WraPacket) (win : Window) (k : Cask) (a : Nat), caskOf s win.owner win.object = some k ∧ Memory.wf k.data = true ∧ ((t = (placeAccumulate s cid w win).1 ∨ t = placePartial s cid w win)) ∧ (a < coordBytes k.ring * firstCoord k win w ∨ coordBytes k.ring * (firstCoord k win w + (payloadValues k w.payload).length) ≤ a) :=
  ⟨wire .established, _, 1, wra 4097 (toLE 4 199 ++ toLE 4 4) [1, 0], { window 4097 0 0 0 with rights := 4, length := 8 }, cask 0 1 0 0, 2, by decide +kernel, by decide +kernel, .inl rfl, by decide +kernel⟩
theorem placementAndWorkComplete_7 : ∃ (s t : State) (cid : Nat) (w : WraPacket) (win : Window) (k : Cask) (g n : Nat), caskOf s win.owner win.object = some k ∧ Memory.wf k.data = true ∧ ((t = (placeAccumulate s cid w win).1 ∨ t = placePartial s cid w win)) ∧ ((g ≠ win.owner ∨ n ≠ win.object)) :=
  ⟨wire .established, _, 1, wra 4097 (toLE 4 199 ++ toLE 4 4) [1, 0], { window 4097 0 0 0 with rights := 4, length := 8 }, cask 0 1 0 0, 0, 1, by decide +kernel, by decide +kernel, .inl rfl, .inr (by decide +kernel)⟩
theorem placementAndWorkComplete_8 : ∃ (queue : Nat) (s : State) (q : Queue), readyHead s queue = some (q, []) :=
  ⟨260, sending [], sendQ [], by decide +kernel⟩
theorem placementAndWorkComplete_9 : ∃ (queue : Nat) (s : State) (q : Queue) (e : List Byte), readyHead s queue = some (q, e) ∧ e ≠ [] ∧ ((wrCounterWait e = false ∨ wrWellFormed s queue e = false ∨ counterReached s e = true)) :=
  ⟨260, sending (zeros 64), sendQ (zeros 64), zeros 64, by decide +kernel⟩
theorem placementAndWorkComplete_10 : ∃ (queue : Nat) (s : State) (q : Queue) (e : List Byte), readyHead s queue = some (q, e) ∧ e ≠ [] ∧ wrCounterWait e = true ∧ wrWellFormed s queue e = true ∧ counterReached s e = false ∧ waitCount s < 16384 :=
  ⟨260, sending (waitEntry 5), sendQ (waitEntry 5), waitEntry 5, by decide +kernel⟩
theorem placementAndWorkComplete_11 : ∃ (queue : Nat) (s : State) (q : Queue) (e : List Byte), readyHead s queue = some (q, e) ∧ (gloveOf s q.owner).counterWaits.contains queue = true ∧ counterReached s e = true :=
  ⟨260, glove0 (fun g => { g with counterWaits := [260] }) (sending (waitEntry 0)), sendQ (waitEntry 0), waitEntry 0, by decide +kernel⟩
theorem connectionTimersComplete_0 : ∃ (id space g : Nat) (s : State) (c : Conn), connOf s id = some c ∧ gapOf (connRx c (space == 1)) = some g ∧ (connRx c (space == 1)).gapTold ≠ some g :=
  ⟨1, 0, 0, withC gapC, gapC, by decide +kernel⟩
theorem connectionTimersComplete_1 : ∃ (id space : Nat) (s : State) (c : Conn), connOf s id = some c ∧ (((connRx c (space == 1)).sinceAck ≠ 0 ∨ (connRx c (space == 1)).bitmap ≠ 0 ∨ (connRx c (space == 1)).again = true)) :=
  ⟨1, 0, withC gapC, gapC, by decide +kernel⟩
theorem connectionTimersComplete_2 : ∃ (id space psn : Nat) (s : State) (c : Conn) (x : TxPacket), connOf s id = some c ∧ mayRetransmit c = true ∧ x ∈ (connTx c (space == 1)).unacked ∧ x.psn = psn ∧ x.attempts < 16 :=
  ⟨1, 0, 0, withC (sentC 1), sentC 1, sent 1, by decide +kernel, by decide +kernel, List.mem_singleton.mpr rfl, by decide +kernel⟩
theorem connectionTimersComplete_3 : ∃ (id : Nat) (s : State) (c : Conn), connOf s id = some c ∧ mayRetransmit c = true ∧ limitReached c = true :=
  ⟨1, withC (sentC 16), sentC 16, by decide +kernel⟩
theorem connectionTimersComplete_4 : ∃ (id : Nat) (s : State) (c : Conn), connOf s id = some c ∧ c.sealedC = true ∧ ((c.state = .connecting ∨ c.state = .established)) ∧ ((2 ^ 48 ≤ c.sealTx ∨ 2 ^ 48 ≤ c.sealRx)) :=
  ⟨1, withC { conn 1 .established with sealedC := true, sealTx := 2 ^ 48 }, { conn 1 .established with sealedC := true, sealTx := 2 ^ 48 }, by decide +kernel⟩
theorem connectionTimersComplete_5 : ∃ (id : Nat) (s : State) (c : Conn) (s0 : State), connOf s id = some c ∧ c.fetching = true ∧ readContext s c = .ok s0 :=
  ⟨1, withC { conn 1 .established with fetching := true }, { conn 1 .established with fetching := true }, _, by decide +kernel, by decide +kernel, rfl⟩
theorem connectionTimersComplete_6 : ∃ (id : Nat) (s : State) (c : Conn) (f : ReadFail), connOf s id = some c ∧ c.fetching = true ∧ readContext s c = .error f :=
  ⟨1, noVfs, storedC, _, by decide +kernel, by decide +kernel, rfl⟩
theorem connectionTimersComplete_7 : ∃ (id : Nat) (s : State) (c : Conn), connOf s id = some c ∧ c.state = .closing ∧ connBusy s c = false ∧ (((gloveOf s c.owner).reset = none ∨ s.outstanding.any (fun o => o.wait == .connGone id) = true)) :=
  ⟨1, withC (conn 1 .closing), conn 1 .closing, by decide +kernel⟩
theorem ringEventsComplete_0 : ∃ (w : WraPacket) (s s1 : State), portOpen s w.port = true ∧ 8 ≤ w.port ∧ isWra s w = true ∧ w.intact = true ∧ (
    injectPort { s with clock := { s.clock with cycle := w.cycle } } true w.port { op := 0x0E, pkt := w } =
      ([{ op := 0x0E, pkt := w }], s1)) :=
  ⟨heartbeat, onRing, _, by decide +kernel, by decide +kernel, by decide +kernel, by decide +kernel, rfl⟩
theorem ringEventsComplete_1 : ∃ (s : State), s.pwr.state = .on ∧ s.net.trellis.bypass ≠ 0 :=
  ⟨onRing, by decide +kernel⟩
theorem ringEventsComplete_2 : ∃ (m : Nat) (s : State), s.net.trellis.members.contains m = true :=
  ⟨7, setTrellis onRing (fun t => { t with members := [7] }), by decide +kernel⟩
theorem ringEventsComplete_3 : ∃ (port : Nat) (s : State), portOpen s port = true :=
  ⟨8, onRing, by decide +kernel⟩
theorem gloveEventsComplete_0 : ∃ (g : Nat) (s : State) (r : Reset), (gloveOf s g).reset = some r ∧ committedDone s g = true ∧ s.ent.state ≠ .failed ∧ s.keys.zeroized = false ∧ ((r.nonce = true ∨ s.ent.state ≠ .startup ∧ s.ent.reserve ≠ 0)) :=
  ⟨0, resetting, resetOf, by decide +kernel⟩
theorem gloveEventsComplete_1 : ∃ (g : Nat) (s : State) (r : Reset), (gloveOf s g).reset = some r ∧ committedDone s g = true ∧ s.ent.state ≠ .failed ∧ s.keys.zeroized = false ∧ r.nonce = false ∧ ((s.ent.state = .startup ∨ s.ent.reserve = 0)) :=
  ⟨0, { resetting with ent := { resetting.ent with reserve := 0 } }, resetOf, by decide +kernel⟩
theorem gloveEventsComplete_2 : ∃ (g : Nat) (s : State) (r : Reset), (gloveOf s g).reset = some r ∧ committedDone s g = true :=
  ⟨0, resetting, resetOf, by decide +kernel⟩
theorem gloveEventsComplete_4 : ∃ (fn : Nat) (s : State), vfExists s fn = true :=
  ⟨1, live, by decide +kernel⟩
theorem gloveEventsComplete_5 : ∃ (fn : Nat) (s : State), s.host.flr.contains fn = true :=
  ⟨1, { live with host := { live.host with flr := [1] } }, by decide +kernel⟩
theorem gloveEventsComplete_6 : ∃ (s : State), hostReady s = true :=
  ⟨live, by decide +kernel⟩
theorem gloveEventsComplete_8 : ∃ (n : Nat) (s : State), hostReady s = true ∧ s.host.vfEnable = false ∧ n ≤ 16 :=
  ⟨16, { live with host := { live.host with vfEnable := false } }, by decide +kernel⟩
theorem entropyEventsComplete_0 : ∃ (s : State), delivering s.ent = true :=
  ⟨live, by decide +kernel⟩
theorem entropyEventsComplete_2 : ∃ (test : HealthTest) (a b window spareWindow : Nat) (s s1 s2 : State) (hit : List Nat) (moved : List (Nat × Nat)) (st : EntState), (dedup (if test = .notLocked then [min a b, max a b] else [a])).filter (fun i => tested (sourceOf s.ent i) && decide (i < 6)) = hit ∧ hit ≠ [] ∧ (
    { s with ent := { s.ent with
      main := (discardFrom hit window s.ent.main).1, spare := (discardFrom hit spareWindow s.ent.spare).1
      discard := satAdd (2 ^ 32 - 1) s.ent.discard
        ((discardFrom hit window s.ent.main).2 + (discardFrom hit spareWindow s.ent.spare).2)
      promote := s.ent.promote.filter (fun i => !hit.contains i) } } = s1) ∧ quarantine (testCode test) s1 hit = (s2, moved) ∧ (if s2.ent.state = .startup then s2.ent.state else stateFor s2.ent.state (inRole s2.ent .active).length) = st :=
  ⟨.repetition, 0, 0, 0, 0, live, _, _, [0], _, _, by decide +kernel, by decide +kernel, rfl, (Prod.eta _).symm, rfl⟩
theorem entropyEventsComplete_3 : ∃ (s s1 : State) (passed : List Bool), s.ent.state = .startup ∧ onTrial s.ent ≠ [] ∧ (∀ i ∈ onTrial s.ent, passed.getD i false = true) ∧ (
    seatSources (measureSources
      ((onTrial s.ent).foldl (fun s i => setSource s i (fun x => { x with trial := 1 })) s)) = s1) ∧ s1.ent.state = .startup ∧ 4 ≤ (inRole s1.ent .active).length :=
  ⟨State.reset, _, List.replicate 6 true, by decide +kernel, by decide +kernel, by decide +kernel, rfl, by decide +kernel⟩
theorem entropyEventsComplete_4 : ∃ (s : State), (s.ent.state = .ready ∨ s.ent.state = .degraded) :=
  ⟨live, by decide +kernel⟩
theorem entropyEventsComplete_5 : ∃ (s : State), s.ent.state = .failed :=
  ⟨{ live with ent := { live.ent with state := .failed } }, by decide +kernel⟩
theorem integrityEventsComplete_0 : ∃ (work : TastedWork) (primary tile n : Nat) (results : List (List Nat)) (vats : List Nat) (s s1 s2 : State), tasteApplies s work primary tile = true ∧ tasteRuns primary (tasteOf s (workGlove work) (workClass work)).tasted (eligibleVats s (workGlove work) primary) = vats ∧ fillBuffers (countTaste s (workGlove work) primary (workClass work) tile) (vats.take n) results = s1 ∧ (arbitrate vats results).suspects.foldl (fun s v => suspectVat s (workGlove work) v) s1 = s2 ∧ (arbitrate vats results).runs = n :=
  ⟨.press 0 1 0, 0, 0, 2, [[5], [5]], _, alwaysTasted, _, _, by decide +kernel, rfl, rfl, rfl, by decide +kernel⟩
theorem integrityEventsComplete_2 : ∃ (vat : Nat) (s : State), s.int.carrying = none ∧ (waitingVats s).head? = some vat :=
  ⟨3, withVat 3 { state := .suspect }, by decide +kernel⟩
theorem integrityEventsComplete_3 : ∃ (vat : Nat) (s : State), (vatOf s vat).state = .testing ∧ (vatOf s vat).out = true :=
  ⟨3, withVat 3 { state := .testing, out := true }, by decide +kernel⟩
theorem integrityEventsComplete_4 : ∃ (vat : Nat) (s : State), (vatOf s vat).state = .probation ∧ 10 ^ 9 ≤ (vatOf s vat).shadows :=
  ⟨3, withVat 3 { state := .probation, shadows := 10 ^ 9 }, by decide +kernel⟩
theorem integrityEventsComplete_5 : ∃ (g : Nat) (s : State), (gloveOf s g).restriping = true ∧ s.int.waiting.any (moveOf g) = false :=
  ⟨0, { live with gloves := { gloveOfTest 0 with restriping := true } :: live.gloves.drop 1 }, by decide +kernel⟩
theorem integrityEventsComplete_6 : ∃ (g cask i : Nat) (s : State) (c : Cask), s.int.verifying.contains (g, cask) = true ∧ caskOf s g cask = some c ∧ posOf (fun v => some v == s.int.carrying) c.vats = some i :=
  ⟨0, 0, 3, { withV (vintage 1 .opened) with int := { live.int with verifying := [(0, 0)], carrying := some 3 } }, cask 0 1 0 0, by decide +kernel⟩
theorem powerEventsComplete_1 : ∃ (s : State), s.pwr.auxPresent = true :=
  ⟨live, by decide +kernel⟩
theorem powerEventsComplete_3 : ∃ (s : State), s.pwr.state = .tripped ∧ s.pwr.pwrEn = false :=
  ⟨onPin (fun x => { x with state := .tripped, pwrEn := false }), by decide +kernel⟩
theorem powerEventsComplete_4 : ∃ (src : TamperSource) (s : State), wired s src = true ∧ s.cal.stopped = false :=
  ⟨.voltage, live, by decide +kernel⟩
theorem powerEventsComplete_5 : ∃ (s : State), s.pwr.auxPresent = false :=
  ⟨onPin (fun x => { x with auxPresent := false }), by decide +kernel⟩
theorem powerEventsComplete_6 : ∃ (s : State), s.pwr.state = .standby :=
  ⟨inPower .standby, by decide +kernel⟩
theorem powerEventsComplete_7 : ∃ (s : State), s.pwr.state = .on ∧ (s.pwr.perst = false ∨ s.pwr.perstEarly = false) :=
  ⟨live, by decide +kernel⟩
theorem powerEventsComplete_11 : ∃ (s : State), s.pwr.state = .tripped :=
  ⟨inPower .tripped, by decide +kernel⟩
theorem powerEventsComplete_13 : ∃ (s : State), s.pwr.state = .aux :=
  ⟨inPower .aux, by decide +kernel⟩
theorem powerEventsComplete_14 : ∃ (s : State), s.pwr.state = .off :=
  ⟨inPower .off, by decide +kernel⟩
theorem stepKeepsShape_0 : ∃ (s t : State), ShapeOk s ∧ step s = .next t :=
  ⟨live, live, (by constructor <;> decide +kernel), rfl⟩
theorem stepNeverGoesBack_0 : ∃ (s t : State), step s = .next t :=
  ⟨live, live, rfl⟩
theorem commandFrame_0 : ∃ (i : Instr) (s t : State), exec i s = .next t :=
  ⟨.auxLoss, State.reset, _, rfl⟩
theorem memoryReadsWhatWasWritten_0 : ∃ (m : List (Nat × Byte)), Memory.wf m = true :=
  ⟨[(3, 1)], by decide +kernel⟩
theorem memoryReadsWhatWasWritten_1 : ∃ (m : List (Nat × Byte)) (a : Nat) (bs : List Byte) (x : Nat), Memory.wf m = true ∧ (x < a ∨ a + bs.length ≤ x) :=
  ⟨[(3, 1)], 3, [2, 0], 5, by decide +kernel⟩
theorem windowWriteStoresOnlyInWindow_0 : ∃ (s : State) (ctx key off : Nat) (bs : List Byte) (w : Window), Memory.wf s.host.mem = true ∧ Sparse.wf s.host.rings = true ∧ localWindow s ctx key rightWrite off bs.length = .ok w ∧ w.target = 1 ∧ w.cuff = false ∧ dmaReaches s w.owner = true ∧ w.base + off + bs.length ≤ 2 ^ 64 :=
  ⟨withHost 0 [1, 2] live, 0, 256 * 4097, 0, [7], hostW, by decide +kernel, by decide +kernel, localHost, by decide +kernel⟩
theorem windowWriteStoresOnlyInWindow_3 : ∃ (s : State) (ctx key off : Nat) (bs : List Byte) (w : Window) (k : Nat), Memory.wf s.host.mem = true ∧ Sparse.wf s.host.rings = true ∧ localWindow s ctx key rightWrite off bs.length = .ok w ∧ w.target = 1 ∧ w.cuff = false ∧ dmaReaches s w.owner = true ∧ w.base + off + bs.length ≤ 2 ^ 64 ∧ (k < hostKey (functionOf w.owner) (w.base + off) ∨ hostKey (functionOf w.owner) (w.base + off) + bs.length ≤ k) :=
  ⟨withHost 0 [1, 2] live, 0, 256 * 4097, 0, [7], hostW, 2 ^ 64 + 1, by decide +kernel, by decide +kernel, localHost, by decide +kernel⟩
theorem windowWriteStoresOnlyInWindow_4 : ∃ (s : State) (w : Window) (k : Cask), w.target = 0 ∧ caskOf s w.owner w.object = some k ∧ Memory.wf k.data = true :=
  ⟨withV (vintage 1 .opened), window 4096 0 0 0, cask 0 1 0 0, by decide +kernel⟩
theorem windowWriteStoresOnlyInWindow_6 : ∃ (s : State) (w : Window) (off : Nat) (bs : List Byte) (k : Cask) (a : Nat), w.target = 0 ∧ caskOf s w.owner w.object = some k ∧ Memory.wf k.data = true ∧ (a < w.base + off ∨ w.base + off + bs.length ≤ a) :=
  ⟨withV (vintage 1 .opened), window 4096 0 0 0, 0, [7], cask 0 1 0 0, 1, by decide +kernel⟩
theorem windowWriteStoresOnlyInWindow_8 : ∃ (s t : State) (w : Window) (off : Nat) (bs : List Byte), Memory.wf s.host.mem = true ∧ Sparse.wf s.host.rings = true ∧ w.target = 1 ∧ w.cuff = true ∧ windowStore s w off bs = .ok t :=
  ⟨cuffed, _, cuffW, 0, zeros 4096, by decide +kernel, by decide +kernel, rfl, rfl, cuff_write.choose_spec⟩
theorem windowWriteStoresOnlyInWindow_9 : ∃ (s t : State) (w : Window) (off : Nat) (bs : List Byte) (k : Nat), Memory.wf s.host.mem = true ∧ Sparse.wf s.host.rings = true ∧ w.target = 1 ∧ w.cuff = true ∧ windowStore s w off bs = .ok t ∧ 
               (∀ j ∈ recordsOf (w.base + off) bs.length,
        let data := hostKey (functionOf w.owner) ((gloveOf s w.owner).session.dataBase + 4096 * j)
        let tag := hostKey (functionOf w.owner) ((gloveOf s w.owner).session.tagBase + 32 * j)
        (k < data ∨ data + 4096 ≤ k) ∧ (k < tag ∨ tag + 32 ≤ k)) :=
  ⟨cuffed, _, cuffW, 0, zeros 4096, 2 ^ 64 + 4096, by decide +kernel, by decide +kernel, rfl, rfl, cuff_write.choose_spec, by rw [show (zeros 4096).length = 4096 by rw [zeros, List.length_replicate]]; decide +kernel⟩
theorem windowWriteStoresOnlyInWindow_10 : ∃ (s : State) (q : Queue), Sparse.wf s.host.rings = true ∧ q.cuff = false ∧ dmaReaches s q.owner = true :=
  ⟨live, queue 256 0 .reply, by decide +kernel⟩
theorem refusedCommandHasNoEffect_0 : ∃ (i : Instr) (c : Cmd) (p : Packet) (s : State) (r : Refused), commandOf i = some (c, p) ∧ served c p s = true ∧ checks c p s = .error r :=
  ⟨.nop (pktS 0 []), _, _, live, _, rfl, by decide +kernel, err_val { answer := { status := .ok } } (by decide +kernel)⟩
theorem unservedCommands_0 : ∃ (i : Instr) (c : Cmd) (p : Packet) (s : State), commandOf i = some (c, p) ∧ s.pwr.state = .on ∧ s.fw.recovery = false ∧ s.cm.state = .halted :=
  ⟨.nop (pkt 0 []), _, _, { live with cm := { state := .halted } }, rfl, by decide +kernel⟩
theorem unservedCommands_2 : ∃ (i : Instr) (c : Cmd) (p : Packet) (s : State), commandOf i = some (c, p) ∧ s.pwr.state = .on ∧ s.fw.recovery = false ∧ (s.cm.state = .restarting ∨ s.cm.state = .boot) :=
  ⟨.nop (pkt 0 []), _, _, { live with cm := { state := .boot } }, rfl, by decide +kernel⟩
theorem unservedCommands_3 : ∃ (i : Instr) (c : Cmd) (p : Packet) (s : State), commandOf i = some (c, p) ∧ s.pwr.state = .on ∧ s.fw.recovery = true ∧ p.route = .sideband ∧ c.op ∉ [0x0910, 0x0911, 0x0912, 0x0D01] :=
  ⟨.moduleStatus (pktS 0xD02 []), _, _, inRecovery, rfl, by decide +kernel⟩
theorem unservedCommands_4 : ∃ (i : Instr) (c : Cmd) (p : Packet) (s : State), commandOf i = some (c, p) ∧ s.pwr.state = .on ∧ s.fw.recovery = true ∧ p.route ≠ .sideband :=
  ⟨.nop (pkt 0 []), _, _, inRecovery, rfl, by decide +kernel⟩
theorem sidebandRefusesOpcodes_0 : ∃ (i : Instr) (c : Cmd) (p : Packet) (s : State), commandOf i = some (c, p) ∧ served c p s = true ∧ p.route = .sideband ∧ c.sideband = false :=
  ⟨.nop (pktS 0 []), _, _, live, rfl, by decide +kernel⟩
theorem fullResetFreesGloves_1 : ∃ (s : State), s.pwr.perst = false :=
  ⟨live, by decide +kernel⟩
theorem auxiliaryDomainAnswers_0 : ∃ (i : Instr) (c : Cmd) (p : Packet) (s : State), commandOf i = some (c, p) ∧ p.route = .sideband ∧ (s.pwr.state = .aux ∨ s.pwr.state = .standby ∨ s.pwr.state = .tripped) :=
  ⟨.moduleStatus (pktS 0xD02 []), _, _, inPower .aux, rfl, by decide +kernel⟩
theorem auxiliaryDomainAnswers_1 : ∃ (s : State), (s.pwr.state = .aux ∨ s.pwr.state = .standby ∨ s.pwr.state = .tripped) :=
  ⟨inPower .tripped, by decide +kernel⟩
theorem auxiliaryDomainAnswers_2 : ∃ (i : Instr) (c : Cmd) (p : Packet) (s : State), commandOf i = some (c, p) ∧ p.route = .sideband ∧ s.pwr.state = .on ∧ s.fw.recovery = false ∧ s.cm.state = .running ∧ c.sideband = true :=
  ⟨.moduleStatus (pktS 0xD02 []), _, _, live, rfl, by decide +kernel⟩
theorem vintageOpenRefusals_0 : ∃ (p : Packet) (s : State), served cmdVintageOpen p s = true ∧ checkRoute cmdVintageOpen p s = .ok () ∧ checkIssuer cmdVintageOpen p s = .ok () ∧ cmdVintageOpen.form p s = none ∧ checkGlove p s = .ok () ∧ (((gloveOf s p.ctx).phase.type = .none ∨ ∃ v : Vintage, vintageOf s p.ctx p.vintage = some v ∧ v.c ≤ p.stamp.count)) :=
  ⟨pktAt 10 0x104 [] 1, withV (vintage 1 .draft), by decide +kernel, rfl, rfl, by decide +kernel, rfl, .inr ⟨vintage 1 .draft, by decide +kernel⟩⟩
theorem revokedKeyReachesNothing_0 : ∃ (p : Packet) (s : State) (w : Window), Sparse.wf s.gens = true ∧ Admitted cmdWindowRevoke p s ∧ windowOf s (p.u32 0 / 256) = some w :=
  ⟨pkt 0x602 (key0 ++ zeros 4), live, window 4096 0 2 256, by decide +kernel⟩
theorem revokedKeyReachesNothing_2 : ∃ (p : Packet) (s : State) (w : Window) (key : Nat), Sparse.wf s.gens = true ∧ Admitted cmdWindowRevoke p s ∧ windowOf s (p.u32 0 / 256) = some w ∧ key / 256 = p.u32 0 / 256 :=
  ⟨pkt 0x602 (key0 ++ zeros 4), live, window 4096 0 2 256, 256 * 4096 + 255, by decide +kernel⟩
theorem revokedKeyReachesNothing_3 : ∃ (p : Packet) (s : State) (w : Window) (j : Nat), Sparse.wf s.gens = true ∧ Admitted cmdWindowRevoke p s ∧ windowOf s (p.u32 0 / 256) = some w ∧ j ≠ p.u32 0 / 256 :=
  ⟨pkt 0x602 (key0 ++ zeros 4), live, window 4096 0 2 256, 4097, by decide +kernel⟩

end Sys2Proof.Tests
end

/-! PROOFS. What a sideband packet meets at dispatch when its opcode is not sideband-capable (R505): the row's command
runs through the common dispatch, step 2 of R32 refuses it before its context is read, and a refusal on the sideband
leaves nothing behind besides its reply. -/

namespace Sys2Proof.Machine

set_option autoImplicit false

/-! ### The rows of the Chiwin commands -/

/-- The row of a Chiwin command does what the common dispatch does with its command and its packet. -/
theorem exec_of_commandOf {i : Instr} {c : Cmd} {p : Packet} (s : State) (h : commandOf i = some (c, p)) :
    exec i s = runCmd c p s := by
  unfold commandOf at h
  split at h <;> cases h <;> rfl

/-- SESSION_OPEN is the one command whose refusal can leave anything behind besides its reply (R32, R372). -/
theorem spent_of_commandOf {i : Instr} {c : Cmd} {p : Packet} (h : commandOf i = some (c, p)) :
    c = cmdSessionOpen ∨ ∀ (q : Packet) (s : State), c.spent q s = s := by
  cases i
  case sessionOpen q =>
    cases h
    exact .inl rfl
  all_goals
    cases h <;> exact .inr fun _ _ => rfl

/-! ### Refusals on the sideband -/

section
variable {c : Cmd} {p : Packet}

/-- The sideband is served in the Vintner's turns (R31). -/
theorem turnOf_sideband (s : State) (h : p.route = .sideband) : turnOf s p = vintner := by
  rw [turnOf, if_pos h]

/-- A SESSION_OPEN on the sideband spends no Glove's key pair: its turn is the Vintner's, so it is no Glove's own. -/
theorem pairSpent_sideband (s : State) (h : p.route = .sideband) : pairSpent p s = s := by
  have not_own : ¬ (p.ctx < 16 ∧ turnOf s p = p.ctx ∧ (gloveOf s p.ctx).session.state = .keyed) := by
    rintro ⟨glove, own, -⟩
    rw [turnOf_sideband s h, vintner] at own
    omega
  rw [pairSpent, if_neg not_own]

theorem spent_sideband {i : Instr} (s : State) (hi : commandOf i = some (c, p)) (h : p.route = .sideband) :
    c.spent p s = s := by
  obtain rfl | nothing_spent := spent_of_commandOf hi
  · exact pairSpent_sideband s h
  · exact nothing_spent p s

/-- Step 2 of R32 refuses the opcode on the sideband (R505). -/
theorem checkRoute_sideband (s : State) (h : p.route = .sideband) (hc : c.sideband = false) :
    checkRoute c p s = fail .badOpcode := by
  rw [checkRoute, if_pos h, need_false hc]

/-- The refusal of step 2 stands, whatever the steps behind it would find, the context's among them. -/
theorem checks_sideband (s : State) (h : p.route = .sideband) (hc : c.sideband = false) :
    checks c p s = fail .badOpcode := by
  rw [checks, checkRoute_sideband s h hc, bind_fail]

/-- A refusal without a failed DMA read is its reply. -/
theorem refuse_answer (s : State) (p : Packet) (a : Answer) : refuse s p { answer := a } = reply s p a := rfl

end

/-- Settles O56: step 2 of R32 refuses the packet, and on the sideband a refusal is its reply alone. -/
theorem sidebandRefusesOpcodes : Obligations.SidebandRefusesOpcodes := by
  intro i c p s hi hserved hroute hside
  rw [exec_of_commandOf s hi, runCmd_refused hserved (checks_sideband s hroute hside), spent_sideband s hi hroute,
    refuse_answer]

end Sys2Proof.Machine

/-! PROOFS. The two refusals of VINTAGE_OPEN that R56 names: a packet that steps 2 to 5 of R32 let through is judged by
the command's own checks, and these answer in the order of its results table, so an earlier one may answer first. -/

namespace Sys2Proof.Machine

set_option autoImplicit false

/-! ### The checks that all commands share -/

/-- Where the steps of R32 that all commands share find nothing wrong, the command's own checks decide. -/
theorem checks_eq_state {c : Cmd} {p : Packet} {s : State} (route : checkRoute c p s = .ok ())
    (issuer : checkIssuer c p s = .ok ()) (access : c.access p s = .ok ()) (form : c.form p s = none)
    (glove : checkGlove p s = .ok ()) : checks c p s = c.state p s := by
  simp only [checks, route, issuer, access, form, glove, ite_self, bind_ok]

/-- A refusal by a command's own checks is its reply alone, for a command that leaves nothing else behind. -/
theorem runCmd_state_refuses {c : Cmd} {p : Packet} {s : State} {st : Status} {d : Nat} (hserved : served c p s = true)
    (hchecks : checks c p s = c.state p s) (hspent : c.spent p s = s) (hstate : c.state p s = fail st d) :
    runCmd c p s = .next (reply s p { status := st, detail := d }) := by
  rw [runCmd_refused hserved (hchecks.trans hstate), hspent, refuse_answer]

/-! ### The first three checks of VINTAGE_OPEN -/

section
variable {p : Packet} {s : State} {v : Vintage}

theorem vintageOpen_state_of_not_draft
    (draft : (vintageOf s p.ctx p.vintage).filter (fun v => v.state == .draft) = none) :
    cmdVintageOpen.state p s = fail .badState 1 := by
  simp only [cmdVintageOpen, want_none draft, bind_fail]

theorem vintageOpen_state_of_no_source
    (draft : (vintageOf s p.ctx p.vintage).filter (fun v => v.state == .draft) = some v)
    (source : (gloveOf s p.ctx).phase.type = .none) :
    cmdVintageOpen.state p s = fail .badState 2 := by
  have no_source : ((gloveOf s p.ctx).phase.type != .none) = false := by simp [source]
  simp only [cmdVintageOpen, want_some draft, bind_ok, need_false no_source, bind_fail]

theorem vintageOpen_state_of_late_stamp
    (draft : (vintageOf s p.ctx p.vintage).filter (fun v => v.state == .draft) = some v)
    (source : (gloveOf s p.ctx).phase.type ≠ .none) (late : v.c ≤ p.stamp.count) :
    cmdVintageOpen.state p s = fail .badState 3 := by
  have has_source : ((gloveOf s p.ctx).phase.type != .none) = true := by simp [source]
  have not_below : decide (p.stamp.count < v.c) = false := decide_eq_false (Nat.not_lt.mpr late)
  simp only [cmdVintageOpen, want_some draft, need_true has_source, bind_ok, need_false not_below, bind_fail]

/-- Without a phase source, or with a stamp at or above the contribution-close phase, one of the first three checks
fails; which one depends on whether the Vintage is still a draft. -/
theorem vintageOpen_state_refuses (h : (gloveOf s p.ctx).phase.type = .none ∨
      ∃ v : Vintage, vintageOf s p.ctx p.vintage = some v ∧ v.c ≤ p.stamp.count) :
    ∃ d : Nat, cmdVintageOpen.state p s = fail .badState d := by
  cases draft : (vintageOf s p.ctx p.vintage).filter (fun v => v.state == .draft) with
  | none => exact ⟨1, vintageOpen_state_of_not_draft draft⟩
  | some v =>
    by_cases source : (gloveOf s p.ctx).phase.type = .none
    · exact ⟨2, vintageOpen_state_of_no_source draft source⟩
    · obtain ⟨w, found, late⟩ := h.resolve_left source
      obtain rfl : w = v := Option.some.inj (found.symm.trans (Option.filter_eq_some_iff.mp draft).1)
      exact ⟨3, vintageOpen_state_of_late_stamp draft source late⟩

end

/-- Settles O59: steps 2 to 5 of R32 leave the packet to VINTAGE_OPEN's own checks, one of the first three of these
refuses it with ST_BAD_STATE, and a refused VINTAGE_OPEN leaves nothing behind besides its reply. -/
theorem vintageOpenRefusals : Obligations.VintageOpenRefusals := by
  intro p s hserved hroute hissuer hform hglove hrefused
  obtain ⟨d, hstate⟩ := vintageOpen_state_refuses hrefused
  have hchecks : checks cmdVintageOpen p s = cmdVintageOpen.state p s :=
    checks_eq_state hroute hissuer rfl hform hglove
  refine ⟨d, ?_⟩
  rw [exec_of_commandOf (i := .vintageOpen p) s rfl]
  exact runCmd_state_refuses hserved hchecks rfl hstate

end Sys2Proof.Machine

/-! PROOFS. What a sideband packet and the MCTP reset message meet in each power state (R492): while the module has
auxiliary power but is not ON, the auxiliary domain judges a packet by its opcode alone; once the module is ON, the
packet meets the checks of R32 like any other. -/

namespace Sys2Proof.Machine

set_option autoImplicit false

/-! ### The opcodes of the auxiliary domain -/

/-- MODULE_STATUS and POWER_CAP_SET are the commands of the auxiliary domain (R492). -/
theorem aux_iff_of_commandOf {i : Instr} {c : Cmd} {p : Packet} (h : commandOf i = some (c, p)) :
    c.aux = true ↔ i = .moduleStatus p ∨ i = .powerCapSet p := by
  cases i
  case moduleStatus q =>
    cases h
    exact iff_of_true rfl (.inl rfl)
  case powerCapSet q =>
    cases h
    exact iff_of_true rfl (.inr rfl)
  all_goals
    cases h <;> exact iff_of_false Bool.false_ne_true (by simp)

/-! ### Dispatch by the power state -/

/-- The states in which the auxiliary domain answers are those with auxiliary power in which the module is not ON. -/
theorem auxiliary_iff (s : State) :
    (s.pwr.state = .aux ∨ s.pwr.state = .standby ∨ s.pwr.state = .tripped) ↔
      s.pwr.state ≠ .off ∧ s.pwr.state ≠ .on := by
  cases s.pwr.state <;> decide

section
variable {c : Cmd} {p : Packet} {s : State}

theorem dispatch_auxiliary (hroute : p.route = .sideband) (not_off : s.pwr.state ≠ .off) (not_on : s.pwr.state ≠ .on) :
    dispatch c p s = if c.aux then perform c p s else deliver s p { status := .badState, detail := 1 } := by
  rw [dispatch, if_pos not_on, if_pos ⟨hroute, not_off⟩]

theorem served_of_running (on : s.pwr.state = .on) (no_recovery : s.fw.recovery = false)
    (running : s.cm.state = .running) : served c p s = true := by
  simp [served, on, no_recovery, running]

/-- Step 2 of R32 lets a sideband-capable opcode through on the sideband (R505). -/
theorem checkRoute_sideband_ok (hroute : p.route = .sideband) (capable : c.sideband = true) :
    checkRoute c p s = .ok () := by
  rw [checkRoute, if_pos hroute, need_true capable]

end

/-- The MCTP reset message is ignored while the module is not ON, whatever serial number it carries (R492). -/
theorem exec_mctpResetMessage_of_not_on {s : State} (serial : Nat) (not_on : s.pwr.state ≠ .on) :
    exec (.mctpResetMessage serial) s = .next s := by
  have unpowered : powered s ≠ true := by simpa [powered] using not_on
  change execMctpResetMessage serial s = .next s
  rw [execMctpResetMessage, if_neg (fun h => unpowered h.1)]

/-- Settles O58: with auxiliary power alone, dispatch asks only whether the opcode is one of the auxiliary domain's two,
and no reset message passes; in ON the packet is served, and step 2 of R32 accepts its route. -/
theorem auxiliaryDomainAnswers : Obligations.AuxiliaryDomainAnswers := by
  refine ⟨fun i c p s hi hroute haux => ?_, fun serial s haux => ?_,
    fun i c p s hi hroute on no_recovery running capable => ⟨checkRoute_sideband_ok hroute capable, ?_⟩⟩
  · obtain ⟨not_off, not_on⟩ := (auxiliary_iff s).mp haux
    rw [exec_of_commandOf s hi, runCmd, dispatch_auxiliary hroute not_off not_on]
    simp only [aux_iff_of_commandOf hi]
  · exact exec_mctpResetMessage_of_not_on serial ((auxiliary_iff s).mp haux).2
  · rw [exec_of_commandOf s hi, runCmd, dispatch_of_served (served_of_running on no_recovery running)]

end Sys2Proof.Machine

/-! PROOFS. What every row and every step of the module does: each row answers a next state, with the effect that
Laws/Effects*.lean gives for its meaning, and a step is the row at the front of the queue. -/

namespace Sys2Proof.Machine

set_option autoImplicit false

/-! ### Every row has its effect -/

/-- The effect of a row is that of its meaning (Laws/Effects*.lean). -/
theorem exec_eff {i : Instr} {s t : State} (h : exec i s = .next t) : Eff (mayChange i) s t :=
  match i with
  | .nop .. => execNop_eff (h := h) ..
  | .queueCreate .. => execQueueCreate_eff (h := h) ..
  | .queueDestroy .. => execQueueDestroy_eff (h := h) ..
  | .queueFlush .. => execQueueFlush_eff (h := h) ..
  | .queueQuery .. => execQueueQuery_eff (h := h) ..
  | .sessionKeygen .. => execSessionKeygen_eff (h := h) ..
  | .sessionOpen .. => execSessionOpen_eff (h := h) ..
  | .sessionClose .. => execSessionClose_eff (h := h) ..
  | .sessionQuery .. => execSessionQuery_eff (h := h) ..
  | .vintageCreate .. => execVintageCreate_eff (h := h) ..
  | .caskAlloc .. => execCaskAlloc_eff (h := h) ..
  | .caskFree .. => execCaskFree_eff (h := h) ..
  | .vintageOpen .. => execVintageOpen_eff (h := h) ..
  | .vintageSeal .. => execVintageSeal_eff (h := h) ..
  | .vintageClose .. => execVintageClose_eff (h := h) ..
  | .vintageAbort .. => execVintageAbort_eff (h := h) ..
  | .vintageQuery .. => execVintageQuery_eff (h := h) ..
  | .caskQuery .. => execCaskQuery_eff (h := h) ..
  | .leesRack .. => execLeesRack_eff (h := h) ..
  | .leesRetract .. => execLeesRetract_eff (h := h) ..
  | .caskAdjust .. => execCaskAdjust_eff (h := h) ..
  | .maskSetup .. => execMaskSetup_eff (h := h) ..
  | .graphLoad .. => execGraphLoad_eff (h := h) ..
  | .pubkeyLoad .. => execPubkeyLoad_eff (h := h) ..
  | .shareSubmit .. => execShareSubmit_eff (h := h) ..
  | .ledgerQuery .. => execLedgerQuery_eff (h := h) ..
  | .maskKeygen .. => execMaskKeygen_eff (h := h) ..
  | .maskApply .. => execMaskApply_eff (h := h) ..
  | .shareSplit .. => execShareSplit_eff (h := h) ..
  | .latParamLoad .. => execLatParamLoad_eff (h := h) ..
  | .latUnload .. => execLatUnload_eff (h := h) ..
  | .latKeysetCreate .. => execLatKeysetCreate_eff (h := h) ..
  | .latEvkLoad .. => execLatEvkLoad_eff (h := h) ..
  | .latBind .. => execLatBind_eff (h := h) ..
  | .latImport .. => execLatImport_eff (h := h) ..
  | .latHdrRead .. => execLatHdrRead_eff (h := h) ..
  | .latAdd .. => execLatAdd_eff (h := h) ..
  | .latSub .. => execLatSub_eff (h := h) ..
  | .latMulConst .. => execLatMulConst_eff (h := h) ..
  | .latMulPlain .. => execLatMulPlain_eff (h := h) ..
  | .latMul .. => execLatMul_eff (h := h) ..
  | .latRotate .. => execLatRotate_eff (h := h) ..
  | .latRescale .. => execLatRescale_eff (h := h) ..
  | .latLevelDrop .. => execLatLevelDrop_eff (h := h) ..
  | .latForm .. => execLatForm_eff (h := h) ..
  | .latEncryptPk .. => execLatEncryptPk_eff (h := h) ..
  | .refreshSetup .. => execRefreshSetup_eff (h := h) ..
  | .lutLoad .. => execLutLoad_eff (h := h) ..
  | .lutFree .. => execLutFree_eff (h := h) ..
  | .refreshPacked .. => execRefreshPacked_eff (h := h) ..
  | .refreshLwe .. => execRefreshLwe_eff (h := h) ..
  | .schemeSwitch .. => execSchemeSwitch_eff (h := h) ..
  | .thrShareLoad .. => execThrShareLoad_eff (h := h) ..
  | .thrPartial .. => execThrPartial_eff (h := h) ..
  | .vintageRelease .. => execVintageRelease_eff (h := h) ..
  | .recipeLoad .. => execRecipeLoad_eff (h := h) ..
  | .recipeFree .. => execRecipeFree_eff (h := h) ..
  | .windowCreate .. => execWindowCreate_eff (h := h) ..
  | .windowRevoke .. => execWindowRevoke_eff (h := h) ..
  | .windowQuery .. => execWindowQuery_eff (h := h) ..
  | .connCreate .. => execConnCreate_eff (h := h) ..
  | .connDestroy .. => execConnDestroy_eff (h := h) ..
  | .connQuery .. => execConnQuery_eff (h := h) ..
  | .triggerCancel .. => execTriggerCancel_eff (h := h) ..
  | .faultInject .. => execFaultInject_eff (h := h) ..
  | .trellisJoin .. => execTrellisJoin_eff (h := h) ..
  | .trellisLeave .. => execTrellisLeave_eff (h := h) ..
  | .trellisStatus .. => execTrellisStatus_eff (h := h) ..
  | .gloveAssign .. => execGloveAssign_eff (h := h) ..
  | .gloveReset .. => execGloveReset_eff (h := h) ..
  | .gloveRelease .. => execGloveRelease_eff (h := h) ..
  | .gloveModeSet .. => execGloveModeSet_eff (h := h) ..
  | .gloveQuery .. => execGloveQuery_eff (h := h) ..
  | .keyOwnerSet .. => execKeyOwnerSet_eff (h := h) ..
  | .keyLoad .. => execKeyLoad_eff (h := h) ..
  | .keyInvalidate .. => execKeyInvalidate_eff (h := h) ..
  | .keyCreate .. => execKeyCreate_eff (h := h) ..
  | .keyEvict .. => execKeyEvict_eff (h := h) ..
  | .keyQuery .. => execKeyQuery_eff (h := h) ..
  | .keyRotateSet .. => execKeyRotateSet_eff (h := h) ..
  | .attestReport .. => execAttestReport_eff (h := h) ..
  | .certRead .. => execCertRead_eff (h := h) ..
  | .endorseLoad .. => execEndorseLoad_eff (h := h) ..
  | .fwStage .. => execFwStage_eff (h := h) ..
  | .fwSelect .. => execFwSelect_eff (h := h) ..
  | .fwQuery .. => execFwQuery_eff (h := h) ..
  | .lcTransition .. => execLcTransition_eff (h := h) ..
  | .debugSet .. => execDebugSet_eff (h := h) ..
  | .entRead .. => execEntRead_eff (h := h) ..
  | .entStatus .. => execEntStatus_eff (h := h) ..
  | .entSourceCtrl .. => execEntSourceCtrl_eff (h := h) ..
  | .entRawRead .. => execEntRawRead_eff (h := h) ..
  | .intVatCtrl .. => execIntVatCtrl_eff (h := h) ..
  | .intBist .. => execIntBist_eff (h := h) ..
  | .intHistoryRead .. => execIntHistoryRead_eff (h := h) ..
  | .intQuery .. => execIntQuery_eff (h := h) ..
  | .phaseTick .. => execPhaseTick_eff (h := h) ..
  | .phaseSourceSet .. => execPhaseSourceSet_eff (h := h) ..
  | .calSet .. => execCalSet_eff (h := h) ..
  | .phaseQuery .. => execPhaseQuery_eff (h := h) ..
  | .moduleReset .. => execModuleReset_eff (h := h) ..
  | .moduleStatus .. => execModuleStatus_eff (h := h) ..
  | .powerCapSet .. => execPowerCapSet_eff (h := h) ..
  | .gblCtrlReset .. => execGblCtrlReset_eff (h := h) ..
  | .gblDbProd .. => execGblDbProd_eff (h := h) ..
  | .gblDbCons .. => execGblDbCons_eff (h := h) ..
  | .phsCountLoRead .. => execPhsCountLoRead_eff (h := h) ..
  | .calMsLoRead => execCalMsLoRead_eff (h := h) ..
  | .entBlocksLoRead => execEntBlocksLoRead_eff (h := h) ..
  | .intTastedLoRead => execIntTastedLoRead_eff (h := h) ..
  | .gblCmStatusRead => execGblCmStatusRead_eff (h := h) ..
  | .phsRefusedRead .. => execPhsRefusedRead_eff (h := h) ..
  | .prtRxDropRead .. => execPrtRxDropRead_eff (h := h) ..
  | .prtNaksRead .. => execPrtNaksRead_eff (h := h) ..
  | .prtMissDropRead => execPrtMissDropRead_eff (h := h) ..
  | .fijCountRead .. => execFijCountRead_eff (h := h) ..
  | .entDiscardRead => execEntDiscardRead_eff (h := h) ..
  | .entUnusedRead => execEntUnusedRead_eff (h := h) ..
  | .keyRemaskLateRead => execKeyRemaskLateRead_eff (h := h) ..
  | .intMismatchRead => execIntMismatchRead_eff (h := h) ..
  | .telPinPeakRead => execTelPinPeakRead_eff (h := h) ..
  | .telThrCountRead => execTelThrCountRead_eff (h := h) ..
  | .calStatusWrite .. => execCalStatusWrite_eff (h := h) ..
  | .keyTamperWrite .. => execKeyTamperWrite_eff (h := h) ..
  | .calTrimWrite .. => execCalTrimWrite_eff (h := h) ..
  | .prtCtrlWrite .. => execPrtCtrlWrite_eff (h := h) ..
  | .fijCtrlWrite .. => execFijCtrlWrite_eff (h := h) ..
  | .registerWrite .. => execRegisterWrite_eff (h := h) ..
  | .commandFetch .. => execCommandFetch_eff (h := h) ..
  | .stagedPromotion .. => execStagedPromotion_eff (h := h) ..
  | .sidebandPacket .. => execSidebandPacket_eff (h := h) ..
  | .mctpResetMessage .. => execMctpResetMessage_eff (h := h) ..
  | .cmFault .. => execCmFault_eff (h := h) ..
  | .watchdogExpire => execWatchdogExpire_eff (h := h) ..
  | .cmRestartDone .. => execCmRestartDone_eff (h := h) ..
  | .calendarMsTick .. => execCalendarMsTick_eff (h := h) ..
  | .stallFallbackEnter .. => execStallFallbackEnter_eff (h := h) ..
  | .stallFallbackTick .. => execStallFallbackTick_eff (h := h) ..
  | .contributionCloseDue .. => execContributionCloseDue_eff (h := h) ..
  | .shareCloseDue .. => execShareCloseDue_eff (h := h) ..
  | .checkpointDue .. => execCheckpointDue_eff (h := h) ..
  | .keyRotationDue .. => execKeyRotationDue_eff (h := h) ..
  | .checkpointCut .. => execCheckpointCut_eff (h := h) ..
  | .checkpointCopyDone .. => execCheckpointCopyDone_eff (h := h) ..
  | .checkpointVerifyDone .. => execCheckpointVerifyDone_eff (h := h) ..
  | .rollbackRestoreDone .. => execRollbackRestoreDone_eff (h := h) ..
  | .vintageReady .. => execVintageReady_eff (h := h) ..
  | .releaseCommit .. => execReleaseCommit_eff (h := h) ..
  | .releaseComplete .. => execReleaseComplete_eff (h := h) ..
  | .liveWaitTimeout .. => execLiveWaitTimeout_eff (h := h) ..
  | .accumulate .. => execAccumulate_eff (h := h) ..
  | .write .. => execWrite_eff (h := h) ..
  | .readReq .. => execReadReq_eff (h := h) ..
  | .readResp .. => execReadResp_eff (h := h) ..
  | .atomic .. => execAtomic_eff (h := h) ..
  | .atomicResp .. => execAtomicResp_eff (h := h) ..
  | .send .. => execSend_eff (h := h) ..
  | .ack .. => execAck_eff (h := h) ..
  | .status .. => execStatus_eff (h := h) ..
  | .connect .. => execConnect_eff (h := h) ..
  | .connectAck .. => execConnectAck_eff (h := h) ..
  | .close .. => execClose_eff (h := h) ..
  | .partialPkt .. => execPartialPkt_eff (h := h) ..
  | .heartbeat .. => execHeartbeat_eff (h := h) ..
  | .shard .. => execShard_eff (h := h) ..
  | .packetPlaced .. => execPacketPlaced_eff (h := h) ..
  | .counterWaitRelease .. => execCounterWaitRelease_eff (h := h) ..
  | .workRequestExecute .. => execWorkRequestExecute_eff (h := h) ..
  | .ackGapTimer .. => execAckGapTimer_eff (h := h) ..
  | .ackIdleTimer .. => execAckIdleTimer_eff (h := h) ..
  | .retransmitTimeout .. => execRetransmitTimeout_eff (h := h) ..
  | .attemptLimit .. => execAttemptLimit_eff (h := h) ..
  | .pathHoldExpire .. => execPathHoldExpire_eff (h := h) ..
  | .rateIncreaseTick .. => execRateIncreaseTick_eff (h := h) ..
  | .sealCounterExhausted .. => execSealCounterExhausted_eff (h := h) ..
  | .contextFetchDone .. => execContextFetchDone_eff (h := h) ..
  | .connRemove .. => execConnRemove_eff (h := h) ..
  | .heartbeatOriginate => execHeartbeatOriginate_eff (h := h) ..
  | .memberTimeout .. => execMemberTimeout_eff (h := h) ..
  | .dispatchTurn .. => execDispatchTurn_eff (h := h) ..
  | .msixMessage .. => execMsixMessage_eff (h := h) ..
  | .msixUnmask .. => execMsixUnmask_eff (h := h) ..
  | .gloveResetReplies .. => execGloveResetReplies_eff (h := h) ..
  | .gloveResetEnd .. => execGloveResetEnd_eff (h := h) ..
  | .quiescenceTimeout .. => execQuiescenceTimeout_eff (h := h) ..
  | .flrVf .. => execFlrVf_eff (h := h) ..
  | .flrComplete .. => execFlrComplete_eff (h := h) ..
  | .flrPf .. => execFlrPf_eff (h := h) ..
  | .vfEnableClear .. => execVfEnableClear_eff (h := h) ..
  | .conventionalReset .. => execConventionalReset_eff (h := h) ..
  | .perstDeassert => execPerstDeassert_eff (h := h) ..
  | .fullResetReady => execFullResetReady_eff (h := h) ..
  | .dmaReadFail .. => execDmaReadFail_eff (h := h) ..
  | .entropyBlockRelease .. => execEntropyBlockRelease_eff (h := h) ..
  | .healthTestFail .. => execHealthTestFail_eff (h := h) ..
  | .entropyStartupDone .. => execEntropyStartupDone_eff (h := h) ..
  | .keyRemask .. => execKeyRemask_eff (h := h) ..
  | .tasteArbitration .. => execTasteArbitration_eff (h := h) ..
  | .chaseEnd .. => execChaseEnd_eff (h := h) ..
  | .vatLeaveService .. => execVatLeaveService_eff (h := h) ..
  | .scanDone .. => execScanDone_eff (h := h) ..
  | .probationComplete .. => execProbationComplete_eff (h := h) ..
  | .throttleRaise .. => execThrottleRaise_eff (h := h) ..
  | .calendarSecond .. => execCalendarSecond_eff (h := h) ..
  | .trip .. => execTrip_eff (h := h) ..
  | .tripRecover => execTripRecover_eff (h := h) ..
  | .tamperTrip .. => execTamperTrip_eff (h := h) ..
  | .vbatLoss => execVbatLoss_eff (h := h) ..
  | .pwrEnRise => execPwrEnRise_eff (h := h) ..
  | .pwrGood => execPwrGood_eff (h := h) ..
  | .pwrEnFall => execPwrEnFall_eff (h := h) ..
  | .inputPowerLoss => execInputPowerLoss_eff (h := h) ..
  | .inputPowerRise => execInputPowerRise_eff (h := h) ..
  | .auxRise => execAuxRise_eff (h := h) ..
  | .auxLoss => execAuxLoss_eff (h := h) ..
  | .arpRequest .. => execArpRequest_eff (h := h) ..
  | .neighbourSolicitation .. => execNeighbourSolicitation_eff (h := h) ..
  | .echoRequest .. => execEchoRequest_eff (h := h) ..
  | .linkTrained .. => execLinkTrained_eff (h := h) ..
  | .linkLost .. => execLinkLost_eff (h := h) ..
  | .vfEnableSet .. => execVfEnableSet_eff (h := h) ..
  | .cmEccCorrected => execCmEccCorrected_eff (h := h) ..
  | .restripeDone .. => execRestripeDone_eff (h := h) ..
  | .carryVerifyDone .. => execCarryVerifyDone_eff (h := h) ..
  | .configurationSeal => execConfigurationSeal_eff (h := h) ..
  | .dynamicAddressAssignment .. => execDynamicAddressAssignment_eff (h := h) ..

/-! ### Every row answers -/

/-- A row that is no Chiwin command answers a next state on every branch of its meaning. -/
theorem event_answers {i : Instr} (s : State) (h : commandOf i = none) : ∃ t : State, exec i s = .next t := by
  cases i
  all_goals
    cases h
  all_goals
    dsimp only [exec]
  any_goals exact ⟨_, rfl⟩
  all_goals
    delta execAckGapTimer execAckIdleTimer execArpRequest execAttemptLimit execAuxLoss execAuxRise
      execCalendarMsTick execCalendarSecond execCarryVerifyDone execCheckpointDue execCheckpointVerifyDone
      execCmFault execCmRestartDone execCommandFetch execConnRemove execContextFetchDone execConventionalReset
      execCounterWaitRelease execDispatchTurn execDmaReadFail execEchoRequest execEntropyBlockRelease
      execEntropyStartupDone execFijCountRead execFlrComplete execFlrPf execFullResetReady execGblDbCons
      execGblDbProd execGloveResetEnd execHealthTestFail execHeartbeat execInputPowerLoss execKeyRemask
      execKeyRotationDue execLiveWaitTimeout execMemberTimeout execNeighbourSolicitation execPacketPlaced
      execPhsCountLoRead execPhsRefusedRead execProbationComplete execPrtCtrlWrite execPrtNaksRead
      execPrtRxDropRead execPwrEnRise execQuiescenceTimeout execRegisterWrite execReleaseCommit
      execReleaseComplete execRestripeDone execRetransmitTimeout execRollbackRestoreDone execScanDone
      execSealCounterExhausted execShareCloseDue execSidebandPacket execStagedPromotion execStallFallbackEnter
      execStallFallbackTick execTamperTrip execTasteArbitration execVbatLoss execWorkRequestExecute
    repeat' (first | with_reducible exact ⟨_, rfl⟩ | split | dsimp only)

theorem exec_answers (i : Instr) (s : State) : ∃ t : State, exec i s = .next t := by
  cases h : commandOf i with
  | none => exact event_answers s h
  | some row => exact ⟨dispatch row.1 row.2 s, exec_of_commandOf s h⟩

/-! ### A step -/

theorem step_of_empty {s : State} (h : s.pending = []) : step s = .next s := by
  unfold step
  rw [h]

theorem step_of_front {s : State} {c : Instr} {rest : List Instr} (h : s.pending = c :: rest) :
    step s = exec c { s with pending := rest } := by
  unfold step
  rw [h]

/-- What every row keeps, whatever the queue holds, every step keeps. -/
theorem step_induction {s t : State} {keeps : State → State → Prop} (h : step s = .next t) (idle : keeps s s)
    (row : ∀ (c : Instr) (rest : List Instr), exec c { s with pending := rest } = .next t → keeps s t) :
    keeps s t := by
  cases front : s.pending with
  | nil =>
    obtain rfl : s = t := Host.Outcome.next.inj ((step_of_empty front).symm.trans h)
    exact idle
  | cons c rest => exact row c rest ((step_of_front front).symm.trans h)

/-- The shape of the module does not speak of the queue of commands. -/
theorem ShapeOk.with_pending {s : State} (h : ShapeOk s) (rest : List Instr) : ShapeOk { s with pending := rest } where
  gloves := h.gloves
  vats := h.vats
  ports := h.ports
  sources := h.sources
  host := h.host
  rings := h.rings
  gens := h.gens
  incs := h.incs
  casks := h.casks
  spill := h.spill
  images := h.images

/-- Settles O48: the effect of every row keeps the shape. -/
theorem stepKeepsShape : Obligations.StepKeepsShape := fun _ _ shape hstep =>
  step_induction (keeps := fun _ t => ShapeOk t) hstep shape
    fun _ rest row => (exec_eff row).shape (shape.with_pending rest)

/-- Settles O49: the effect of every row lowers neither the counter nor the rank. -/
theorem stepNeverGoesBack : Obligations.StepNeverGoesBack := fun _ _ hstep =>
  step_induction (keeps := fun s t => s.fw.rollback ≤ t.fw.rollback ∧ lifeRank s.fw.lc ≤ lifeRank t.fw.lc) hstep
    ⟨Nat.le_refl _, Nat.le_refl _⟩ fun _ _ row => ⟨(exec_eff row).rollback, (exec_eff row).life⟩

/-- Settles O50: every row answers, and its effect leaves the queue as it is. -/
theorem everyCommandAnswers : Obligations.EveryCommandAnswers := by
  intro i s
  obtain ⟨t, row⟩ := exec_answers i s
  exact ⟨t, row, (exec_eff row).pending⟩

/-- Settles O51: the frame is part of the effect of every row. -/
theorem commandFrame : Obligations.CommandFrame := fun _ _ _ row => (exec_eff row).unchanged

/-- Settles O1. -/
theorem stepTakesFrontCommand : Obligations.StepTakesFrontCommand :=
  ⟨fun _ _ _ front => step_of_front front, fun _ empty => step_of_empty empty⟩

end Sys2Proof.Machine

/-! PROOFS. What memory reads back (R361): a byte inside a written block reads as written, a byte of a cleared range as
zero, every other one as before. -/

namespace Sys2Proof.Machine

set_option autoImplicit false

/-- A read of the block that was written gives it back. -/
theorem readN_writeN {m : List (Nat × Byte)} (h : Memory.wf m = true) (a : Nat) (bs : List Byte) :
    Memory.readN (Memory.writeN m a bs) a bs.length = bs := by
  rw [readN_eq]
  refine List.ext_getElem (by simp) fun i _ inside => ?_
  rw [List.getElem_map, List.getElem_range, read_writeN h, if_pos (by omega), Nat.add_sub_cancel_left,
    List.getD_eq_getElem _ _ inside]

theorem read_writeN_outside {m : List (Nat × Byte)} (h : Memory.wf m = true) (a : Nat) (bs : List Byte) {x : Nat}
    (outside : x < a ∨ a + bs.length ≤ x) : Memory.read (Memory.writeN m a bs) x = Memory.read m x := by
  rw [read_writeN h, if_neg (by omega)]

theorem read_clear {m : List (Nat × Byte)} (h : Memory.wf m = true) (a n x : Nat) :
    Memory.read (Memory.clear m a n) x = if a ≤ x ∧ x < a + n then 0 else Memory.read m x := by
  have kept := cellGet_filter 0 (fun k => decide (k < a) || decide (a + n ≤ k)) h x
  rw [Memory.read, Memory.clear, kept]
  by_cases inside : a ≤ x ∧ x < a + n
  · simp [inside.1, inside.2]
  · have outside : x < a ∨ a + n ≤ x := by omega
    simp [inside, outside, Memory.read]

/-- Settles O52. -/
theorem memoryReadsWhatWasWritten : Obligations.MemoryReadsWhatWasWritten := fun _ a h =>
  ⟨fun bs => ⟨wf_writeN h a bs, readN_writeN h a bs, fun _ outside => read_writeN_outside h a bs outside⟩,
    fun n => ⟨wf_clear h a n, read_clear h a n⟩⟩

end Sys2Proof.Machine

/-! PROOFS. Where a write to a window and an entry posted to a ring are stored (R140, R359, R361, R365): the rules of
reading host memory after a write of the engine, of looking up an object after an update, and of sealing a record. -/

namespace Sys2Proof.Machine

set_option autoImplicit false

/-! ### Keyed stores -/

/-- What a store holds once the entries whose keys a test refuses have been taken out. -/
theorem cellGet_filter_keys {α : Type} [DecidableEq α] {d : α} {m : List (Nat × α)} {lo : Nat} (keep : Nat → Bool)
    (h : cellWfFrom d lo m = true) (x : Nat) :
    cellGet d (m.filter (fun e => keep e.1)) x = if keep x then cellGet d m x else d := by
  induction m generalizing lo with
  | nil => simp [cellGet]
  | cons e m ih =>
    obtain ⟨k, v⟩ := e
    simp only [cellWfFrom, Bool.and_eq_true, decide_eq_true_eq] at h
    have below : x < k → cellGet d m x = d := fun hx => cellGet_below h.2 (by omega)
    rw [List.filter_cons]
    obtain hx | rfl | hx := Nat.lt_trichotomy x k
    · have ne : x ≠ k := by omega
      split <;> simp [cellGet, ne, hx, ih h.2, below hx]
    · by_cases kept : keep x = true
      · simp [kept, cellGet]
      · simp [kept, ih h.2]
    · have ne : x ≠ k := by omega
      have nlt : ¬ x < k := by omega
      split <;> simp [cellGet, ne, nlt, ih h.2]

/-- A store without the keys from `k` on for `n` holds nothing there, and what it held elsewhere. -/
theorem sparse_get_clearRing {m : Sparse} (h : Sparse.wf m = true) (k n x : Nat) :
    Sparse.get (clearRing m k n) x = if k ≤ x ∧ x < k + n then 0 else Sparse.get m x := by
  have kept := cellGet_filter_keys (fun e => decide (e < k) || decide (k + n ≤ e)) h x
  rw [Sparse.get, clearRing, kept]
  by_cases inside : k ≤ x ∧ x < k + n
  · simp [inside.1, inside.2]
  · have outside : x < k ∨ k + n ≤ x := by omega
    simp [inside, outside, Sparse.get]

/-- Bytes set one after the other, each one above its number: a key among theirs holds its byte. -/
theorem sparse_get_setAll {m : Sparse} (h : Sparse.wf m = true) (k x : Nat) (bs : List Byte) :
    Sparse.get ((List.zip (List.range bs.length) bs).foldl (fun m x => Sparse.set m (k + x.1) (x.2.toNat + 1)) m) x =
      if k ≤ x ∧ x < k + bs.length then (bs.getD (x - k) 0).toNat + 1 else Sparse.get m x := by
  rw [List.range_eq_range']
  suffices from_ : ∀ j, Sparse.get ((List.zip (List.range' j bs.length) bs).foldl
      (fun m x => Sparse.set m (k + x.1) (x.2.toNat + 1)) m) x =
      if k + j ≤ x ∧ x < k + j + bs.length then (bs.getD (x - (k + j)) 0).toNat + 1 else Sparse.get m x from from_ 0
  induction bs generalizing m with
  | nil => intro j; simp
  | cons b bs ih =>
    intro j
    rw [List.length_cons, List.range'_succ, List.zip_cons_cons, List.foldl_cons, ih (wf_set h _ _) (j + 1),
      sparse_get_set h]
    obtain hx | rfl | hx := Nat.lt_trichotomy x (k + j)
    · rw [if_neg (by omega), if_neg (by omega), if_neg (by omega)]
    · simp
    · obtain ⟨i, rfl⟩ := Nat.exists_eq_add_of_lt hx
      have hi : k + j + i + 1 - (k + j) = i + 1 := by omega
      have hi' : k + j + i + 1 - (k + (j + 1)) = i := by omega
      by_cases inside : i < bs.length
      · rw [if_pos (by omega), if_pos (by omega), hi, hi', List.getD_cons_succ]
      · rw [if_neg (by omega), if_neg (by omega), if_neg (by omega)]

/-! ### Objects after an update -/

theorem find?_mapIf_same {α : Type} {sel : α → Bool} {f : α → α} (keeps : ∀ x, sel (f x) = sel x) (l : List α) :
    (mapIf sel f l).find? sel = (l.find? sel).map f := by
  induction l with
  | nil => rfl
  | cons x l ih =>
    by_cases h : sel x = true
    · simp [mapIf, h, keeps]
    · simpa [mapIf, h] using ih

theorem find?_mapIf_other {α : Type} {sel q : α → Bool} {f : α → α} (keeps : ∀ x, q (f x) = q x)
    (apart : ∀ x, q x = true → sel x = false) (l : List α) : (mapIf sel f l).find? q = l.find? q := by
  induction l with
  | nil => rfl
  | cons x l ih =>
    by_cases h : q x = true
    · simp [mapIf, h, apart x h]
    · by_cases hs : sel x = true
      · simpa [mapIf, h, hs, keeps] using ih
      · simpa [mapIf, h, hs] using ih

theorem caskOf_setCask_same {s : State} {g c : Nat} {f : Cask → Cask} (keeps : ∀ x, (f x).glove = x.glove ∧ (f x).id = x.id) :
    caskOf (setCask s g c f) g c = (caskOf s g c).map f :=
  find?_mapIf_same (fun x => by simp [keeps x]) s.casks

theorem caskOf_setCask_other {s : State} {g c g' c' : Nat} {f : Cask → Cask}
    (keeps : ∀ x, (f x).glove = x.glove ∧ (f x).id = x.id) (other : g' ≠ g ∨ c' ≠ c) :
    caskOf (setCask s g c f) g' c' = caskOf s g' c' := by
  refine find?_mapIf_other (fun x => by simp [keeps x]) (fun x hx => ?_) s.casks
  simp only [Bool.and_eq_true, beq_iff_eq] at hx
  obtain ⟨rfl, rfl⟩ := hx
  simpa using fun h => other.resolve_left (not_not.mpr h)

/-- A part of a Glove that an update keeps is the same for every Glove after it. -/
theorem gloveOf_setGlove_keeps {α : Type} (part : Glove → α) {f : Glove → Glove} (keeps : ∀ x, part (f x) = part x)
    (s : State) (g h : Nat) : part (gloveOf (setGlove s g f) h) = part (gloveOf s h) := by
  have parts : (setAt s.gloves g f).map part = s.gloves.map part := map_setAt part s.gloves g f keeps
  have same := congrArg (fun l => l.getD h (part {})) parts
  rw [List.getD_map, List.getD_map] at same
  exact same

/-! ### Host memory -/

/-- Host memory and the ring bytes over it are in canonical form. -/
structure HostOk (s : State) : Prop where
  mem : Memory.wf s.host.mem = true
  rings : Sparse.wf s.host.rings = true

theorem hostByte_hostWrite {s : State} (h : HostOk s) (fn addr : Nat) (bs : List Byte) (k : Nat) :
    hostByte (hostWrite s fn addr bs) k =
      if hostKey fn addr ≤ k ∧ k < hostKey fn addr + bs.length then bs.getD (k - hostKey fn addr) 0 else hostByte s k := by
  simp only [hostByte, hostWrite, sparse_get_clearRing h.rings, read_writeN h.mem]
  by_cases inside : hostKey fn addr ≤ k ∧ k < hostKey fn addr + bs.length
  · simp [inside]
  · simp [inside]

theorem hostByte_ringWrite {s : State} (h : Sparse.wf s.host.rings = true) (fn addr : Nat) (bs : List Byte) (k : Nat) :
    hostByte (ringWrite s fn addr bs) k =
      if hostKey fn addr ≤ k ∧ k < hostKey fn addr + bs.length then bs.getD (k - hostKey fn addr) 0 else hostByte s k := by
  simp only [hostByte, ringWrite, sparse_get_setAll h]
  by_cases inside : hostKey fn addr ≤ k ∧ k < hostKey fn addr + bs.length
  · simp [inside]
  · simp [inside]

/-- Bytes stored from an address on read back from there, whatever else was stored. -/
theorem hostRead_of_bytes {t : State} {fn addr : Nat} {bs : List Byte}
    (h : ∀ i < bs.length, hostByte t (hostKey fn addr + i) = bs.getD i 0) : hostRead t fn addr bs.length = bs := by
  refine List.ext_getElem (by simp [hostRead]) fun i _ inside => ?_
  simp only [hostRead, List.getElem_map, List.getElem_range, h i inside, List.getD_eq_getElem _ _ inside]

theorem hostRead_hostWrite {s : State} (h : HostOk s) (fn addr : Nat) (bs : List Byte) :
    hostRead (hostWrite s fn addr bs) fn addr bs.length = bs :=
  hostRead_of_bytes fun i inside => by
    rw [hostByte_hostWrite h, if_pos (by omega), Nat.add_sub_cancel_left]

theorem hostByte_hostWrite_outside {s : State} (h : HostOk s) {fn addr k : Nat} {bs : List Byte}
    (outside : k < hostKey fn addr ∨ hostKey fn addr + bs.length ≤ k) :
    hostByte (hostWrite s fn addr bs) k = hostByte s k := by
  rw [hostByte_hostWrite h, if_neg (by omega)]

theorem HostOk.hostWrite {s : State} (h : HostOk s) (fn addr : Nat) (bs : List Byte) : HostOk (hostWrite s fn addr bs) where
  mem := wf_writeN h.mem _ _
  rings := cellWfFrom_filter _ 0 _ h.rings

/-! ### Windows -/

section
variable {s : State} {w : Window} {off : Nat} {bs : List Byte}

theorem windowStore_host (target : w.target = 1) (plain : w.cuff = false) (reaches : dmaReaches s w.owner = true) :
    windowStore s w off bs = .ok (hostWrite s (functionOf w.owner) (w.base + off) bs) := by
  simp [windowStore, target, plain, reaches]

theorem windowStore_cask (target : w.target = 0) : windowStore s w off bs =
    .ok (touchOpcodes (setCask s w.owner w.object (storeCask (w.base + off) bs)) w.owner w.object (w.base + off) bs.length) := by
  simp [windowStore, target]

/-- A command's write is the store, once the window is found; a window on host memory maps no withheld Cask. -/
theorem writeWindow_host {ctx key : Nat} (found : localWindow s ctx key rightWrite off bs.length = .ok w)
    (target : w.target = 1) (plain : w.cuff = false) (reaches : dmaReaches s w.owner = true) :
    writeWindow s ctx key off bs = .ok (hostWrite s (functionOf w.owner) (w.base + off) bs) := by
  have kept : (!mapsWithheld s w) = true := by simp [mapsWithheld, target]
  simp only [writeWindow, found, bind_ok, need_true kept, windowStore_host target plain reaches, hostRefused]

/-! ### Casks -/

theorem storeCask_data (c : Cask) : (storeCask off bs c).data = Memory.writeN c.data off bs := by
  unfold storeCask spoilHeaders
  split <;> rfl

theorem storeCask_name (c : Cask) : (storeCask off bs c).glove = c.glove ∧ (storeCask off bs c).id = c.id := by
  unfold storeCask spoilHeaders
  split <;> exact ⟨rfl, rfl⟩

theorem touchOpcodes_casks (s : State) (g c off n : Nat) : (touchOpcodes s g c off n).casks = s.casks := by
  unfold touchOpcodes
  split <;> rfl

theorem touchOpcodes_host (s : State) (g c off n : Nat) : (touchOpcodes s g c off n).host = s.host := by
  unfold touchOpcodes
  split <;> rfl

theorem caskOf_touchOpcodes (s : State) (g c off n g' c' : Nat) :
    caskOf (touchOpcodes s g c off n) g' c' = caskOf s g' c' := by
  rw [caskOf, touchOpcodes_casks, caskOf]

end

/-! ### Records of a Cuff (R365, R367) -/

theorem length_toLE (n v : Nat) : (toLE n v).length = n := by
  induction n generalizing v with
  | zero => rfl
  | succ n ih => simp [toLE, ih]

theorem length_gcmCrypt (key nonce text : List Byte) : (Crypto.gcmCrypt key nonce text).length ≤ text.length := by
  simp [Crypto.gcmCrypt, xorBytes]

theorem length_gcmSeal (key nonce aad text : List Byte) : (Crypto.gcmSeal key nonce aad text).length ≤ text.length + 16 := by
  have crypt := length_gcmCrypt key nonce text
  have tag : (Crypto.gcmTag key nonce aad (Crypto.gcmCrypt key nonce text)).length ≤ 16 := by
    simp [Crypto.gcmTag, xorBytes, toBE, length_toLE]
  simp only [Crypto.gcmSeal, List.length_append]
  omega

theorem length_tagFront (record dir counter : Nat) : (tagFront record dir counter).length = 16 := by
  simp [tagFront, length_toLE, zeros]

/-- A byte of host memory is outside the data and the tag of record j. -/
def OutsideRecord (s : State) (g j k : Nat) : Prop :=
  let data := hostKey (functionOf g) ((gloveOf s g).session.dataBase + 4096 * j)
  let tag := hostKey (functionOf g) ((gloveOf s g).session.tagBase + 32 * j)
  (k < data ∨ data + 4096 ≤ k) ∧ (k < tag ∨ tag + 32 ≤ k)

/-- From s to t the Cuff of a Glove keeps its place, and the byte at `k` of host memory is the same. -/
structure KeepsByte (g k : Nat) (s t : State) : Prop where
  ok : HostOk t
  data : (gloveOf t g).session.dataBase = (gloveOf s g).session.dataBase
  tag : (gloveOf t g).session.tagBase = (gloveOf s g).session.tagBase
  byte : hostByte t k = hostByte s k

theorem KeepsByte.refl {g k : Nat} {s : State} (h : HostOk s) : KeepsByte g k s s := ⟨h, rfl, rfl, rfl⟩

theorem KeepsByte.trans {g k : Nat} {s t u : State} (h : KeepsByte g k s t) (h' : KeepsByte g k t u) : KeepsByte g k s u :=
  ⟨h'.ok, h'.data.trans h.data, h'.tag.trans h.tag, h'.byte.trans h.byte⟩

theorem KeepsByte.outside {g k j : Nat} {s t : State} (h : KeepsByte g k s t) (out : OutsideRecord s g j k) :
    OutsideRecord t g j k := by
  rw [OutsideRecord, h.data, h.tag]
  exact out

/-- The record table of a session says nothing of where its Cuff lies. -/
theorem keepsByte_setGlove {s : State} (h : HostOk s) (g h' k : Nat) {f : Glove → Glove}
    (data : ∀ x, (f x).session.dataBase = x.session.dataBase) (tag : ∀ x, (f x).session.tagBase = x.session.tagBase) :
    KeepsByte h' k s (setGlove s g f) where
  ok := ⟨h.mem, h.rings⟩
  data := gloveOf_setGlove_keeps (fun x => x.session.dataBase) data s g h'
  tag := gloveOf_setGlove_keeps (fun x => x.session.tagBase) tag s g h'
  byte := rfl

theorem keepsByte_hostWrite {s : State} (h : HostOk s) {fn addr g k : Nat} {bs : List Byte}
    (outside : k < hostKey fn addr ∨ hostKey fn addr + bs.length ≤ k) : KeepsByte g k s (hostWrite s fn addr bs) :=
  ⟨h.hostWrite fn addr bs, rfl, rfl, hostByte_hostWrite_outside h outside⟩

/-- Sealing a record writes its data and its tag alone. -/
theorem cuffSeal_keepsByte {s : State} (h : HostOk s) {g j k : Nat} {plain : List Byte} (fits : plain.length ≤ 4096)
    (out : OutsideRecord s g j k) : KeepsByte g k s (cuffSeal s g j plain) := by
  have noted : KeepsByte g k s (sealRecord s g j) := keepsByte_setGlove h g g k (fun _ => rfl) (fun _ => rfl)
  obtain ⟨data, tag⟩ := noted.outside out
  have sealed := length_gcmSeal (slice (gloveOf (sealRecord s g j) g).session.keys 32 32)
    (zeros 4 ++ toLE 8 (gloveOf (sealRecord s g j) g).session.counter)
    (tagFront j 1 (gloveOf (sealRecord s g j) g).session.counter) plain
  refine (noted.trans (keepsByte_hostWrite noted.ok ?_)).trans (keepsByte_hostWrite (noted.ok.hostWrite _ _ _) ?_)
  · rw [List.length_take]
    omega
  · simp only [List.length_append, List.length_drop, length_tagFront]
    omega

theorem length_gcmOpen {key nonce aad sealed plain : List Byte} (h : Crypto.gcmOpen key nonce aad sealed = some plain) :
    plain.length ≤ sealed.length - 16 := by
  unfold Crypto.gcmOpen at h
  dsimp only at h
  split at h
  · cases h
    exact (length_gcmCrypt ..).trans (by rw [List.length_take]; omega)
  · cases h

theorem length_hostRead (s : State) (fn addr n : Nat) : (hostRead s fn addr n).length = n := by simp [hostRead]

/-- A record that opens gives at most 4,096 bytes, and opening it changes at most the record table. -/
theorem cuffOpen_spec {s s' : State} {g j : Nat} {plain : List Byte} (h : cuffOpen s g j = .ok (plain, s')) :
    plain.length ≤ 4096 ∧ ∀ k, HostOk s → KeepsByte g k s s' := by
  unfold cuffOpen at h
  dsimp only at h
  split at h
  · cases h
  next opened =>
    have fits := length_gcmOpen opened
    simp only [List.length_append, List.length_drop, length_hostRead] at fits
    repeat' split at h
    · cases h
    · cases h
    · cases h
      exact ⟨by omega, fun k hs => KeepsByte.refl hs⟩
    · cases h
      exact ⟨by omega, fun k hs => keepsByte_setGlove hs g g k (fun _ => rfl) (fun _ => rfl)⟩

theorem cuffPlain_spec {s s' : State} {g off j : Nat} {bs plain : List Byte}
    (h : cuffPlain s g off bs j = .ok (plain, s')) : plain.length ≤ 4096 ∧ ∀ k, HostOk s → KeepsByte g k s s' := by
  unfold cuffPlain at h
  dsimp only at h
  generalize part_eq : (if off ≤ 4096 * j then (bs.drop (4096 * j - off)).take 4096
    else bs.take (4096 - (off - 4096 * j))) = part at h
  split at h
  next whole =>
    cases h
    exact ⟨by omega, fun k hs => KeepsByte.refl hs⟩
  · obtain ⟨⟨old, s1⟩, opened, h⟩ := of_bind_ok h
    cases h
    obtain ⟨fits, keeps⟩ := cuffOpen_spec opened
    refine ⟨?_, keeps⟩
    have part_fits : part.length + (off - 4096 * j) ≤ 4096 ∨ part.length = 0 := by
      rw [← part_eq]
      split <;> simp <;> omega
    simp only [List.length_append, List.length_take, List.length_drop]
    omega

/-- What every step of a fold that may fail keeps, holds where the fold ends. -/
theorem foldlM_induction {α β ε : Type} {keeps : β → Prop} {f : β → α → Except ε β} {l : List α} {a r : β}
    (h : l.foldlM f a = .ok r) (start : keeps a) (next : ∀ a x r, x ∈ l → keeps a → f a x = .ok r → keeps r) :
    keeps r := by
  induction l generalizing a with
  | nil => cases h; exact start
  | cons x l ih =>
    rw [List.foldlM_cons] at h
    obtain ⟨b, hb, h⟩ := of_bind_ok h
    exact ih h (next a x b (by simp) start hb) fun a y r hy => next a y r (List.mem_cons_of_mem x hy)

/-- Sealing records one after the other writes none but their bytes. -/
theorem foldl_cuffSeal_keepsByte {g k : Nat} (plains : List (Nat × List Byte)) {s : State} (h : HostOk s)
    (fits : ∀ x ∈ plains, x.2.length ≤ 4096 ∧ OutsideRecord s g x.1 k) :
    KeepsByte g k s (plains.foldl (fun s x => cuffSeal s g x.1 x.2) s) := by
  induction plains generalizing s with
  | nil => exact KeepsByte.refl h
  | cons x plains ih =>
    obtain ⟨small, out⟩ := fits x (by simp)
    have first : KeepsByte g k s (cuffSeal s g x.1 x.2) := cuffSeal_keepsByte h small out
    exact first.trans (ih first.ok fun y hy => (fits y (List.mem_cons_of_mem x hy)).imp_right first.outside)

/-- Once the plaintexts are known: each is one of a record that the write touches, and no byte has changed yet. -/
def PlainsOf (s : State) (g off n : Nat) (acc : List (Nat × List Byte) × State) : Prop :=
  (∀ x ∈ acc.1, x.1 ∈ recordsOf off n ∧ x.2.length ≤ 4096) ∧ ∀ k, KeepsByte g k s acc.2

theorem cuffWrite_keepsByte {s t : State} (hs : HostOk s) {g off k : Nat} {bs : List Byte} (h : cuffWrite s g off bs = .ok t)
    (out : ∀ j ∈ recordsOf off bs.length, OutsideRecord s g j k) : KeepsByte g k s t := by
  obtain ⟨⟨plains, s1⟩, gathered, h⟩ := of_bind_ok h
  cases h
  obtain ⟨records, kept⟩ : PlainsOf s g off bs.length (plains, s1) := by
    refine foldlM_induction gathered ⟨by simp, fun k => KeepsByte.refl hs⟩ fun acc j r hj ⟨records, kept⟩ hr => ?_
    obtain ⟨⟨plain, s2⟩, opened, hr⟩ := of_bind_ok hr
    cases hr
    obtain ⟨fits, keeps⟩ := cuffPlain_spec opened
    refine ⟨fun x hx => ?_, fun k => (kept k).trans (keeps k (kept k).ok)⟩
    obtain hx | rfl := by simpa using hx
    · exact records x hx
    · exact ⟨hj, fits⟩
  exact (kept k).trans (foldl_cuffSeal_keepsByte plains (kept k).ok fun x hx =>
    ⟨(records x hx).2, (kept k).outside (out x.1 (records x hx).1)⟩)

/-! ### Entries of a ring (R359) -/

/-- A vector's count is no byte of host memory. -/
theorem hostByte_bumpVector (s : State) (fn v k : Nat) : hostByte (bumpVector s fn v) k = hostByte s k := rfl

/-- An entry of a ring outside a Cuff is written at the producer index; what pushing it changes besides is the queue and
its vector. -/
theorem hostByte_pushEntry {s : State} {q : Queue} (plain : q.cuff = false) (reaches : dmaReaches s q.owner = true)
    (entry : List Byte) (k : Nat) : hostByte (pushEntry s q entry) k =
      hostByte (ringWrite s (functionOf q.owner) (q.base + entryBytes q.kind * (q.prod % 2 ^ q.log2Depth)) entry) k := by
  have stored : storeEntry s q entry =
      ringWrite s (functionOf q.owner) (q.base + entryBytes q.kind * (q.prod % 2 ^ q.log2Depth)) entry := by
    simp [storeEntry, plain, reaches]
  unfold pushEntry
  rw [stored]
  split <;> rfl

/-! ### The statement -/

/-- Settles O53: a store into host memory is one block, a store into a Cask one block of its coordinates, a write into
a Cuff seals the records it touches, and an entry is one block of its ring. -/
theorem windowWriteStoresOnlyInWindow : Obligations.WindowWriteStoresOnlyInWindow := by
  refine ⟨fun s ctx key off bs w mem rings found target plain reaches _ => ?_, fun s w off bs c target found mem => ?_,
    fun s t w off bs mem rings target cuff stored => ?_, fun s q entry rings plain reaches => ?_⟩
  · have ok : HostOk s := ⟨mem, rings⟩
    exact ⟨_, writeWindow_host found target plain reaches, (hostWrite_eff ..).unchanged, rfl, rfl,
      hostRead_hostWrite ok _ _ _, fun k outside => hostByte_hostWrite_outside ok outside⟩
  · refine ⟨_, storeCask (w.base + off) bs c, windowStore_cask target, ?_, ?_, ?_, ?_, ?_⟩
    · rw [caskOf_touchOpcodes, caskOf_setCask_same storeCask_name, found, Option.map_some]
    · rw [storeCask_data, readN_writeN mem]
    · intro a outside
      rw [storeCask_data, read_writeN_outside mem _ _ outside]
    · intro g n other
      rw [caskOf_touchOpcodes, caskOf_setCask_other storeCask_name other]
    · rw [touchOpcodes_host, setCask_host]
  · have ok : HostOk s := ⟨mem, rings⟩
    simp only [windowStore, target, cuff, if_true] at stored
    split at stored
    · cases stored
      exact ⟨rfl, fun _ _ => rfl⟩
    · exact ⟨((cuffWrite_eff (h := stored) ..).unchanged .casks (by decide)).1,
        fun k out => (cuffWrite_keepsByte ok stored out).byte⟩
  · intro addr _
    have byte := fun k => (hostByte_pushEntry plain reaches entry k).trans (hostByte_ringWrite rings _ addr entry k)
    refine ⟨hostRead_of_bytes fun i inside => ?_, fun k outside => ?_⟩
    · rw [byte, if_pos (by omega), Nat.add_sub_cancel_left]
    · rw [byte, if_neg (by omega)]

end Sys2Proof.Machine

/-! PROOFS. What a Chiwin packet that is not performed leaves behind: the answer of the first check of R32 that fails,
and the answer, the wait or the silence of a module whose Cellarmaster does not serve it (R48, R50, R440). -/

namespace Sys2Proof.Machine

set_option autoImplicit false

/-! ### Refusals -/

section
variable {i : Instr} {c : Cmd} {p : Packet} {s : State}

/-- A command whose opcode is not SESSION_OPEN's leaves nothing behind besides its reply. -/
theorem spent_of_opcode (hi : commandOf i = some (c, p)) (other : c.op ≠ 0x0011) : c.spent p s = s := by
  obtain rfl | nothing_spent := spent_of_commandOf hi
  · exact absurd rfl other
  · exact nothing_spent p s

theorem spent_eff (hi : commandOf i = some (c, p)) : Eff answering s (c.spent p s) := by
  obtain rfl | nothing_spent := spent_of_commandOf hi
  · exact (pairSpent_eff ..).weaken rfl
  · rw [nothing_spent p s]
    exact Eff.refl _ _

theorem refuse_without_host {r : Refused} (h : r.host = none) : refuse s p r = reply s p r.answer := by
  rw [refuse, h]

end

/-- Settles O54: step by step of R32 the first check that fails is the refusal, and a refusal only answers. -/
theorem refusedCommandHasNoEffect : Obligations.RefusedCommandHasNoEffect := by
  intro i c p s r hi hserved hchecks
  refine ⟨?_, spent_of_opcode hi, refuse_without_host, ((spent_eff hi).step (refuse_eff ..) rfl).unchanged⟩
  rw [exec_of_commandOf s hi, runCmd_refused hserved hchecks]

/-! ### Packets that the Cellarmaster does not serve -/

section
variable {c : Cmd} {p : Packet} {s : State}

theorem dispatch_halted (on : s.pwr.state = .on) (no_recovery : s.fw.recovery = false) (halted : s.cm.state = .halted) :
    dispatch c p s = deliver s p { status := .engineHalted } := by
  simp [dispatch, on, no_recovery, halted]

theorem dispatch_staged (on : s.pwr.state = .on) (no_recovery : s.fw.recovery = false)
    (busy : s.cm.state = .restarting ∨ s.cm.state = .boot) : dispatch c p s = { s with staged := s.staged ++ [p] } := by
  obtain restarting | boot := busy
  · simp [dispatch, on, no_recovery, restarting]
  · simp [dispatch, on, no_recovery, boot]

theorem dispatch_recovery_sideband (on : s.pwr.state = .on) (recovery : s.fw.recovery = true)
    (hroute : p.route = .sideband) (unserved : c.op ∉ recoveryOpcodes) :
    dispatch c p s = deliver s p { status := .badOpcode } := by
  simp [dispatch, on, recovery, hroute, unserved]

theorem dispatch_recovery_host (on : s.pwr.state = .on) (recovery : s.fw.recovery = true) (hroute : p.route ≠ .sideband) :
    dispatch c p s = s := by
  simp [dispatch, on, recovery, hroute]

end

/-- Settles O55: dispatch asks for RECOVERY, then for the state of the Cellarmaster. -/
theorem unservedCommands : Obligations.UnservedCommands := by
  intro i c p s hi on
  rw [exec_of_commandOf s hi, runCmd]
  refine ⟨fun no_recovery halted => ⟨?_, (deliver_eff ..).weaken rfl |>.unchanged⟩, fun no_recovery busy => ?_,
    fun recovery hroute unserved => ?_, fun recovery hroute => ?_⟩
  · rw [dispatch_halted on no_recovery halted]
  · rw [dispatch_staged on no_recovery busy]
  · rw [dispatch_recovery_sideband on recovery hroute unserved]
  · rw [dispatch_recovery_host on recovery hroute]

end Sys2Proof.Machine

/-! PROOFS. How an admitted command ends, whichever way its body chooses between two ends (R24, R32). -/

namespace Sys2Proof.Machine

set_option autoImplicit false

section
variable {c : Cmd} {p : Packet} {s t t' : State} {d d' : Done} {branch : Prop} [Decidable branch]

theorem runCmd_ends (h : Admitted c p s) (draw : c.draw p s = none) (body : c.body p s = .ok (t, d)) :
    runCmd c p s = .next (finish c t p d) := by
  rw [runCmd, dispatch_of_admitted h, start_of_no_draw draw, runBody, body]

theorem runCmd_branches (h : Admitted c p s) (draw : c.draw p s = none)
    (body : c.body p s = if branch then .ok (t, d) else .ok (t', d')) :
    runCmd c p s = .next (if branch then finish c t p d else finish c t' p d') := by
  split at body
  · next yes => rw [runCmd_ends h draw body, if_pos yes]
  · next no => rw [runCmd_ends h draw body, if_neg no]

end

end Sys2Proof.Machine

/-! PROOFS. A revoked window (R135): its index names no window and carries the next generation, so that no key of the
index passes the check of a window. -/

namespace Sys2Proof.Machine

set_option autoImplicit false

/-! ### Looking up after a removal -/

theorem find?_filter_removed {α : Type} (sel : α → Bool) (l : List α) : (l.filter (fun x => !sel x)).find? sel = none := by
  simp [List.find?_eq_none]

theorem find?_filter_kept {α : Type} {keep sel : α → Bool} (h : ∀ x, sel x = true → keep x = true) (l : List α) :
    (l.filter keep).find? sel = l.find? sel := by
  induction l with
  | nil => rfl
  | cons x l ih =>
    by_cases hk : keep x = true
    · simp [hk, List.find?_cons, ih]
    · have hs : sel x = false := by simpa using fun hs => hk (h x hs)
      simp [hk, hs, ih]

/-! ### Revocation -/

section
variable {s : State} {i : Nat} {w : Window}

theorem windows_revokeWindow (found : windowOf s i = some w) :
    (revokeWindow s i).windows = s.windows.filter (fun x => x.index != i) ∧
      (revokeWindow s i).gens = Sparse.set s.gens i (w.gen + 1) := by
  rw [revokeWindow, found]
  exact ⟨rfl, rfl⟩

/-- Two states with the same windows find the same ones, and with the same generations carry the same. -/
theorem windowOf_congr {t : State} (h : t.windows = s.windows) (j : Nat) : windowOf t j = windowOf s j := by
  rw [windowOf, h, windowOf]

theorem generationOf_congr {t : State} (h : t.gens = s.gens) (j : Nat) : generationOf t j = generationOf s j := by
  rw [generationOf, h, generationOf]

theorem windowOf_revokeWindow (found : windowOf s i = some w) (j : Nat) :
    windowOf (revokeWindow s i) j = if j = i then none else windowOf s j := by
  rw [windowOf, (windows_revokeWindow found).1]
  split
  · next h =>
    subst h
    exact find?_filter_removed (fun x => x.index == j) s.windows
  · next h =>
    refine find?_filter_kept (fun x hx => ?_) s.windows
    simpa [beq_iff_eq.mp hx] using h

theorem generationOf_revokeWindow (gens : Sparse.wf s.gens = true) (found : windowOf s i = some w) (j : Nat) :
    generationOf (revokeWindow s i) j = if j = i then w.gen + 1 else generationOf s j := by
  rw [generationOf, (windows_revokeWindow found).2, sparse_get_set gens, generationOf]

/-- A key whose index names no window is refused, out of range or not. -/
theorem localWindow_of_none {ctx key right off n : Nat} (none : windowOf s (key / 256) = none) :
    ∃ r : Refused, localWindow s ctx key right off n = .error r ∧ r.answer.status = .accessViolation := by
  by_cases inRange : windowInRange s ctx (key / 256) = true
  · refine ⟨{ answer := { status := .accessViolation, detail := 2 } }, ?_, rfl⟩
    simp only [localWindow, need_true inRange, bind_ok, none, Option.filter_none, want_none rfl, bind_fail]
    rfl
  · refine ⟨{ answer := { status := .accessViolation, detail := 1 } }, ?_, rfl⟩
    simp only [localWindow, need_false (Bool.eq_false_iff.mpr inRange), bind_fail]
    rfl

end

/-- WINDOW_REVOKE answers, or waits for the packets under the key, once the window is revoked. -/
theorem exec_windowRevoke {p : Packet} {s : State} (h : Admitted cmdWindowRevoke p s) :
    exec (.windowRevoke p) s =
      let s1 := revokeWindow s (p.u32 0 / 256)
      .next (if keysBusy s1 [p.u32 0] then
          finish cmdWindowRevoke s1 p (.waits (.revoke (p.u32 0) (nextKey s1 (p.u32 0 / 256))))
        else reply s1 p (okAnswer (nextKey s1 (p.u32 0 / 256)))) :=
  runCmd_branches h rfl rfl

theorem windows_reply (s : State) (p : Packet) (a : Answer) :
    (reply s p a).windows = s.windows ∧ (reply s p a).gens = s.gens :=
  have same := (reply_eff s p a).unchanged .windows (by decide)
  ⟨same.1, same.2.2⟩

/-- Settles O60: what follows the revocation, a reply or a wait, leaves the windows and the generations alone. -/
theorem revokedKeyReachesNothing : Obligations.RevokedKeyReachesNothing := by
  intro p s w gens admitted found
  have same : ∃ t, exec (.windowRevoke p) s = .next t ∧ t.windows = (revokeWindow s (p.u32 0 / 256)).windows ∧
      t.gens = (revokeWindow s (p.u32 0 / 256)).gens := by
    refine ⟨_, exec_windowRevoke admitted, ?_⟩
    split
    · exact ⟨rfl, rfl⟩
    · exact windows_reply ..
  obtain ⟨t, row, windows, generations⟩ := same
  have window := fun j => (windowOf_congr windows j).trans (windowOf_revokeWindow found j)
  have generation := fun j => (generationOf_congr generations j).trans (generationOf_revokeWindow gens found j)
  refine ⟨t, row, ?_, ?_, fun ctx key right off n index => ?_, fun j other => ⟨?_, ?_⟩⟩
  · rw [window, if_pos rfl]
  · rw [generation, if_pos rfl]
  · exact localWindow_of_none (by rw [index, window, if_pos rfl])
  · rw [window, if_neg other]
  · rw [generation, if_neg other]

end Sys2Proof.Machine

/-! PROOFS. NOP, the queue commands and the session commands complete (R24, R35 to R38, R370 to R373): the body of an
admitted command, run on the state where its draw left it. -/

namespace Sys2Proof.Machine

set_option autoImplicit false

/-! ### Queue commands -/

section
variable {p : Packet} {s : State} {q : Queue}

theorem nop_body : cmdNop.body p s = .ok (s, .answer (bytesAnswer (padTo 16 p.params))) := rfl

theorem queueCreate_body
    (room : p.u8 2 ≠ 0 ∨ (s.queues.filter (fun q => q.kind == .command && q.bound == p.u16 4)).length < 64) :
    cmdQueueCreate.body p s = .ok ({ s with queues := s.queues ++ [{
      id := p.u16 0, owner := p.ctx, kind := queueKind (p.u8 2), log2Depth := p.u8 3, bound := p.u16 4
      conn := if p.u16 6 < 2 ^ 15 then none else some (p.u16 6 % 2 ^ 15)
      base := p.u64 8, cuff := p.u8 16 == 1, vector := p.u8 17 }] }, .answer okAnswer) := by
  have fits : (p.u8 2 != 0 || decide ((s.queues.filter (fun q => q.kind == .command && q.bound == p.u16 4)).length <
      Config.queuesPerReply)) = true := by
    simp only [Bool.or_eq_true, bne_iff_ne, decide_eq_true_eq]
    exact room
  simp only [cmdQueueCreate, need_true fits, bind_ok]
  rfl

theorem queueDestroy_body_other (found : queueOf s (p.u16 0) = some q) (other : q.kind ≠ .command) :
    cmdQueueDestroy.body p s = .ok (removeQueue s (p.u16 0), .answer okAnswer) := by
  have filtered : (queueOf s (p.u16 0)).filter (fun q => q.kind == .command) = none := by simp [found, other]
  simp only [cmdQueueDestroy, filtered]
  rfl

/-- The packets of a command queue are discarded first, the staged ones and then the others. -/
theorem queueDestroy_body_command {s1 s2 : State} {a b n : Nat} (found : queueOf s (p.u16 0) = some q)
    (command : q.kind = .command) (staged : flushStaged s (p.u16 0) q.prod = (s1, a))
    (unfetched : discardUnfetched s1 q q.prod = (s2, b, n)) :
    cmdQueueDestroy.body p s =
      let s3 := setQueue s2 (p.u16 0) (fun q => { q with state := .destroying })
      if destroyReady s3 (p.u16 0) then .ok (removeQueue s3 (p.u16 0), .answer (okAnswer (a + b)))
      else .ok (s3, .waits (.destroy (p.u16 0) (a + b))) := by
  have filtered : (queueOf s (p.u16 0)).filter (fun q => q.kind == .command) = some q := by simp [found, command]
  simp only [cmdQueueDestroy, filtered, staged, unfetched]
  rfl

/-- A flush discards on a HALTED queue the slots up to the mark, without a reply, and makes it ACTIVE. -/
theorem queueFlush_body_halted {s1 : State} {a : Nat} (found : queueOf s (p.u16 0) = some q)
    (staged : flushStaged s q.id (p.mark.getD q.prod) = (s1, a)) (halted : q.state = .halted) :
    cmdQueueFlush.body p s = .ok (setQueue (consumeSlots s1 q.id (haltedSlots q (p.mark.getD q.prod))) q.id
        (fun x => { x with state := .active, failSlot := none, badIndex := false }),
      .answer (okAnswer (haltedSlots q (p.mark.getD q.prod)) (p.mark.getD q.prod) a)) := by
  simp only [cmdQueueFlush, want_some found, bind_ok, staged, discardUnfetched, halted, if_true]
  rfl

theorem queueFlush_body_active {s1 s2 : State} {a b : Nat} (found : queueOf s (p.u16 0) = some q)
    (staged : flushStaged s q.id (p.mark.getD q.prod) = (s1, a)) (active : q.state ≠ .halted)
    (ring : flushRing q.slots.length s1 q.id (p.mark.getD q.prod) = (s2, b)) :
    cmdQueueFlush.body p s = .ok (setQueue s2 q.id (fun x => { x with badIndex := false }),
      .answer (okAnswer (a + b) (p.mark.getD q.prod) (a + b))) := by
  simp only [cmdQueueFlush, want_some found, bind_ok, staged, discardUnfetched, if_neg active, ring]
  rfl

theorem queueQuery_body (found : queueOf s (p.u16 0) = some q) :
    cmdQueueQuery.body p s = .ok (s, .answer (okAnswer q.prod q.cons
      ((s.staged.filter (fun x => x.queue == q.id && x.route != .sideband)).length + 2 ^ 16 * queueStateCode q.state)
      (awaitingCount s p q.id))) := by
  simp only [cmdQueueQuery, want_some found, bind_ok]
  rfl

end

/-- Settles O2. -/
theorem queueCommandsComplete : Obligations.QueueCommandsComplete :=
  ⟨fun _ _ h => runCmd_answer h rfl nop_body, fun _ _ h room => runCmd_answer h rfl (queueCreate_body room),
    fun _ _ _ h found other => runCmd_answer h rfl (queueDestroy_body_other found other),
    fun _ _ _ _ _ _ _ _ h found command staged unfetched =>
      runCmd_branches h rfl (queueDestroy_body_command found command staged unfetched),
    fun _ _ _ _ _ h found staged halted => runCmd_answer h rfl (queueFlush_body_halted found staged halted),
    fun _ _ _ _ _ _ _ h found staged active ring =>
      runCmd_answer h rfl (queueFlush_body_active found staged active ring),
    fun _ _ _ h found => runCmd_answer h rfl (queueQuery_body found)⟩

/-! ### Session commands -/

section
variable {p : Packet} {s : State}

/-- SESSION_KEYGEN writes the encapsulation key and keeps the seed. -/
theorem sessionKeygen_body {s1 s2 : State} {seed : List Byte} (drawn : drawBytes s 64 = (seed, s1))
    (written : writeWindow s1 p.ctx (p.u32 0) (p.u64 8) (padTo 1568 (Config.mlkemEk seed)) = .ok s2) :
    cmdSessionKeygen.body p s = .ok (setSession s2 p.ctx (fun x =>
        { x with state := .keyed, ek := padTo 1568 (Config.mlkemEk seed), dk := seed }),
      .answer (bytesAnswer (Crypto.sha256 (padTo 1568 (Config.mlkemEk seed))))) := by
  simp only [cmdSessionKeygen, drawn, written, bind_ok]
  rfl

/-- SESSION_OPEN establishes the session on a right confirmation, and ends it on a wrong one. -/
theorem sessionOpen_body (room : lpddrFits s p.ctx (tableMib (p.u8 16)) = true) : cmdSessionOpen.body p s =
    let x := (gloveOf s p.ctx).session
    let keys := sessionKeys s p.ctx p
    let h := Crypto.sha256 (x.ek ++ openCt p ++ p.bytes 0 32)
    if p.bytes 1600 16 ≠ confirmation (slice keys 64 32) "HOST" h then
      .ok (setSession s p.ctx zeroPair, .answer { status := .cuffAuth })
    else
      .ok (setSession s p.ctx (fun x => {
          state := .established, confidential := p.u8 17 == 1, count := (x.count + 1) % 2 ^ 16, ek := x.ek, dk := []
          dataBase := p.u64 0, tagBase := p.u64 8, log2S := p.u8 16, ctxRecords := p.u32 20, ctxFirst := p.u32 24
          keys := keys.take 64 }), .answer (bytesAnswer (confirmation (slice keys 96 32) "ENGINE" h))) := by
  simp only [cmdSessionOpen, need_true room, bind_ok]
  rfl

end

/-- Settles O3. -/
theorem sessionCommandsComplete : Obligations.SessionCommandsComplete :=
  ⟨fun _ _ _ _ _ h ready drawn written => runCmd_draws_once h rfl rfl ready (sessionKeygen_body drawn written),
    fun _ _ h room => runCmd_branches h rfl (sessionOpen_body room), fun _ _ h => runCmd_answer h rfl rfl,
    fun _ _ h => runCmd_answer h rfl rfl⟩

end Sys2Proof.Machine

/-! PROOFS. The commands of Vintages, Casks and Lees clients complete (R17, R56, R90, R103, R104, R229, R230, R235): each
body finds its objects and runs to its end. -/

namespace Sys2Proof.Machine

set_option autoImplicit false

/-- A condition of a command that is given as a proposition. -/
theorem need_decide {b : Prop} [Decidable b] {st : Status} {d : Nat} (h : b) : need (decide b) st d = .ok () :=
  need_true (decide_eq_true h)

/-- Settles O4. -/
theorem vintageCommandsComplete : Obligations.VintageCommandsComplete := by
  refine ⟨fun p s h inGlove inModule room => runCmd_answer h rfl ?_, fun p s v h ready found => ?_,
    fun p s v w h found sealed_ => ?_, fun p s v h found => ?_, fun p s s1 v sum h found ended => ?_,
    fun p s s1 s2 n v sum h found preempted ended => ?_⟩
  · have few : (decide (openCount s (fun v => v.glove == p.ctx) < Config.maxVintagesGlove) &&
        decide (openCount s (fun _ => true) < Config.maxVintagesModule)) = true :=
      Bool.and_eq_true_iff.mpr ⟨decide_eq_true inGlove, decide_eq_true inModule⟩
    simp only [cmdVintageCreate, need_true few, need_true room, bind_ok]
    rfl
  · refine runCmd_draws_once h rfl rfl ready ?_
    simp only [cmdVintageOpen, drawnOf_ctx, drawnOf_vintage, drawnOf_stamp, want_some found, bind_ok]
    rfl
  · have body : cmdVintageSeal.body p s = .ok (sealVintage s p.ctx p.vintage p.stamp,
        .answer (if sealAborts v then { status := .badState, detail := 2 }
          else okAnswer (survivorCount w) (v.standings.filter (fun x => x.2 == .lees)).length
            (w.clients - w.survivors.length))) := by
      simp only [cmdVintageSeal, want_some found, want_some sealed_, bind_ok]
      split <;> rfl
    exact runCmd_answer h rfl body
  · refine ⟨_, rfl, rfl, runCmd_answer h rfl ?_⟩
    simp only [cmdVintageQuery, found]
    rfl
  · have body : cmdVintageClose.body p s = if keysBusy s1 (vintageKeys s p.ctx p.vintage) then
          .ok (s1, .waits (.ends p.ctx p.vintage (vintageKeys s p.ctx p.vintage) 0))
        else .ok (freeVintage s1 p.ctx p.vintage sum, .answer okAnswer) := by
      simp only [cmdVintageClose, want_some found, bind_ok, ended]
      rfl
    exact runCmd_branches h rfl body
  · have body : cmdVintageAbort.body p s = if keysBusy s2 (vintageKeys s1 p.ctx p.vintage) then
          .ok (s2, .waits (.ends p.ctx p.vintage (vintageKeys s1 p.ctx p.vintage) (vintageStateCode v.state)))
        else .ok (freeVintage s2 p.ctx p.vintage sum, .answer (okAnswer (vintageStateCode v.state))) := by
      simp only [cmdVintageAbort, want_some found, bind_ok, preempted, ended]
      rfl
    exact runCmd_branches h rfl body

/-- Settles O5. -/
theorem caskCommandsComplete : Obligations.CaskCommandsComplete := by
  refine ⟨fun p s h placed room few moduli => runCmd_answer h rfl ?_, fun p s h => runCmd_answer h rfl rfl,
    fun p s c h found => runCmd_answer h rfl ?_, fun p s v c st row h vintage cask staging adjusts digest => ?_⟩
  · have resident : (p.u8 3 != 0 || !(newCask p s).spilled) = true := by simpa using placed
    have right : (if p.u8 2 = 3 then badModulus (caskModuli p) else none) = none := by
      split
      · next residues => exact moduli.resolve_left (not_not.mpr residues)
      · rfl
    have bounded : s.casks.length < Config.maxCasks := few
    simp only [cmdCaskAlloc, need_true resident, need_true room, need_decide bounded, right, bind_ok]
    rfl
  · simp only [cmdCaskQuery, want_some found, bind_ok]
    rfl
  · refine runCmd_answer h rfl ?_
    simp only [cmdCaskAdjust, want_some vintage, want_some cask, want_some staging, want_some adjusts, digest,
      need_true (beq_self_eq_true _), bind_ok]
    rfl

/-- Settles O6. -/
theorem leesCommandsComplete : Obligations.LeesCommandsComplete := by
  refine ⟨fun p s v h found taken => runCmd_answer h rfl ?_, fun p s v h found taken => runCmd_answer h rfl ?_⟩
  · simp only [cmdLeesRack, want_some found, bind_ok, taken]
  · simp only [cmdLeesRetract, want_some found, bind_ok, taken]
    rfl

end Sys2Proof.Machine

/-! PROOFS. The masking commands complete (R197 to R206, R216 to R219): set-up, shares, and the three commands of a MASKER
Glove. -/

namespace Sys2Proof.Machine

set_option autoImplicit false

/-- A command whose last step is a write that succeeds. -/
theorem bind_eq_of_ok {ε α β : Type} {x : Except ε α} {a : α} (h : x = .ok a) (f : α → Except ε β) : (x >>= f) = f a := by
  rw [h, bind_ok]

theorem setupRoom_ok {p : Packet} {s : State} {v : Vintage} (found : vintageOf s p.ctx p.vintage = some v)
    (room : lpddrFits s p.ctx (maskLpddr v.clients (p.u8 1) (setupSealed p)) = true) : setupRoom p s = .ok () := by
  simp only [setupRoom, want_some found, bind_ok, need_true room]

/-- Settles O7. -/
theorem maskSetupCommandsComplete : Obligations.MaskSetupCommandsComplete := by
  refine ⟨fun p s v h plain found room => ?_, fun p s s1 s3 v key h sealed_ ready found room drawn written => ?_,
    fun p s s1 v m bytes h draft read right => runCmd_answer h rfl ?_,
    fun p s s1 v m bytes h draft read => runCmd_answer h rfl ?_⟩
  · have setup : setupRoom p s = .ok () := setupRoom_ok found (by rwa [plain])
    refine runCmd_answer h (by simp [cmdMaskSetup, plain]) ?_
    simp only [cmdMaskSetup, setup, want_some found, bind_ok, plain]
    rfl
  · have setup : setupRoom (drawnOf p) (takeBlocks s p.ctx 1) = .ok () := setupRoom_ok found (sealed_.symm ▸ room)
    have sealedD : setupSealed (drawnOf p) = true := sealed_
    have foundD : vintageOf (takeBlocks s p.ctx 1) (drawnOf p).ctx (drawnOf p).vintage = some v := found
    have draws : cmdMaskSetup.draw p s = some (1, 1) := by simp [cmdMaskSetup, sealed_]
    refine runCmd_draws_once h draws rfl ready ?_
    simp only [cmdMaskSetup, setup, want_some foundD, bind_ok, sealedD, drawn, if_true]
    exact bind_eq_of_ok written _
  · simp only [cmdGraphLoad, draft, read, bind_ok, right]
    rfl
  · simp only [cmdPubkeyLoad, draft, read, bind_ok]
    rfl

/-- A SHARE_SUBMIT reads its records from the packet or from a window (R204), then waits for a survivor exchange (R206) or
judges them. -/
theorem shareSubmit_body {p : Packet} {s s1 : State} {v : Vintage} {m : Masking} {bytes : List Byte}
    (found : vintageOf s p.ctx p.vintage = some v) (masked : v.masking = some m)
    (given : p.u8 0 = 0 ∧ bytes = p.bytes 16 (64 * p.u16 2) ∧ s1 = s ∨
      p.u8 0 ≠ 0 ∧ readWindow s p.ctx (p.u32 4) (p.u64 8) (64 * p.u16 2) = .ok (bytes, s1)) :
    cmdShareSubmit.body p s =
      if 1 < v.shardCount ∧ ¬ v.survivorsFixed ∧ ¬ (v.state = .draft ∨ v.state = .opened) ∧ v.c < p.stamp.count ∧
          p.stamp.count ≤ v.s then
        .ok (s1, .waits (.exchange p.ctx p.vintage))
      else .ok (closeLedger (judgeShares p s1 v m (pieces 64 bytes)).1 p.ctx p.vintage p.order,
        .answer (judgeShares p s1 v m (pieces 64 bytes)).2) := by
  obtain ⟨inline_, rfl, rfl⟩ | ⟨window, read⟩ := given
  · simp only [cmdShareSubmit, submitShares, want_some found, want_some masked, bind_ok, if_pos inline_]
  · simp only [cmdShareSubmit, submitShares, want_some found, want_some masked, bind_ok, if_neg window, read]

/-- Settles O8. -/
theorem ledgerCommandsComplete : Obligations.LedgerCommandsComplete := by
  refine ⟨fun p s s1 s2 v m a bytes h found masked given now judged _ => runCmd_answer h rfl ?_,
    fun p s s1 v m bytes h found masked given sharded waits notDraft notOpened above below => runCmd_waits h rfl ?_,
    fun p s v m h found masked whole => runCmd_answer h rfl ?_, fun p s v m h found masked one => runCmd_answer h rfl ?_⟩
  · rw [shareSubmit_body found masked given, if_neg, judged]
    simpa only [Bool.not_eq_true, not_or, and_assoc] using now
  · rw [shareSubmit_body found masked given, if_pos]
    simp [sharded, waits, notDraft, notOpened, above, below]
  · simp only [cmdLedgerQuery, want_some found, want_some masked, bind_ok, if_pos whole]
    rfl
  · simp only [cmdLedgerQuery, want_some found, want_some masked, bind_ok, if_neg one]
    rfl

/-- Settles O9. -/
theorem maskerCommandsComplete : Obligations.MaskerCommandsComplete := by
  refine ⟨fun p s s5 h ready written => runCmd_draws_once h rfl rfl ready ?_,
    fun p s s1 c self_ agree bytes h found own other read right => runCmd_answer h rfl ?_,
    fun p s s1 s3 k agree bytes h ready own other read right written => runCmd_draws_once h rfl rfl ready ?_⟩
  · exact bind_eq_of_ok written fun t => .ok (t, okWith)
  · simp only [cmdMaskApply, want_some found, own, other, read, bind_ok, right]
    rfl
  · simp only [cmdShareSplit, drawnOf_ctx, drawnOf_u16, drawnOf_u8, drawnOf_u32, drawnOf_u64, own, other, read, bind_ok, right]
    exact bind_eq_of_ok written fun t => .ok (t, okWith (neighbourList bytes).length)

end Sys2Proof.Machine

/-! PROOFS. The commands of parameter sets, key sets, evaluation keys and bindings complete (R245 to R262). -/

namespace Sys2Proof.Machine

set_option autoImplicit false

/-- Settles O10. -/
theorem latticeSetCommandsComplete : Obligations.LatticeSetCommandsComplete := by
  refine ⟨fun p s h fits => runCmd_answer h rfl ?_, fun p s h => runCmd_answer h rfl rfl,
    fun p s h room => runCmd_answer h rfl ?_,
    fun p s s1 s2 k set shape head body h key ofKey readHead shapeOk new count room zeroA zeroB readBody values full digest id =>
      runCmd_answer h rfl ?_,
    fun p s c set h found ofKeys room role => runCmd_answer h rfl ?_,
    fun p s c b set h found bound ofKeys => runCmd_answer h rfl ?_,
    fun p s s1 c h found written => runCmd_answer h rfl ?_⟩
  · simp only [cmdLatParamLoad, need_decide fits, bind_ok]
    rfl
  · simp only [cmdLatKeysetCreate, need_decide room, bind_ok]
    rfl
  · have zeros : (allZero (slice head 37 3) && allZero (slice head 44 20)) = true := by rw [zeroA, zeroB]; rfl
    have named : (slice head 0 32 == set.digest && field head 32 4 == k.id) = true := by simp [digest, id]
    simp only [cmdLatEvkLoad, want_some key, want_some ofKey, need_decide count, readHead, want_some shapeOk, bind_ok, new,
      Bool.not_false, need_true, room, zeros, readBody, values, full, named]
    rfl
  · have chosen : (c.role != 0 || ((vintageOf s p.ctx c.vintage).map (fun v => v.keySet == p.u32 4)).getD true) = true := by
      simpa only [Bool.or_eq_true, bne_iff_ne] using role
    simp only [cmdLatBind, want_some found, want_some ofKeys, need_true room, need_true chosen, bind_ok]
    rfl
  · simp only [cmdLatImport, want_some found, want_some bound, want_some ofKeys, bind_ok]
    rfl
  · simp only [cmdLatHdrRead, want_some found, bind_ok]
    exact bind_eq_of_ok written fun t => .ok (t, okWith)

end Sys2Proof.Machine

/-! PROOFS. The opcodes of the lattice engine complete (R249, R254, R265 to R289): all of them share one layout, whose checks
and work are stated once. -/

namespace Sys2Proof.Machine

set_option autoImplicit false

/-- Steps 7 and 8 of an opcode pass for operands that fit, are not spilled and belong to the key set (R254, R260, R291). -/
theorem latChecks_of_operands {o : LatOp} {p : Packet} {s : State} {d a b : Cask} {k : KeySet} {set : ParamSet} {plan : List (Nat × Nat)}
    (casks : latCasks o p s = .ok (d, a, b)) (key : keySetOf s p.ctx (latKeys p) = some k)
    (ofKey : paramSetOf s p.ctx k.set = some set) (here : latSpilled o p s d a b = false)
    (room : o.waves = false ∨ o.scratch set (if o.aPlain then d.limbs else a.limbs) ≤ latGranules p s)
    (refresh : mightRefresh o p s = false ∨ refreshScratch set ≤ latGranules p s)
    (own : latForeign o p set d a b = false) (planned : latPlan o p s k set d a b = .ok plan) :
    latChecks o p s = .ok ((d, a, b), set, plan) := by
  have scratch : (!o.waves || decide (o.scratch set (if o.aPlain then d.limbs else a.limbs) ≤ latGranules p s)) = true := by
    simpa only [Bool.or_eq_true, Bool.not_eq_true', decide_eq_true_eq] using room
  have inserted : (!mightRefresh o p s || decide (refreshScratch set ≤ latGranules p s)) = true := by
    simpa only [Bool.or_eq_true, Bool.not_eq_true', decide_eq_true_eq] using refresh
  simp only [latChecks, casks, want_some key, want_some ofKey, here, own, Bool.not_false, need_true, scratch, inserted, planned,
    bind_ok]

/-- The body of an opcode whose checks pass and whose tile has no fault. -/
theorem latBody_of_checks {o : LatOp} {p : Packet} {s : State} {d a b : Cask} {set : ParamSet} {plan : List (Nat × Nat)}
    (checks : latChecks o p s = .ok ((d, a, b), set, plan)) (sound : s.int.faulted.contains (p.ctx, d.id) = false) :
    latBody o p s = .ok ((latEffect o p s set d a b plan).1, .answer (latEffect o p s set d a b plan).2) := by
  simp only [latBody, checks, bind_ok, latWork, sound, Bool.false_eq_true, if_false]

/-- The opcodes of the 48-byte layout that draw nothing. -/
def layoutOpcodes : List ((Packet → Instr) × LatOp) :=
  [(Instr.latAdd, latAdd), (Instr.latSub, latSub), (Instr.latMulConst, latMulConst), (Instr.latMulPlain, latMulPlain),
   (Instr.latMul, latMul), (Instr.latRotate, latRotate), (Instr.latRescale, latRescale), (Instr.latLevelDrop, latLevelDrop),
   (Instr.latForm, latForm_), (Instr.refreshPacked, refreshPackedOp), (Instr.refreshLwe, refreshLweOp),
   (Instr.schemeSwitch, schemeSwitchOp)]

/-- Each of them runs as a command of the layout. -/
theorem exec_layoutOpcode : ∀ x ∈ layoutOpcodes, ∀ (p : Packet) (s : State), exec (x.1 p) s = runCmd (latCmd x.2) p s := by
  simp only [layoutOpcodes, List.forall_mem_cons, List.not_mem_nil, false_imp_iff, implies_true, and_true]
  exact ⟨fun _ _ => rfl, fun _ _ => rfl, fun _ _ => rfl, fun _ _ => rfl, fun _ _ => rfl, fun _ _ => rfl, fun _ _ => rfl,
    fun _ _ => rfl, fun _ _ => rfl, fun _ _ => rfl, fun _ _ => rfl, fun _ _ => rfl⟩

/-- No refresh is inserted into LAT_ENCRYPT_PK: it takes plaintexts alone. -/
theorem mightRefresh_latEncryptPk (p : Packet) (s : State) : mightRefresh latEncryptPk p s = false := by
  simp [mightRefresh, latEncryptPk]

/-- Settles O11. -/
theorem latticeOpcodesComplete : Obligations.LatticeOpcodesComplete := by
  refine ⟨fun x listed p s d a b k set plan h casks key ofKey here room refresh own planned sound => ?_,
    fun p s d a b k set plan h ready given => ?_⟩
  · rw [exec_layoutOpcode x listed]
    exact runCmd_answer h rfl (latBody_of_checks (latChecks_of_operands casks key ofKey here room refresh own planned) sound)
  · obtain ⟨casks, key, ofKey, here, room, own, planned, sound⟩ := given
    have checks := latChecks_of_operands casks key ofKey here (Or.inr room) (Or.inl (mightRefresh_latEncryptPk _ _)) own planned
    exact runCmd_draws_once h rfl rfl ready (latBody_of_checks (p := drawnOf p) checks sound)

/-- Settles O12. -/
theorem refreshCommandsComplete : Obligations.RefreshCommandsComplete := by
  refine ⟨fun p s set h ofKeys => runCmd_answer h rfl ?_,
    fun p s s1 r q bytes h part room read inRange => runCmd_answer h rfl ?_,
    fun p s h => runCmd_answer h rfl rfl⟩
  · simp only [cmdRefreshSetup, want_some ofKeys, bind_ok]
    rfl
  · have noneWrong : (if p.u8 5 = 0 then posOf (fun x : Int => decide (x < 0 ∨ ((2 ^ p.u8 6 : Nat) : Int) ≤ x))
        ((pieces 4 bytes).map (fun e => signed 32 (leNat e))) else none) = none :=
      ite_eq_right_iff.mpr fun lwe => inRange.resolve_left (not_not_intro lwe)
    simp only [cmdLutLoad, want_some part, need_decide room, read, bind_ok, noneWrong]
    rfl

end Sys2Proof.Machine

/-! PROOFS. The commands of the threshold key share complete (R292 to R297). -/

namespace Sys2Proof.Machine

set_option autoImplicit false

/-- A part of a Glove other than its blocks is the same after a draw. -/
theorem gloveOf_takeBlocks_keeps {α : Type} (part : Glove → α) (keeps : ∀ x n, part { x with blocks := n } = part x)
    (s : State) (ctx n g : Nat) : part (gloveOf (takeBlocks s ctx n) g) = part (gloveOf s g) := by
  unfold takeBlocks
  split
  · exact gloveOf_setGlove_keeps part (fun x => keeps x _) s ctx g
  · rfl

theorem setOfKeys_takeBlocks (s : State) (ctx n g ks : Nat) : setOfKeys (takeBlocks s ctx n) g ks = setOfKeys s g ks := by
  simp only [setOfKeys, keySetOf, paramSetOf, gloveOf_takeBlocks_keeps Glove.keySets fun _ _ => rfl,
    gloveOf_takeBlocks_keeps Glove.params fun _ _ => rfl]

/-- An admitted command that draws once, and whose body refuses it: the entropy is spent. -/
theorem runCmd_draws_once_refuses {c : Cmd} {p : Packet} {s : State} {rank n : Nat} {r : Refused} (h : Admitted c p s)
    (draws : c.draw p s = some (rank, n)) (once : c.later p s = 0) (ready : DrawReady c p s n)
    (refuses : c.body (drawnOf p) (takeBlocks s p.ctx n) = .error r) :
    runCmd c p s = .next (refuse (c.spent (drawnOf p) (takeBlocks s p.ctx n)) (drawnOf p) r) := by
  have all : n + c.later p s = n := by rw [once, Nat.add_zero]
  simpa only [all] using runCmd_draw_refuses h draws (all.symm ▸ ready) (all.symm ▸ refuses)

/-- The checks of a partial decryption pass for ciphertexts that may be decrypted, each within its Vintage's allowance and
its noise budget (R294 to R296). -/
theorem thrChecks_of_headers {p : Packet} {s : State} {c : Cask} {set : ParamSet} {share : ThrShare} {hs : List CtHeader}
    (cask : thrCask p s = some c) (ofKeys : setOfKeys s p.ctx (p.u32 12) = some set) (held : thrShare p s = some share)
    (headers : hs = thrHeaders p s) (here : c.spilled = false)
    (own : hs.all (fun h => h.keySet == p.u32 12 && h.digest == set.digest) = true)
    (sums : (List.range (p.u32 8)).find? (fun i => aggregateDetail s p.ctx (hs.getD i default) != 0) = none)
    (allowed : allowanceShort p s hs = none)
    (fits : hs.all (fun h => fitsBudget set c.limbs h.scale (h.noise + 256 * share.margin)) = true) :
    thrChecks p s = .ok (c, set, share) := by
  subst headers
  simp only [thrChecks, thrParts, want_some cask, want_some ofKeys, want_some held, bind_ok, here, Bool.not_false, need_true,
    own, sums, allowed, fits]

/-- A partial decryption whose checks pass writes its flooded partials and charges the allowances. -/
theorem thrPartial_body {p : Packet} {s s4 : State} {c : Cask} {set : ParamSet} {share : ThrShare}
    (checks : thrChecks p s = .ok (c, set, share)) (sound : s.int.faulted.contains (p.ctx, p.u16 0) = false)
    (written :
      let r := resplitShare s set share
      let out := floodedPartials p s set r.1 c (thrHeaders p s)
        (setKeySet r.2 p.ctx (p.u32 12) (fun k => { k with share := some (if share.evicted then evictShare r.1 else r.1) }))
      writeWindow out.2 p.ctx (p.u32 16) (p.u64 24) out.1 = .ok s4) :
    cmdThrPartial.body p s =
      let s5 := (thrHeaders p s).foldl (fun s h => chargeAllowance s p.ctx h.vintage 1) s4
      let last := (thrHeaders p s).getD (p.u32 8 - 1) default
      .ok (s5, okWith (p.u32 8) (((kept s5 p.ctx last.vintage).map Prod.snd).getD 0) (floodWidth last share.margin)) := by
  simp only [cmdThrPartial, checks, bind_ok, thrWork, sound]
  exact bind_eq_of_ok written _

/-- Settles O13. -/
theorem thresholdCommandsComplete : Obligations.ThresholdCommandsComplete := by
  refine ⟨fun p s s1 n set slot blob h blocks ready ofKeys serving room read => ?_,
    fun p s s0 s4 n c set share hs h blocks ready taken cask ofKeys held headers here own sums allowed fits sound written => ?_⟩
  · have draws : cmdThrShareLoad.draw p s = some (1, n) := by rw [blocks]; rfl
    cases unwrapped : Crypto.kwUnwrap (slotKey slot) blob with
    | none =>
      refine runCmd_draws_once_refuses (r := { answer := { status := .shareUnwrap } }) h draws rfl ready ?_
      simp only [cmdThrShareLoad, drawnOf_ctx, drawnOf_u16, drawnOf_u32, drawnOf_u64, want_some ofKeys, serving,
        bind_ok, need_true room, read, want_none unwrapped]
      rfl
    | some plain =>
      by_cases named : slice plain 0 32 = set.digest ∧ field plain 32 4 = p.u32 0
      · have own : (slice plain 0 32 == set.digest && field plain 32 4 == p.u32 0) = true := by simp [named]
        simp only [if_pos named]
        refine runCmd_draws_once h draws rfl ready ?_
        simp only [cmdThrShareLoad, drawnOf_ctx, drawnOf_u8, drawnOf_u16, drawnOf_u32, drawnOf_u64, want_some ofKeys, serving,
          bind_ok, need_true room, read, want_some unwrapped, need_true own]
        rfl
      · have other : (slice plain 0 32 == set.digest && field plain 32 4 == p.u32 0) = false := by
          simpa only [Bool.and_eq_false_iff, beq_eq_false_iff_ne, ← not_and_or] using named
        simp only [if_neg named]
        refine runCmd_draws_once_refuses (r := { answer := { status := .keyMismatch } }) h draws rfl ready ?_
        simp only [cmdThrShareLoad, drawnOf_ctx, drawnOf_u16, drawnOf_u32, drawnOf_u64, want_some ofKeys,
          serving, bind_ok, need_true room, read, want_some unwrapped, need_false other]
        rfl
  · have set0 : setOfKeys s p.ctx (p.u32 12) = some set := by rw [← ofKeys, taken, setOfKeys_takeBlocks]
    have draws : cmdThrPartial.draw p s = some (1, blocksFor (8 * set.limbs * 2 ^ set.log2N)) := by
      simp only [cmdThrPartial, set0, Option.map_some]
    have total : n = blocksFor (8 * set.limbs * 2 ^ set.log2N) + cmdThrPartial.later p s := by
      rw [blocks, set0]; rfl
    have checks := thrChecks_of_headers cask ofKeys held headers here own sums allowed fits
    subst headers taken
    exact runCmd_draw_answer h draws (total ▸ ready) (total ▸ thrPartial_body (p := drawnOf p) checks sound written)

end Sys2Proof.Machine

/-! PROOFS. A release, the recipes and the windows: their commands and events complete (R132, R135 to R137, R300, R314). -/

namespace Sys2Proof.Machine

set_option autoImplicit false

/-- The sums of a release that its noise budget might not hold: none where the Vintage is masked or takes no noise, or where
every one fits (R300). -/
theorem releaseSums_fit {s : State} {p : Packet} {v : Vintage}
    (fits : v.encrypted = false ∨ v.noise = false ∨ (sumCiphertexts s p.ctx v.id).all (fun x =>
      fitsBudget ((setOfKeys s p.ctx v.keySet).getD default) x.1.limbs x.2.2.scale
        (outputNoise v ((setOfKeys s p.ctx v.keySet).getD default) x.2.2)) = true) :
    (if v.encrypted && v.noise then sumCiphertexts s p.ctx v.id else []).find? (fun x =>
      !fitsBudget ((setOfKeys s p.ctx v.keySet).getD default) x.1.limbs x.2.2.scale
        (outputNoise v ((setOfKeys s p.ctx v.keySet).getD default) x.2.2)) = none := by
  obtain masked | plain | all := fits
  · simp [masked]
  · simp [plain]
  · rw [List.find?_eq_none]
    intro x member
    split at member
    · simpa using List.all_eq_true.mp all x member
    · exact absurd member (List.not_mem_nil)

/-- Settles O14. -/
theorem releaseAndRecipeCommandsComplete : Obligations.ReleaseAndRecipeCommandsComplete := by
  refine ⟨fun p s v keys h first found exports fits => runCmd_ends h rfl ?_,
    fun g vid s v o r found waiting release stage ready active => ?_,
    fun g vid s v o r found waiting release stage free => ?_,
    fun p s h steps inRange => runCmd_answer h rfl ?_, fun p s h => runCmd_answer h rfl rfl⟩
  · simp only [cmdVintageRelease, want_some found, bind_ok, first, Bool.false_eq_true, if_false, want_some exports,
      releaseSums_fit fits]
  · show execReleaseCommit g vid s = _
    simp only [execReleaseCommit, found, waiting, release, if_pos (And.intro stage (And.intro ready active))]
  · show execReleaseComplete g vid s = _
    simp only [execReleaseComplete, found, waiting, release, stage, free, Bool.false_eq_true, not_false_eq_true, and_self,
      if_true]
  · simp only [cmdRecipeLoad, steps, inRange]
    rfl

/-- Settles O15. -/
theorem windowCommandsComplete : Obligations.WindowCommandsComplete := by
  refine ⟨fun p s i h free => runCmd_answer h rfl ?_, fun p s h => exec_windowRevoke h,
    fun p s w h found => runCmd_answer h rfl ?_⟩
  · simp only [cmdWindowCreate, want_some free, bind_ok]
    rfl
  · simp only [cmdWindowQuery, want_some found, bind_ok]
    rfl

end Sys2Proof.Machine

/-! PROOFS. The commands of connections, of the Trellis and of the Gloves complete (R119, R120, R142, R150, R154, R155, R325 to
R344). -/

namespace Sys2Proof.Machine

set_option autoImplicit false

/-- Settles O16. -/
theorem connectionCommandsComplete : Obligations.ConnectionCommandsComplete := by
  refine ⟨fun p s h room pins store => runCmd_answer h rfl ?_, fun p s c h found error => runCmd_answer h rfl ?_,
    fun p s c h found live => runCmd_ends h rfl ?_, fun p s c h found => runCmd_answer h rfl ?_,
    fun p s h => runCmd_answer h rfl rfl, fun p s c h found => runCmd_answer h rfl ?_⟩
  · have few : s.conns.length < Config.maxConns := room
    simp only [cmdConnCreate, need_decide few, need_true pins, need_true store, bind_ok]
    rfl
  · simp only [cmdConnDestroy, want_some found, bind_ok, if_pos error]
    rfl
  · simp only [cmdConnDestroy, want_some found, bind_ok, if_neg live]
  · simp only [cmdConnQuery, want_some found, bind_ok]
    rfl
  · simp only [cmdFaultInject, want_some found, bind_ok]
    rfl

/-- Settles O17. -/
theorem trellisCommandsComplete : Obligations.TrellisCommandsComplete :=
  ⟨fun _ _ h => runCmd_waits h rfl rfl, fun _ _ h => runCmd_answer h rfl rfl, fun _ _ h => runCmd_answer h rfl rfl⟩

/-- Settles O18. -/
theorem gloveCommandsComplete : Obligations.GloveCommandsComplete := by
  refine ⟨fun p s h ready enough => runCmd_draws_once h rfl rfl ready ?_, fun p s h => runCmd_waits h rfl rfl,
    fun p s h => runCmd_waits h rfl rfl, fun p s h => runCmd_answer h rfl rfl,
    fun p s s1 h given => runCmd_answer h rfl ?_⟩
  · have room : assignRoom (drawnOf p) (takeBlocks s p.ctx 1) = .ok () := by
      simp only [assignRoom]
      rw [show assignLack (heldCfgs (takeBlocks s p.ctx 1)) (cfgOf (drawnOf p) 0) = none from enough]
    simp only [cmdGloveAssign, room, bind_ok]
    rfl
  · obtain ⟨noWindow, rfl⟩ | ⟨window, written⟩ := given
    · simp only [cmdGloveQuery, if_pos noWindow, bind_ok]
      rfl
    · simp only [cmdGloveQuery, if_neg window]
      exact bind_eq_of_ok written _

end Sys2Proof.Machine

/-! PROOFS. Owner keys, and the loading, creating and evicting of keys complete (R405 to R413). -/

namespace Sys2Proof.Machine

set_option autoImplicit false

/-- A command whose last checks before its draw fail is refused with nothing drawn (R270). -/
theorem runCmd_ready_refuses {c : Cmd} {p : Packet} {s : State} {rank n : Nat} {r : Refused} (h : Admitted c p s)
    (first : p.drawn = false) (draws : c.draw p s = some (rank, n)) (unready : c.ready p s = .error r) :
    runCmd c p s = .next (refuse s p r) := by
  rw [runCmd, dispatch_of_admitted h, start]
  simp only [first, Bool.false_eq_true, if_false, draws, unready]

@[simp] theorem takeBlocks_keys (s : State) (ctx n : Nat) : (takeBlocks s ctx n).keys = s.keys := by
  unfold takeBlocks
  split <;> rfl

@[simp] theorem takeBlocks_fw (s : State) (ctx n : Nat) : (takeBlocks s ctx n).fw = s.fw := by
  unfold takeBlocks
  split <;> rfl

@[simp] theorem lifeRoot_takeBlocks (s : State) (ctx n : Nat) : lifeRoot (takeBlocks s ctx n) = lifeRoot s := by
  simp only [lifeRoot, takeBlocks_keys, takeBlocks_fw]

@[simp] theorem productionRoot_takeBlocks (s : State) (ctx n : Nat) : productionRoot (takeBlocks s ctx n) = productionRoot s := by
  simp only [productionRoot, takeBlocks_fw]

theorem contextBase_takeBlocks (s : State) (ctx n g : Nat) : contextBase (takeBlocks s ctx n) g = contextBase s g := by
  simp only [contextBase, tenantRootInUse, productionRoot_takeBlocks, lifeRoot_takeBlocks, takeBlocks_keys,
    gloveOf_takeBlocks_keeps Glove.owner fun _ _ => rfl]

theorem wrapKey_takeBlocks (s : State) (ctx n g parent : Nat) : wrapKey (takeBlocks s ctx n) g parent = wrapKey s g parent := by
  simp only [wrapKey, contextBase_takeBlocks, slotById, contextSlots, takeBlocks_keys]

/-- Opening a blob takes nothing from what is drawn. -/
theorem openBlob_takeBlocks (p : Packet) (s : State) (ctx n : Nat) : openBlob (drawnOf p) (takeBlocks s ctx n) = openBlob p s := by
  simp only [openBlob, wrapKey_takeBlocks, takeBlocks_keys, takeBlocks_fw]
  rfl

/-- How a blob opens: the wrapping is authentic, and the key may be loaded in this epoch, for the first time, with room in
the spent list where it is COUNTED (R408, R409). -/
theorem openBlob_eq (p : Packet) (s : State) :
    openBlob p s = match Crypto.kwUnwrap (wrapKey s p.ctx (field (blobOf p) 12 4)) ((blobOf p).drop 32) with
      | none => fail .blobAuth
      | some plain =>
        if plain.take 32 ≠ (blobOf p).take 32 then fail .blobAuth
        else if field (blobOf p) 17 1 = 2 ∧ field (blobOf p) 20 4 ≠ s.fw.epoch then fail .keyExpired
        else if field (blobOf p) 17 1 = 1 ∧ s.keys.spent.contains (spentEntry ((blobOf p).drop 32)) = true then fail .keyExpired
        else if field (blobOf p) 17 1 = 1 ∧ Config.spentEntries ≤ s.keys.spent.length then fail .noResource
        else .ok plain := by
  cases unwrapped : Crypto.kwUnwrap (wrapKey s p.ctx (field (blobOf p) 12 4)) ((blobOf p).drop 32) with
  | none => simp only [openBlob, want_none unwrapped, bind_fail]
  | some plain =>
    simp only [openBlob, want_some unwrapped, bind_ok]
    split
    · next other => rw [need_false (by simpa using other), bind_fail]
    · next same =>
      rw [need_true (by simpa using same), bind_ok]
      split
      · next old => rw [need_false (by simpa using old), bind_fail]
      · next now =>
        rw [need_true (by simpa [← imp_iff_not_or] using now), bind_ok]
        split
        · next spent => rw [need_false (by simpa using spent), bind_fail]
        · next unspent =>
          rw [need_true (by simpa [← imp_iff_not_or] using unspent), bind_ok]
          split
          · next full => rw [need_false (by simpa using full), bind_fail]
          · next room => rw [need_true (by simpa [← imp_iff_not_or] using room), bind_ok]

/-- A KEY_LOAD whose blob does not open is refused before it draws. -/
theorem exec_keyLoad_refused {p : Packet} {s : State} {st : Status} (h : Admitted cmdKeyLoad p s) (first : p.drawn = false)
    (closed : openBlob p s = fail st) : exec (.keyLoad p) s = .next (reply s p { status := st }) := by
  refine runCmd_ready_refuses (r := { answer := { status := st } }) h first rfl ?_
  simp only [cmdKeyLoad, closed]
  rfl

/-- KEY_CREATE puts the key into its slot, and writes and notes its blob where WRAP_OUT asks for it. -/
theorem kcStore_ok {p : Packet} {s s3 : State} {key : List Byte}
    (stored :
      let s2 := loadSlot s {
        slot := p.u16 0, owner := p.ctx, state := .loaded, keyId := p.u32 4, parent := p.u32 8
        chain := chainUnder s p.ctx (p.u32 8), usage := p.u16 12, kind := p.u8 3, lifetime := p.u8 14, left := p.u32 16, share0 := [], share1 := [] } key
      kcWrapOut p = false ∧ s3 = s2 ∨ kcWrapOut p = true ∧ writeWindow s2 p.ctx (p.u32 20) (p.u64 24)
        (kcHeader p s ++ Crypto.kwWrap (wrapKey s p.ctx (p.u32 8)) (kcHeader p s ++ key)) = .ok s3) :
    kcStore p s key =
      let s4 := if kcSpends p then addSpent s3 (Crypto.kwWrap (wrapKey s p.ctx (p.u32 8)) (kcHeader p s ++ key)) else s3
      .ok (if p.u8 2 = 1 then ((slotById s p.ctx (p.u32 8)).map (fun q => chargeSlot s4 q.slot)).getD s4 else s4) := by
  obtain ⟨kept, rfl⟩ | ⟨out, written⟩ := stored
  · simp only [kcStore, kept, Bool.false_eq_true, if_false, bind_ok]
  · simp only [kcStore, out, if_true]
    exact bind_eq_of_ok written _

/-- Settles O19. -/
theorem keyLoadCommandsComplete : Obligations.KeyLoadCommandsComplete := by
  refine ⟨fun p s h => ?_, fun p s b h blob first sound blocks => ?_,
    fun p s s0 s1 s3 n key h blocks ready taken room made stored => ?_, fun p s h => runCmd_answer h rfl rfl⟩
  · cases unwrapped : Crypto.kwUnwrap (importKey s p.ctx) (p.bytes 0 40) with
    | none => 
      refine runCmd_refuses (r := { answer := { status := .blobAuth } }) h rfl ?_
      simp only [cmdKeyOwnerSet, want_none unwrapped]
      rfl
    | some secret =>
      refine runCmd_answer h rfl ?_
      simp only [cmdKeyOwnerSet, want_some unwrapped, bind_ok]
      rfl
  · subst blob
    have opened := openBlob_eq p s
    simp only
    split
    · next unwrapped =>
      simp only [unwrapped] at opened
      exact exec_keyLoad_refused h first opened
    · next plain unwrapped =>
      simp only [unwrapped] at opened
      split
      · next other => exact exec_keyLoad_refused h first (opened.trans (if_pos other))
      · next same =>
        rw [if_neg same] at opened
        split
        · next old => exact exec_keyLoad_refused h first (opened.trans (if_pos old))
        · next now =>
          rw [if_neg now] at opened
          split
          · next spent => exact exec_keyLoad_refused h first (opened.trans (if_pos spent))
          · next unspent =>
            rw [if_neg unspent] at opened
            split
            · next full => exact exec_keyLoad_refused h first (opened.trans (if_pos full))
            · next room =>
              replace opened := opened.trans (if_neg room)
              have ready : readyToDraw cmdKeyLoad p s = true := by simp [readyToDraw, cmdKeyLoad, opened, Except.map]
              refine runCmd_draws_once h rfl rfl ⟨first, ready, sound, blocks⟩ ?_
              simp only [cmdKeyLoad, openBlob_takeBlocks, opened, bind_ok]
              rfl
  · have draws : cmdKeyCreate.draw p s = some (1, n) := by rw [blocks]; rfl
    subst taken
    have spentOk : spentRoom p (takeBlocks s p.ctx n) = .ok () := by
      have few : kcSpends p = false ∨ (takeBlocks s p.ctx n).keys.spent.length < Config.spentEntries := room
      exact need_true (by simpa only [Bool.or_eq_true, Bool.not_eq_true', decide_eq_true_eq] using few)
    have spentOkD : spentRoom (drawnOf p) (takeBlocks s p.ctx n) = .ok () := spentOk
    have madeD : kcKey (drawnOf p) (takeBlocks s p.ctx n) = .ok (some key, s1) := made
    refine runCmd_draws_once h draws rfl ready ?_
    simp only [cmdKeyCreate, spentOkD, bind_ok, madeD]
    exact bind_eq_of_ok (kcStore_ok (p := drawnOf p) stored) _

end Sys2Proof.Machine

/-! PROOFS. Key policy, attestation and the life cycle, and firmware: their commands complete (R414 to R419, R423 to R439). -/

namespace Sys2Proof.Machine

set_option autoImplicit false

/-- Settles O20. -/
theorem keyPolicyCommandsComplete : Obligations.KeyPolicyCommandsComplete := by
  refine ⟨fun p s s1 h room listed => ?_, fun p s h whole => runCmd_answer h rfl ?_,
    fun p s h one => runCmd_answer h rfl ?_, fun p s h => runCmd_answer h rfl ?_⟩
  · have few : (revokedOf s p.ctx).length < Config.revocationEntries := room
    subst listed
    simp only
    split
    · next live =>
      refine runCmd_answer h rfl ?_
      simp only [cmdKeyInvalidate, need_decide few, bind_ok, if_pos live]
      rfl
    · next idle =>
      refine runCmd_answer h rfl ?_
      simp only [cmdKeyInvalidate, need_decide few, bind_ok, if_neg idle]
      rfl
  · simp only [cmdKeyQuery, if_pos whole]
    rfl
  · simp only [cmdKeyQuery, if_neg one]
    cases keySlotOf s (p.u16 0) <;> rfl
  · by_cases passed : p.u8 0 = 0 ∧ p.u64 8 < (gloveOf s p.ctx).phase.word.count
    · simp only [cmdKeyRotateSet, passed, and_self, decide_true, if_true]
      rfl
    · simp only [cmdKeyRotateSet, decide_eq_true_eq, if_neg passed]
      rfl

/-- An admitted command that draws once ends as its body says. -/
theorem runCmd_draws_once_ends {c : Cmd} {p : Packet} {s t : State} {rank n : Nat} {d : Done} (h : Admitted c p s)
    (draws : c.draw p s = some (rank, n)) (once : c.later p s = 0) (ready : DrawReady c p s n)
    (body : c.body (drawnOf p) (takeBlocks s p.ctx n) = .ok (t, d)) : runCmd c p s = .next (finish c t (drawnOf p) d) := by
  have all : n + c.later p s = n := by rw [once, Nat.add_zero]
  rw [runCmd, dispatch_of_admitted h, start_of_draw draws (all.symm ▸ ready), all, runBody, body]

/-- The store takes one free value, which says whether it works. -/
theorem storeWorks_eq (s : State) : storeWorks s = (Config.storeWorks s.free, { s with free := s.free + 1 }) := rfl

/-- Settles O21. -/
theorem attestationCommandsComplete : Obligations.AttestationCommandsComplete := by
  refine ⟨fun p s s1 h written => runCmd_answer h rfl (bind_eq_of_ok written _),
    fun p s s1 h written => runCmd_answer h rfl (bind_eq_of_ok written _),
    fun p s s1 bytes h read => ?_, fun p s h ready => ?_, fun p s s1 bytes h given => ?_⟩
  · cases wrong : endorsementError s1 { body := bytes.take 96, signature := bytes.drop 96 } with
    | some d =>
      refine runCmd_refuses (r := { answer := { status := .imageAuth, detail := d } }) h rfl ?_
      simp only [cmdEndorseLoad, read, bind_ok, wrong]
      rfl
    | none =>
      cases works : Config.storeWorks s1.free with
      | true =>
        refine runCmd_answer h rfl ?_
        simp only [cmdEndorseLoad, read, bind_ok, wrong, storeWorks_eq, works, if_true]
        rfl
      | false =>
        refine runCmd_answer h rfl ?_
        simp only [cmdEndorseLoad, read, bind_ok, wrong, storeWorks_eq, works]
        rfl
  · have draws : cmdLcTransition.draw p s = some (1, if p.u8 0 = 2 then 2 else 1) := rfl
    generalize (if p.u8 0 = 2 then 2 else 1) = n at draws ready ⊢
    simp only
    split
    · next works =>
      show exec _ s = .next (finish cmdLcTransition (fullReset _) (drawnOf p) .silent)
      refine runCmd_draws_once_ends h draws rfl ready ?_
      simp only [cmdLcTransition, drawnOf_u8, storeWorks_eq, works, if_true]
    · next faulted =>
      refine runCmd_draws_once_ends (d := .answer { status := .storeFault }) h draws rfl ready ?_
      simp only [cmdLcTransition, storeWorks_eq, faulted]
      rfl
  · have body : cmdDebugSet.body p s = if Config.storeWorks s1.free then
        .ok (setFw { s1 with free := s1.free + 1 } (fun f => { f with debugPending := p.u8 0 == 1 }), okWith)
      else .ok ({ s1 with free := s1.free + 1 }, .answer { status := .storeFault }) := by
      obtain ⟨bare, rfl⟩ | ⟨needed, read, right⟩ := given
      · simp only [cmdDebugSet, bare, Bool.false_eq_true, if_false, bind_ok, storeWorks_eq]
        rfl
      · simp only [cmdDebugSet, needed, if_true, read, bind_ok, right, storeWorks_eq]
        rfl
    exact runCmd_branches h rfl body

/-- A fault of the store ends FW_STAGE and leaves the slots as they were. -/
theorem exec_fwStage_faulted {p : Packet} {s : State} (h : Admitted cmdFwStage p s) (faulted : ¬ Config.storeWorks s.free) :
    exec (.fwStage p) s = .next (reply { s with free := s.free + 1 } p { status := .storeFault }) := by
  refine runCmd_answer h rfl ?_
  simp only [cmdFwStage, storeWorks_eq, faulted]
  rfl

/-- Settles O22. -/
theorem firmwareCommandsComplete : Obligations.FirmwareCommandsComplete := by
  refine ⟨fun p s h erase => ?_, fun p s s2 bytes h write given => ?_, fun p s h check => ?_, fun p s h fresh => ?_,
    fun p s h => runCmd_answer h rfl rfl⟩
  · split
    · next works =>
      refine runCmd_answer h rfl ?_
      simp only [cmdFwStage, storeWorks_eq, works, not_true_eq_false, if_false, erase]
      rfl
    · next faulted => exact exec_fwStage_faulted h faulted
  · split
    · next works =>
      refine runCmd_answer h rfl ?_
      obtain ⟨inline_, rfl, rfl⟩ | ⟨window, read⟩ := given
      · simp only [cmdFwStage, storeWorks_eq, works, not_true_eq_false, if_false, write, if_pos inline_, bind_ok]
        rfl
      · simp only [cmdFwStage, storeWorks_eq, works, not_true_eq_false, if_false, write, window, Bool.false_eq_true]
        exact bind_eq_of_ok read _
    · next faulted => exact exec_fwStage_faulted h faulted
  · simp only
    split
    · next works =>
      split
      · next st detail wrong =>
        refine runCmd_answer h rfl ?_
        simp only [cmdFwStage, storeWorks_eq, works, not_true_eq_false, if_false, check, wrong]
      · next right =>
        refine runCmd_answer h rfl ?_
        simp only [cmdFwStage, storeWorks_eq, works, not_true_eq_false, if_false, check, right]
        rfl
    · next faulted => exact exec_fwStage_faulted h faulted
  · have newer : (p.u8 0 != 0 || decide (s.fw.rollback ≤ securityVersion (fwSlot s.fw (p.u8 1)))) = true := by
      simpa only [Bool.or_eq_true, bne_iff_ne, decide_eq_true_eq] using fresh
    simp only
    split
    · next works =>
      split
      · next select =>
        rw [select] at newer
        refine runCmd_answer h rfl ?_
        simp only [cmdFwSelect, need_true newer, bind_ok, storeWorks_eq, works, not_true_eq_false, if_false, select]
        rfl
      · next confirm =>
        refine runCmd_answer h rfl ?_
        simp only [cmdFwSelect, storeWorks_eq, works, not_true_eq_false, if_false, confirm]
        rfl
      · next select confirm =>
        refine runCmd_answer h rfl ?_
        simp only [cmdFwSelect, need_true newer, bind_ok, storeWorks_eq, works, not_true_eq_false, if_false]
        rfl
    · next faulted =>
      refine runCmd_answer h rfl ?_
      simp only [cmdFwSelect, need_true newer, bind_ok, storeWorks_eq, faulted]
      rfl

end Sys2Proof.Machine

/-! PROOFS. The commands of entropy, integrity, phase and the module complete (R55 to R67, R385 to R393, R452 to R463, R492 to
R501). -/

namespace Sys2Proof.Machine

set_option autoImplicit false

/-- Settles O23. -/
theorem entropyCommandsComplete : Obligations.EntropyCommandsComplete := by
  refine ⟨fun p s s2 h share ready shareD written => ?_, fun p s h => runCmd_answer h rfl ?_,
    fun p s h test => runCmd_answer h rfl ?_, fun p s h retest => runCmd_answer h rfl ?_,
    fun p s s2 h written => runCmd_answer h rfl ?_⟩
  · have draws : cmdEntRead.draw p s = some (5, blocksFor (p.u32 4)) := by simp [cmdEntRead, share]
    refine runCmd_draws_once h draws rfl ready ?_
    simp only [cmdEntRead, drawnOf_ctx, drawnOf_u32, drawnOf_u64, shareD, Bool.not_false, need_true, bind_ok]
    exact bind_eq_of_ok written _
  · by_cases whole : p.ctx = vintner
    · simp only [cmdEntStatus, if_pos whole]
      rfl
    · simp only [cmdEntStatus, if_neg whole]
      rfl
  · simp only [cmdEntSourceCtrl, if_pos test]
    rfl
  · simp only [cmdEntSourceCtrl, if_neg retest]
  · exact bind_eq_of_ok written _

/-- Settles O24. -/
theorem integrityCommandsComplete : Obligations.IntegrityCommandsComplete := by
  refine ⟨fun p s h => ?_, fun p s h => runCmd_branches h rfl rfl, fun p s h side => runCmd_answer h rfl ?_,
    fun p s s1 h host written => runCmd_answer h rfl ?_, fun p s h => ?_⟩
  · simp only
    split
    · next verified =>
      split
      · next start =>
        refine runCmd_answer h rfl ?_
        simp only [cmdIntVatCtrl, verified, if_true, start]
        rfl
      · next test =>
        refine runCmd_answer h rfl ?_
        simp only [cmdIntVatCtrl, verified, if_true, test]
        rfl
      · next start test =>
        refine runCmd_answer h rfl ?_
        simp only [cmdIntVatCtrl, verified, if_true]
        rfl
    · next broken =>
      refine runCmd_answer h rfl ?_
      simp only [cmdIntVatCtrl, if_neg broken]
  · simp only [cmdIntHistoryRead, if_pos side]
    rfl
  · simp only [cmdIntHistoryRead, if_neg host]
    exact bind_eq_of_ok written _
  · simp only
    split
    · next r noted =>
      refine runCmd_answer h rfl ?_
      simp only [cmdIntQuery, noted]
      rfl
    · next absent =>
      refine runCmd_answer h rfl ?_
      simp only [cmdIntQuery, absent]
      rfl

/-- A tick that passes its checks is accepted (R57, R62). -/
theorem serializeTick_accepted {p : Packet} {s : State} (accepted : (tickCheck p s).isOk = true) :
    serializeTick p s = tickAccept p s := by
  unfold serializeTick
  split
  · rfl
  · next refused => rw [refused] at accepted; cases accepted

/-- Settles O25. -/
theorem phaseCommandsComplete : Obligations.PhaseCommandsComplete := by
  refine ⟨fun p s h fresh accepted => runCmd_answer h rfl ?_, fun p s a h done => runCmd_answer h rfl ?_,
    fun p s h => runCmd_answer h rfl rfl, fun p s h => runCmd_answer h rfl rfl, fun p s h module_ => runCmd_answer h rfl ?_,
    fun p s h glove => runCmd_answer h rfl ?_⟩
  · simp only [cmdPhaseTick, fresh, serializeTick_accepted accepted]
  · simp only [cmdPhaseTick, done]
  · simp only [cmdPhaseQuery, if_pos module_]
    rfl
  · simp only [cmdPhaseQuery, if_neg glove]
    rfl

/-- Settles O26. -/
theorem moduleCommandsComplete : Obligations.ModuleCommandsComplete :=
  ⟨fun _ _ h => runCmd_silent h rfl rfl, fun _ _ h => runCmd_answer h rfl rfl, fun _ _ h => runCmd_answer h rfl rfl⟩

end Sys2Proof.Machine

/-! PROOFS. Reads and writes of the registers of BAR0 complete (R3, R11, R52, R67, R69, R111, R130, R150, R396, R422, R470,
R500). -/

namespace Sys2Proof.Machine

set_option autoImplicit false

/-! ### Reads -/

/-- A read of a register by a host that reaches it gives the value and leaves the state of the read (R11). -/
theorem readReg_ready {s : State} (ready : regsReady s = true) (value : Nat) (after : State) :
    readReg s value after = afterRead value after := by
  rw [readReg, if_pos ready]
  rfl

theorem next_readReg_ready {s : State} (ready : regsReady s = true) (value : Nat) (after : State) :
    (.next (readReg s value after) : Host.Outcome State Fault Refusal) = .next (afterRead value after) := by
  rw [readReg_ready ready]

/-- The PF reads the map of its BAR0 while the registers answer. -/
theorem readRegister_pf {s : State} (ready : regsReady s = true) (a : Nat) : readRegister s 0 a = some (readPf s a) := by
  have boots : s.fw.recovery = false := by
    simp only [regsReady, Bool.and_eq_true, Bool.not_eq_true'] at ready
    exact ready.2
  simp [readRegister, recoveryAnswers, boots, ready]

/-- Settles O27. -/
theorem registerReadsComplete : Obligations.RegisterReadsComplete := by
  intro s ready
  refine ⟨fun fn g may => ?_, next_readReg_ready ready _ _, next_readReg_ready ready _ _, next_readReg_ready ready _ _,
    next_readReg_ready ready _ _, fun fn g may => ?_, fun port real => ⟨?_, ?_, ?_⟩, next_readReg_ready ready _ _,
    next_readReg_ready ready _ _, next_readReg_ready ready _ _, next_readReg_ready ready _ _, next_readReg_ready ready _ _,
    next_readReg_ready ready _ _, next_readReg_ready ready _ _, ?_, ?_, fun t read => ?_⟩
  · exact (if_pos may).trans (next_readReg_ready ready _ _)
  · exact (if_pos may).trans (next_readReg_ready ready _ _)
  · exact (if_pos real).trans (next_readReg_ready ready _ _)
  · exact (if_pos real).trans (next_readReg_ready ready _ _)
  · exact (if_pos real).trans (next_readReg_ready ready _ _)
  · rw [readRegister_pf ready]
    simp [readPf, readIdentity, regWord, sumOf]
  · rw [readRegister_pf ready]
    rfl
  · obtain rfl : t = afterRead s.cal.ms { s with cal := { s.cal with hiLatch := bitsAt s.cal.ms 32 16 } } :=
      (Host.Outcome.next.inj (read.symm.trans (next_readReg_ready ready _ _)))
    rw [readRegister_pf (by exact ready)]
    simp [readPf, readCalendar, regWord, sumOf, afterRead, bitsAt]

/-! ### Writes -/

theorem setAt_id {α : Type} (l : List α) (n : Nat) : setAt l n (fun x => x) = l := by
  induction l generalizing n with
  | nil => rfl
  | cons x xs ih =>
    cases n with
    | zero => rfl
    | succ n => exact congrArg (x :: ·) (ih n)

/-- PRT_ECN of a port. -/
theorem exec_registerWrite_ecn {s : State} (ready : regsReady s = true) {port : Nat} (real : port < 10) (v : Word32) :
    exec (.registerWrite (0x00070008 + 0x100 * port) v) s =
      .next (setPort s port (fun r => { r with markKib := v.toNat % 2 ^ 16 })) := by
  have unit : (0x00070008 + 0x100 * port - 0x00070000) / 0x100 = port := by omega
  show execRegisterWrite _ v s = _
  rw [execRegisterWrite, if_neg (not_not_intro ready), if_neg (by omega), if_pos (by omega), unit]

/-- A register of a port's fault injection. -/
theorem exec_registerWrite_inject {s : State} (ready : regsReady s = true) {port field : Nat} (real : port < 10)
    (within : field < 0x40) (v : Word32) :
    exec (.registerWrite (0x00090000 + field + 0x40 * port) v) s = .next (setPortInject s port (writeInject field v.toNat)) := by
  have unit : (0x00090000 + field + 0x40 * port - 0x00090000) / 0x40 = port := by omega
  have register : (0x00090000 + field + 0x40 * port) % 0x40 = field := by omega
  show execRegisterWrite _ v s = _
  rw [execRegisterWrite, if_neg (not_not_intro ready), if_neg (by omega), if_neg (by omega), if_pos (by omega), unit, register]

/-- The injection registers that take a value are FIJ_DROP, FIJ_CORRUPT, FIJ_REORDER and FIJ_SEED. -/
theorem writeInject_other {field : Nat} (drop : field ≠ 0x04) (corrupt : field ≠ 0x08) (reorder : field ≠ 0x0C)
    (seed : field ≠ 0x10) (v : Nat) : writeInject field v = fun i => i := by
  funext i
  unfold writeInject
  split
  · exact absurd rfl drop
  · exact absurd rfl corrupt
  · exact absurd rfl reorder
  · exact absurd rfl seed
  · rfl

theorem setPortInject_id (s : State) (port : Nat) : setPortInject s port (fun i => i) = s := by
  simp only [setPortInject, setPort, setAt_id]

/-- A write to any other offset changes nothing. -/
theorem exec_registerWrite_other {s : State} (ready : regsReady s = true) {offset : Nat} (udp : offset ≠ 0x00071000)
    (other : ∀ port : Nat, port < 10 → offset ≠ 0x00070008 + 0x100 * port ∧ offset ≠ 0x00090004 + 0x40 * port ∧
      offset ≠ 0x00090008 + 0x40 * port ∧ offset ≠ 0x0009000C + 0x40 * port ∧ offset ≠ 0x00090010 + 0x40 * port)
    (v : Word32) : exec (.registerWrite offset v) s = .next s := by
  show execRegisterWrite _ v s = _
  rw [execRegisterWrite, if_neg (not_not_intro ready), if_neg udp]
  have ecn : ¬ (0x00070000 ≤ offset ∧ offset < 0x00070A00 ∧ offset % 0x100 = 0x08) := by
    rintro ⟨low, high, field⟩
    have apart := (other ((offset - 0x00070000) / 0x100) (by omega)).1
    omega
  rw [if_neg ecn]
  split
  · next block =>
    obtain ⟨-, drop, corrupt, reorder, seed⟩ := other ((offset - 0x00090000) / 0x40) (by omega)
    rw [writeInject_other (by omega) (by omega) (by omega) (by omega), setPortInject_id]
  · rfl

/-- Settles O28. -/
theorem registerWritesComplete : Obligations.RegisterWritesComplete := by
  intro v s ready
  refine ⟨congrArg Host.Outcome.next (if_pos ready), congrArg Host.Outcome.next (if_pos ready), ?_,
    fun port real => ⟨?_, ?_, exec_registerWrite_ecn ready real v, ?_, ?_, ?_, ?_⟩, ?_,
    fun offset udp other => exec_registerWrite_other ready udp other v, congrArg Host.Outcome.next (if_pos ready)⟩
  · show execCalTrimWrite v s = _
    simp only [execCalTrimWrite, ready, true_and]
  · show execPrtCtrlWrite port v s = _
    cases closed : s.host.cfgSealed with
    | true => rw [execPrtCtrlWrite, if_neg (by simp [closed]), if_pos rfl]
    | false => rw [execPrtCtrlWrite, if_pos ⟨ready, by simp [closed], real⟩, if_neg (by decide)]
  · exact congrArg Host.Outcome.next (if_pos ⟨ready, real⟩)
  · exact exec_registerWrite_inject (field := 0x04) ready real (by decide) v
  · exact exec_registerWrite_inject (field := 0x08) ready real (by decide) v
  · exact exec_registerWrite_inject (field := 0x0C) ready real (by decide) v
  · exact exec_registerWrite_inject (field := 0x10) ready real (by decide) v
  · show execRegisterWrite _ v s = _
    rw [execRegisterWrite, if_neg (not_not_intro ready), if_pos rfl]

end Sys2Proof.Machine

/-! PROOFS. Doorbells and MSI-X vectors, failed DMA reads, and what a port and the sideband answer by themselves complete (R112,
R337, R355 to R362, R368, R491). -/

namespace Sys2Proof.Machine

set_option autoImplicit false

theorem connOf_id {s : State} {id : Nat} {c : Conn} (found : connOf s id = some c) : c.id = id := by
  simpa using List.find?_some found

/-- Settles O29. -/
theorem doorbellsAndInterruptsComplete : Obligations.DoorbellsAndInterruptsComplete := by
  refine ⟨fun fn queue index slots visible s s1 q seen found => ?_, fun fn queue index s q found => ?_,
    fun fn i s may => ⟨congrArg Host.Outcome.next (if_pos may), congrArg Host.Outcome.next (if_pos may)⟩⟩
  · subst seen
    show execGblDbProd fn queue index slots visible s = _
    simp only [execGblDbProd, found]
    split <;> rfl
  · show execGblDbCons fn queue index s = _
    simp only [execGblDbCons, found]
    split <;> rfl

/-- Settles O30. -/
theorem readFailuresComplete : Obligations.ReadFailuresComplete := by
  intro cause s
  refine ⟨fun id q found => ⟨?_, ?_⟩, fun id psn c found => ⟨?_, fun fetching => ?_⟩⟩
  · show execDmaReadFail (.commandRing id) cause s = _
    simp only [execDmaReadFail, found]
  · show execDmaReadFail (.sendRing id) cause s = _
    simp only [execDmaReadFail, found]
  · show execDmaReadFail (.window id psn) cause s = _
    simp only [execDmaReadFail, found]
  · show execDmaReadFail (.context id) cause s = _
    simp only [execDmaReadFail, found, fetching, if_true, failFetch, connOf_id found]

/-- Settles O31. -/
theorem portAnswersComplete : Obligations.PortAnswersComplete := by
  refine ⟨fun port address sender s g up owner => ?_, fun port address sender s g up owner => ?_,
    fun port v6 address sender payload s g up owner => ?_, fun address setdasa s powered free => ?_⟩
  · show execArpRequest port address sender s = _
    simp only [execArpRequest, owner, up, if_true]
    rfl
  · show execNeighbourSolicitation port address sender s = _
    simp only [execNeighbourSolicitation, owner, up, if_true]
    rfl
  · show execEchoRequest port v6 address sender payload s = _
    simp only [execEchoRequest, owner, up, if_true]
    rfl
  · show execDynamicAddressAssignment address setdasa s = _
    have unknown : (setdasa.isSome && (s.side.address.isSome || setdasa != some staticAddress)) = false := by
      obtain rfl | ⟨none_, rfl⟩ := free
      · rfl
      · rw [none_]; rfl
    simp only [execDynamicAddressAssignment, unknown, powered, Bool.false_eq_true, or_self, if_false]

end Sys2Proof.Machine

/-! PROOFS. Full resets, fetches and dispatch turns, and the Cellarmaster's faults and restarts complete (R22, R27 to R33, R44 to
R52, R70, R72, R341, R353, R491 to R499). -/

namespace Sys2Proof.Machine

set_option autoImplicit false

/-! ### Full resets -/

theorem powered_of_on {s : State} (on : s.pwr.state = .on) : powered s = true := by simp [powered, on]

theorem Eff.pwr_same {b : List Part} {s t : State} (e : Eff b s t) (kept : .pwr ∉ b) : t.pwr = s.pwr :=
  e.unchanged .pwr kept

theorem Eff.cm_same {b : List Part} {s t : State} (e : Eff b s t) (kept : .cm ∉ b) : t.cm = s.cm :=
  e.unchanged .cm kept

theorem Eff.drsSent_same {b : List Part} {s t : State} (e : Eff b s t) (kept : .hostPort ∉ b) :
    t.host.drsSent = s.host.drsSent :=
  have same : { t.host with mem := [], vectors := [], rings := [] } = { s.host with mem := [], vectors := [], rings := [] } :=
    e.unchanged .hostPort kept
  (congrArg HostPort.drsSent same : _)

/-- The tests of the Vats at start-up leave the supplies as they are. -/
theorem foldl_startupBist_pwr (l : List Nat) (s : State) : (l.foldl startupBist s).pwr = s.pwr := by
  induction l generalizing s with
  | nil => rfl
  | cons v l ih => exact (ih _).trans ((startupBist_eff s v).pwr_same (by decide))

/-- Settles O32. -/
theorem fullResetsComplete : Obligations.FullResetsComplete := by
  refine ⟨fun v s ready bit key => congrArg Host.Outcome.next (if_pos ⟨ready, bit, key⟩),
    fun serial s on right => congrArg Host.Outcome.next (if_pos ⟨powered_of_on on, right⟩),
    fun s on => ⟨if_pos (powered_of_on on), if_pos (powered_of_on on), if_pos (powered_of_on on)⟩,
    fun s on good held => ?_, fun s on early held => ?_, fun s on held early => ?_,
    fun s on good free unready boots => ?_⟩
  · show execPerstDeassert s = _
    rw [execPerstDeassert, if_pos ⟨powered_of_on on, held⟩, if_pos good]
    rfl
  · show execPerstDeassert s = _
    rw [execPerstDeassert, if_pos ⟨powered_of_on on, held⟩, if_neg (by simp [early])]
  · show execPwrGood s = _
    simp only [execPwrGood, powered_of_on on, not_true_eq_false, if_false, held, early, and_self, if_true]
    rfl
  · refine ⟨_, if_pos ⟨powered_of_on on, good, by simp [free], by simp [unready], by simp [boots]⟩, ?_,
      ((releaseSideband_eff _).cm_same (by decide)).symm ▸ rfl, (releaseSideband_eff _).drsSent_same (by decide)⟩
    rw [(releaseSideband_eff _).pwr_same (by decide)]
    simp only [(startScan_eff _).pwr_same (by decide), (settleVats_eff _).pwr_same (by decide), foldl_startupBist_pwr]

/-! ### Fetches and dispatch turns -/

/-- Settles O33. -/
theorem fetchesAndTurnsComplete : Obligations.FetchesAndTurnsComplete := by
  refine ⟨fun queue cycle s q h rest found head on running may => ?_, fun order s p found => ?_,
    fun ctx s running real => ?_, fun g s running real => ?_, fun bytes cycle s on boots room right running => ?_,
    fun bytes cycle s on boots room held => ?_, fun bytes cycle s on boots full => ?_⟩
  · have open_ : ¬ ¬ (powered s = true ∧ (s.cm.state = .running ∨ s.cm.state = .halted) ∧ mayFetch s q = true) :=
      not_not_intro ⟨powered_of_on on, Or.inl running, may⟩
    refine ⟨fun lost => ?_, fun i given right whole lost => ?_, fun given wrong => ?_,
      fun given right whole intact live room => ?_⟩
    · show execCommandFetch queue cycle s = _
      simp only [execCommandFetch, found, head, if_neg open_, lost, List.isEmpty_nil, if_true]
    all_goals
      have filled : ¬ h.isEmpty = true := by simpa using given
      show execCommandFetch queue cycle s = _
      simp only [execCommandFetch, found, head, if_neg open_, if_neg filled]
    · rw [if_neg (not_not_intro right), ← head, if_neg (Nat.not_lt.mpr whole), lost]
    · rw [if_pos wrong]
    · rw [if_neg (not_not_intro right), ← head, if_neg (Nat.not_lt.mpr whole), intact]
      simp only [takePacket, live, Option.map_none, Option.getD_none, Bool.false_eq_true, if_false, running, room, if_true,
        reduceCtorEq]
  · show execStagedPromotion order s = _
    simp only [execStagedPromotion, found]
  · exact if_pos ⟨running, real⟩
  · show execGloveResetReplies g s = _
    rw [execGloveResetReplies, if_pos running, turnReplies, if_pos real]
  all_goals
    have outside : ¬ (s.pwr.state ≠ .on ∨ s.fw.recovery = true) := by simp [on, boots]
    show execSidebandPacket bytes cycle s = _
    rw [execSidebandPacket, if_neg (by simp [on]), if_neg outside]
  · have space : ¬ Config.sidebandBuffer ≤ sidebandStaged s := Nat.not_le.mpr room
    rw [if_neg space, if_neg (by simp [running]), fetchSideband, if_neg (not_not_intro right),
      if_neg (by simp [running])]
  · have space : ¬ Config.sidebandBuffer ≤ sidebandStaged s := Nat.not_le.mpr room
    rw [if_neg space, if_pos held]
  · exact if_pos full

/-! ### The Cellarmaster -/

/-- A fault of the running Cellarmaster restarts it, or halts it after two faults in the 10 minutes before (R51). -/
theorem faultCm_running {s : State} (running : s.cm.state = .running) (n : Nat) :
    faultCm s n =
      let recent := s.cm.faults.filter (fun t => decide (s.cal.ms < t + 600000))
      let cm : Cm := { s.cm with
        restarts := satAdd 255 s.cm.restarts 1, lastCause := n, faults := recent ++ [s.cal.ms], faultPhase := calendarWord s }
      if 2 ≤ recent.length then haltCm (addRecord { s with cm := cm } { kind := 8, unit := 0x10, outcome := n })
      else addRecord { s with cm := { cm with state := .restarting } } { kind := 7, unit := 0x10, outcome := n } :=
  if_neg (not_not_intro running)

/-- Settles O34. -/
theorem cellarmasterEventsComplete : Obligations.CellarmasterEventsComplete := by
  refine ⟨fun s n i fault running => ?_, fun s d own granules channels slot => ?_, fun us s restarting => ?_,
    fun s on => congrArg Host.Outcome.next (if_pos (powered_of_on on)), fun order s o a found answer live => ?_,
    fun queue s => rfl⟩
  · have faults : exec i s = .next (faultCm s n) := by
      obtain listed | ⟨rfl, d, rfl, fails⟩ := fault
      · simp only [List.mem_cons, Prod.mk.injEq, List.not_mem_nil, or_false] at listed
        obtain ⟨rfl, rfl⟩ | ⟨rfl, rfl⟩ := listed
        · rfl
        · rfl
      · exact congrArg Host.Outcome.next (if_neg (by simp [fails]))
    rw [faults, faultCm_running running]
  · have passes : descriptorPasses s d = Config.classPermitted d.cls (d.opcode / 256) := by
      have inside : d.granules.all (fun a => decide ((gloveOf s d.glove).cfg.cellarBase ≤ a) &&
          decide (a < (gloveOf s d.glove).cfg.cellarBase + (gloveOf s d.glove).cfg.cellar)) = true := by
        simpa using granules
      have reached : d.channels.all (gloveOf s d.glove).cfg.channels.testBit = true := by simpa using channels
      simp only [descriptorPasses, own, beq_self_eq_true, Bool.true_and] at inside reached slot ⊢
      rw [inside, reached, slot, Bool.true_and, Bool.true_and, Bool.true_and]
    show execCmFault (.descriptor d) s = _
    simp only [execCmFault, passes]
  · show execCmRestartDone us s = _
    rw [execCmRestartDone, if_neg (not_not_intro restarting)]
  · show execLiveWaitTimeout (.command order) s = _
    simp only [execLiveWaitTimeout, found, answer, live, if_true]

end Sys2Proof.Machine

/-! PROOFS. The events of the clock, of due phases and of checkpoints complete (R55 to R65, R99 to R104, R180, R181, R420). -/

namespace Sys2Proof.Machine

set_option autoImplicit false

/-- Settles O35. -/
theorem clockEventsComplete : Obligations.ClockEventsComplete :=
  ⟨fun _ _ runs => if_neg (by simp [runs]),
    fun _ _ coordinator limited reached plain free => if_pos ⟨coordinator, limited, reached, by simp [plain], by simp [free]⟩,
    fun _ _ _ stalled free => if_pos ⟨stalled, by simp [free]⟩⟩

/-- Settles O36. -/
theorem dueEventsComplete : Obligations.DueEventsComplete := by
  refine ⟨fun g vid s e v due settled found opened clear => ?_, fun g vid s e v due found sealed_ => ?_,
    fun g vid s e v due found opened => ?_, fun g s e due => ?_⟩
  · show execContributionCloseDue g vid s = _
    simp only [execContributionCloseDue, due, ensurePass, settled, takeClose, found, opened, clear, ne_eq, not_true_eq_false,
      Bool.false_eq_true, if_false]
  · show execShareCloseDue g vid s = _
    simp only [execShareCloseDue, due, found, sealed_, ne_eq, not_true_eq_false, if_false]
  · show execCheckpointDue g vid s = _
    have live : ((vintageOf s g vid).map (fun v => v.state == .opened)).getD false = true := by simp [found, opened]
    simp only [execCheckpointDue, due, live, if_true]
  · show execKeyRotationDue g s = _
    simp only [execKeyRotationDue, due]

/-- Settles O37. -/
theorem checkpointEventsComplete : Obligations.CheckpointEventsComplete := by
  refine ⟨fun g cask k s c v word sealCp rest found cuts ofVintage idle steady clear active => ?_,
    fun g cask errors s => rfl, fun g cask s c cp v d found copy ofVintage copied active diff => ?_,
    fun g cask s c found rolling clear active => ?_, fun g vid s v found ready => ?_⟩
  · show Host.Outcome.next (takeCut s g cask) = _
    have due : ¬ (c.inProgress.isSome = true ∨ c.rollback.isSome = true ∨ cutWaits s g cask word.count = true ∨
        (gloveOf s g).state ≠ .active) := by simp [idle, steady, clear, active]
    simp only [takeCut, found, cuts, ofVintage, if_neg due]
  · show execCheckpointVerifyDone g cask s = _
    have due : ¬ (¬ cp.copied = true ∨ (gloveOf s g).state ≠ .active) := by simp [copied, active]
    subst diff
    simp only [execCheckpointVerifyDone, found, copy, ofVintage, if_neg due]
    split <;> rfl
  · show execRollbackRestoreDone g cask s = _
    have due : ¬ (c.rollback.isNone = true ∨ restoreWaits s g cask = true ∨ (gloveOf s g).state ≠ .active) := by
      simp [rolling, clear, active]
    simp only [execRollbackRestoreDone, found, if_neg due]
  · show Host.Outcome.next (unlessStalled s (tryReady s g vid)) = _
    simp only [tryReady, found, ready, if_true]

end Sys2Proof.Machine

/-! PROOFS. A CONNECT_ACK does more than establish its connection (R120, R145, R146): refuted here is the statement that it does
nothing else. -/

namespace Sys2Proof.Machine

set_option autoImplicit false

/-! ### A Glove with one resident context and two connections -/

/-- The connection whose handshake is under way: its CONNECT is not answered yet, so its context stays resident. -/
def connectingConn : Conn where
  id := 1
  owner := 0
  state := .connecting
  incarnation := 1
  txReq := { unacked := [{ psn := 0, op := 0x0A, timerUs := 20, pkt := { port := 0, conn := 0, incarnation := 0 } }] }

/-- A connection with a packet to send and a context that is not resident. -/
def starvedConn : Conn where
  id := 2
  owner := 0
  state := .established
  incarnation := 1
  resident := false
  waiting := [{ psn := 0, op := 0x07, timerUs := 20, pkt := { port := 0, conn := 0, incarnation := 0 } }]

/-- The module with port 0 up, and Glove 0 with room for one context. -/
def oneContext : State := { State.reset with
  net := { State.reset.net with ports := setAt State.reset.net.ports 0 (fun r => { r with enable := true, linkUp := true }) }
  gloves := setAt State.reset.gloves 0 (fun x => { x with state := .active, cfg := { x.cfg with resident := 1 } })
  conns := [connectingConn, starvedConn] }

/-- The CONNECT_ACK of the peer. -/
def answeringAck : WraPacket where
  port := 0
  conn := 1
  incarnation := 1
  first := true
  last := true
  ext := zeros 8

theorem answeringAck_delivered : Delivered 0x0B answeringAck oneContext connectingConn connectingConn answeringAck where
  arrives := by decide +kernel
  incarnation := rfl
  conn := by decide +kernel
  resident := rfl

/-- The context of connection 2 is being fetched. -/
def starvedFetches : Host.Outcome State Fault Refusal → Bool
  | .next t => (connOf t 2).any (fun c => c.fetching)
  | _ => false

/-- Refutes O38: once the CONNECT is answered, the context of its connection may leave the engine, and the context that waited
for room is fetched. -/
theorem not_wirePacketsComplete : ¬ Obligations.WirePacketsComplete := by
  rintro ⟨-, -, -, -, -, -, connectAck, -⟩
  have same := congrArg starvedFetches (connectAck _ _ _ _ _ answeringAck_delivered rfl (by decide))
  have fetches : starvedFetches (exec (.connectAck answeringAck) oneContext) = true := by decide +kernel
  rw [fetches] at same
  exact absurd same (by decide +kernel)

end Sys2Proof.Machine

/-! PROOFS. Placement, triggered work and the send queues complete (R126, R127, R141 to R143, R166). -/

namespace Sys2Proof.Machine

set_option autoImplicit false

/-! ### What a placed packet writes in its Cask -/

theorem caskOf_found {s : State} {g n : Nat} {k : Cask} (found : caskOf s g n = some k) : k.glove = g ∧ k.id = n := by
  simpa using List.find?_some found

theorem caskOf_congr {s t : State} (same : t.casks = s.casks) (g n : Nat) : caskOf t g n = caskOf s g n := by
  rw [caskOf, caskOf, same]

/-- A Cask after values were placed from a coordinate on: the same Cask, its memory in canonical form, and every byte outside
those coordinates as before. -/
structure PlacedFrom (first count : Nat) (k k1 : Cask) : Prop where
  glove : k1.glove = k.glove
  id : k1.id = k.id
  ring : k1.ring = k.ring
  wf : Memory.wf k1.data = true
  outside : ∀ a : Nat, a < coordBytes k.ring * first ∨ coordBytes k.ring * (first + count) ≤ a →
    Memory.read k1.data a = Memory.read k.data a

/-- One coordinate adjusted, with its fingerprints. -/
theorem printCoord_adjustCoord_placed {k : Cask} (wf : Memory.wf k.data = true) (draw : Nat) (minus : Bool)
    (client : Option Nat) (i x : Nat) :
    PlacedFrom i 1 k (printCoord draw (adjustCoord k minus i x) minus client i x) where
  glove := rfl
  id := rfl
  ring := rfl
  wf := wf_writeN wf _ _
  outside a out := by
    refine read_writeN_outside wf _ _ ?_
    rw [length_toLE]
    rwa [Nat.mul_add, Nat.mul_one] at out

/-- Values placed one after the other. -/
theorem placeValues_placed (draw : Nat) (minus : Bool) (client : Option Nat) (xs : List Nat) :
    ∀ {k : Cask} (first : Nat), Memory.wf k.data = true →
      PlacedFrom first xs.length k (placeValues draw minus client k first xs) := by
  induction xs with
  | nil => exact fun first wf => ⟨rfl, rfl, rfl, wf, fun _ _ => rfl⟩
  | cons x xs ih =>
    intro k first wf
    have one := printCoord_adjustCoord_placed wf draw minus client first x
    have rest := ih (first + 1) one.wf
    refine ⟨rest.glove.trans one.glove, rest.id.trans one.id, rest.ring.trans one.ring, rest.wf, fun a out => ?_⟩
    rw [List.length_cons] at out
    have low : coordBytes k.ring * first ≤ coordBytes k.ring * (first + 1) := Nat.mul_le_mul_left _ (by omega)
    have high : coordBytes k.ring * (first + 1) ≤ coordBytes k.ring * (first + (xs.length + 1)) := Nat.mul_le_mul_left _ (by omega)
    have sum : first + 1 + xs.length = first + (xs.length + 1) := by omega
    calc Memory.read (placeValues draw minus client k first (x :: xs)).data a
        = Memory.read (printCoord draw (adjustCoord k minus first x) minus client first x).data a :=
          rest.outside a (by rw [one.ring, sum]; omega)
      _ = Memory.read k.data a := one.outside a (by omega)

theorem placeValues_keeps (draw : Nat) (minus : Bool) (client : Option Nat) (xs : List Nat) :
    ∀ (k : Cask) (first : Nat), (placeValues draw minus client k first xs).glove = k.glove ∧
      (placeValues draw minus client k first xs).id = k.id := by
  induction xs with
  | nil => exact fun _ _ => ⟨rfl, rfl⟩
  | cons x xs ih => exact fun k first => ih (printCoord draw (adjustCoord k minus first x) minus client first x) (first + 1)

/-- The Cask with the values of an ACCUMULATE of a client. -/
def accumulated (v : Vintage) (w : WraPacket) (win : Window) (tally : Tally) (k : Cask) : Cask :=
  let k1 := placeValues v.printDraw false (some (field w.ext 0 4)) k (firstCoord k win w) (payloadValues k w.payload)
  flagGranules (firstCoord k win w) (payloadValues k w.payload).length { k1 with tallies := setTally k1.tallies tally }

/-- The Cask with the values of a PARTIAL of a member. -/
def addedPartial (v : Vintage) (w : WraPacket) (win : Window) (k : Cask) : Cask :=
  let k1 := placeValues v.printDraw false none k (firstCoord k win w) (payloadValues k w.payload)
  flagGranules (firstCoord k win w) (payloadValues k w.payload).length { k1 with
    partials := partialPlace k1.partials ((w.trellis.map (fun t => t.source)).getD 0) (field w.ext 0 4) (field w.ext 4 4)
      ((w.trellis.map (fun t => t.origin)).getD 0) }

/-- An update of the found Cask, and what it leaves of the other Casks. -/
theorem caskOf_updated {s t : State} {g n : Nat} {k : Cask} {f : Cask → Cask} (found : caskOf s g n = some k)
    (keeps : ∀ x, (f x).glove = x.glove ∧ (f x).id = x.id) (same : t.casks = (setCask s g n f).casks) :
    caskOf t g n = some (f k) ∧ ∀ g' n', (g' ≠ g ∨ n' ≠ n) → caskOf t g' n' = caskOf s g' n' := by
  refine ⟨?_, fun g' n' other => ?_⟩
  · rw [caskOf_congr same, caskOf_setCask_same keeps, found, Option.map_some]
  · rw [caskOf_congr same, caskOf_setCask_other keeps other]

theorem spillTouch_casks (s : State) (c : Cask) (first n : Nat) : (spillTouch s c first n).casks = s.casks := by
  have folded : ∀ (l : List (Nat × Nat)) (s : State), (l.foldl (fun s x => { s with
      spill := setAt s.spill x.1 (touchLine ⟨c.glove, c.id, x.2, spillChannel s c.glove x.2⟩) }) s).casks = s.casks := by
    intro l
    induction l with
    | nil => exact fun s => rfl
    | cons x l ih => exact fun s => ih _
  exact folded _ s

theorem Eff.casks_same {b : List Part} {s t : State} (e : Eff b s t) (kept : .casks ∉ b) : t.casks = s.casks :=
  (e.unchanged .casks kept).1

/-- What placing values in a Cask leaves: that Cask with them, and every other Cask as before. -/
theorem caskOf_placed {s t : State} {g n cid first : Nat} {k : Cask} {xs : List Nat} {f : Cask → Cask}
    (found : caskOf s g n = some k)
    (keeps : ∀ x, (f x).glove = x.glove ∧ (f x).id = x.id) (placed : PlacedFrom first xs.length k (f k))
    (same : t.casks = (setCask s g n f).casks) :
    (∃ k1 : Cask, caskOf (notePlacer t cid g n) g n = some k1 ∧
      ∀ a : Nat, a < coordBytes k.ring * first ∨ coordBytes k.ring * (first + xs.length) ≤ a →
        Memory.read k1.data a = Memory.read k.data a) ∧
    ∀ g' n', (g' ≠ g ∨ n' ≠ n) → caskOf (notePlacer t cid g n) g' n' = caskOf s g' n' := by
  obtain ⟨at_, others⟩ := caskOf_updated found keeps same
  obtain ⟨noted, rest⟩ := caskOf_updated (t := notePlacer t cid g n) (f := fun k => { k with
    placers := dedup (k.placers ++ [cid])
    placersCut := if k.inProgress.isSome then dedup (k.placersCut ++ [cid]) else k.placersCut }) at_ (fun x => ⟨rfl, rfl⟩) rfl
  exact ⟨⟨_, noted, placed.outside⟩, fun g' n' other => (rest g' n' other).trans (others g' n' other)⟩

theorem accumulated_keeps (v : Vintage) (w : WraPacket) (win : Window) (tally : Tally) (k : Cask) :
    (accumulated v w win tally k).glove = k.glove ∧ (accumulated v w win tally k).id = k.id :=
  placeValues_keeps v.printDraw false (some (field w.ext 0 4)) (payloadValues k w.payload) k (firstCoord k win w)

theorem addedPartial_keeps (v : Vintage) (w : WraPacket) (win : Window) (k : Cask) :
    (addedPartial v w win k).glove = k.glove ∧ (addedPartial v w win k).id = k.id :=
  placeValues_keeps v.printDraw false none (payloadValues k w.payload) k (firstCoord k win w)

theorem accumulated_placed {k : Cask} (wf : Memory.wf k.data = true) (v : Vintage) (w : WraPacket) (win : Window) (tally : Tally) :
    PlacedFrom (firstCoord k win w) (payloadValues k w.payload).length k (accumulated v w win tally k) :=
  have values := placeValues_placed v.printDraw false (some (field w.ext 0 4)) (payloadValues k w.payload) (firstCoord k win w) wf
  ⟨values.glove, values.id, values.ring, values.wf, values.outside⟩

theorem addedPartial_placed {k : Cask} (wf : Memory.wf k.data = true) (v : Vintage) (w : WraPacket) (win : Window) :
    PlacedFrom (firstCoord k win w) (payloadValues k w.payload).length k (addedPartial v w win k) :=
  have values := placeValues_placed v.printDraw false none (payloadValues k w.payload) (firstCoord k win w) wf
  ⟨values.glove, values.id, values.ring, values.wf, values.outside⟩

theorem setCask_casks_spillTouch (s : State) (k : Cask) (first count g n : Nat) (f : Cask → Cask) :
    (setCask (spillTouch s k first count) g n f).casks = (setCask s g n f).casks :=
  congrArg (mapIf _ f) (spillTouch_casks s k first count)

/-- A placed ACCUMULATE changes the coordinates of its Cask from the window's base plus the offset on, and no other (R165). -/
theorem caskOf_placeAccumulate {s : State} {w : WraPacket} {win : Window} {k : Cask} (cid : Nat)
    (found : caskOf s win.owner win.object = some k) (wf : Memory.wf k.data = true) :
    (∃ k1 : Cask, caskOf (placeAccumulate s cid w win).1 win.owner win.object = some k1 ∧
      ∀ a : Nat, a < coordBytes k.ring * firstCoord k win w ∨
        coordBytes k.ring * (firstCoord k win w + (payloadValues k w.payload).length) ≤ a →
        Memory.read k1.data a = Memory.read k.data a) ∧
    ∀ g n : Nat, (g ≠ win.owner ∨ n ≠ win.object) → caskOf (placeAccumulate s cid w win).1 g n = caskOf s g n := by
  have id : k.id = win.object := (caskOf_found found).2
  unfold placeAccumulate
  simp only [found]
  split
  · exact ⟨⟨k, found, fun _ _ => rfl⟩, fun _ _ _ => rfl⟩
  · next v ofVintage =>
    rw [← id] at found ⊢
    refine caskOf_placed found (accumulated_keeps v w win (tallyPlace (tallyOf k.tallies (field w.ext 0 4)) (field w.ext 4 4)).1)
      (accumulated_placed wf v w win _) (((countPlaced_eff ..).casks_same (by decide)).trans ?_)
    split
    · exact ((conflictEvent_eff ..).casks_same (by decide)).trans (setCask_casks_spillTouch ..)
    · exact setCask_casks_spillTouch ..

/-- A placed PARTIAL does the same (R160). -/
theorem caskOf_placePartial {s : State} {w : WraPacket} {win : Window} {k : Cask} (cid : Nat)
    (found : caskOf s win.owner win.object = some k) (wf : Memory.wf k.data = true) :
    (∃ k1 : Cask, caskOf (placePartial s cid w win) win.owner win.object = some k1 ∧
      ∀ a : Nat, a < coordBytes k.ring * firstCoord k win w ∨
        coordBytes k.ring * (firstCoord k win w + (payloadValues k w.payload).length) ≤ a →
        Memory.read k1.data a = Memory.read k.data a) ∧
    ∀ g n : Nat, (g ≠ win.owner ∨ n ≠ win.object) → caskOf (placePartial s cid w win) g n = caskOf s g n := by
  have id : k.id = win.object := (caskOf_found found).2
  unfold placePartial
  simp only [found]
  split
  · exact ⟨⟨k, found, fun _ _ => rfl⟩, fun _ _ _ => rfl⟩
  · next v ofVintage =>
    rw [← id] at found ⊢
    exact caskOf_placed found (addedPartial_keeps v w win) (addedPartial_placed wf v w win)
      (((countPlaced_eff ..).casks_same (by decide)).trans (setCask_casks_spillTouch ..))

/-! ### Placement and work -/

theorem countPlaced_host (s : State) (w : Window) (client : Option (Nat × Standing)) : (countPlaced s w client).host = s.host := by
  unfold countPlaced
  split
  · rfl
  · split <;> rfl

/-- Settles O39. -/
theorem placementAndWorkComplete : Obligations.PlacementAndWorkComplete := by
  refine ⟨fun conn space psn s s1 c f lees found flying place placed => ?_,
    fun s s1 c f w op win open_ stored => ⟨?_, countPlaced_host s1 w none, (countPlaced_eff s1 w none).casks_same (by decide)⟩,
    fun s s1 s2 c f w old open_ read stored => ?_, fun s s1 c f w i op win request open_ stored => ?_,
    fun s t cid w win k found wf given => ?_, fun queue s q ready => ?_, fun queue s q e ready filled now => ?_,
    fun queue s q e ready filled waits formed unreached room => ?_, fun queue s q e ready waiting reached => ?_⟩
  · show execPacketPlaced conn space psn s = _
    simp only [execPacketPlaced, found, flying, place, if_true, placed]
    rfl
  · simp only [placeEffect, op, win, open_, stored, Bool.false_eq_true, if_false]
  · simp only [answerAtomic, open_, read, stored, Bool.false_eq_true, if_false]
  · simp only [placeEffect, placeResponse, op, win, request, open_, stored, Bool.false_eq_true, if_false, if_true]
  · obtain rfl | rfl := given
    · exact caskOf_placeAccumulate cid found wf
    · exact caskOf_placePartial cid found wf
  · show execWorkRequestExecute queue s = _
    simp only [execWorkRequestExecute, ready, List.isEmpty_nil, if_true]
  · show execWorkRequestExecute queue s = _
    have given : ¬ e.isEmpty = true := by simpa using filled
    have due : ¬ (wrCounterWait e = true ∧ wrWellFormed s queue e = true ∧ ¬ counterReached s e = true) := by
      rintro ⟨waits, formed, unreached⟩
      obtain plain | malformed | reached := now
      · exact absurd waits (by simp [plain])
      · exact absurd formed (by simp [malformed])
      · exact unreached reached
    simp only [execWorkRequestExecute, ready, if_neg given, if_neg due]
  · show execWorkRequestExecute queue s = _
    have given : ¬ e.isEmpty = true := by simpa using filled
    have space : waitCount s < Config.counterWaits := room
    simp only [execWorkRequestExecute, ready, if_neg given, waits, formed, unreached, Bool.false_eq_true, not_false_eq_true,
      and_self, if_true, if_pos space]
  · show execCounterWaitRelease queue s = _
    simp only [execCounterWaitRelease, ready, waiting, reached, and_self, if_true]

end Sys2Proof.Machine

/-! PROOFS. The timers of a connection and the events of the Trellis ring complete (R119 to R130, R145, R148, R154, R155). -/

namespace Sys2Proof.Machine

set_option autoImplicit false

/-- Settles O40. -/
theorem connectionTimersComplete : Obligations.ConnectionTimersComplete := by
  refine ⟨fun id space g s c found gap untold => ?_, fun id space s c found due => ?_,
    fun id space psn s c x found may sent same tries => ?_, fun id s c found =>
      ⟨fun may spent => ?_, fun sealed_ state spent => ?_, fun s0 fetching read => ?_, fun f fetching failed => ?_,
        fun closing idle gone => ?_⟩,
    fun id path s => ⟨rfl, rfl⟩⟩
  · show execAckGapTimer id space s = _
    simp only [execAckGapTimer, found, gap, if_neg untold]
  · show execAckIdleTimer id space s = _
    simp only [execAckIdleTimer, found, if_pos due]
  · show execRetransmitTimeout id space psn s = _
    have again : (connTx c (space == 1)).unacked.any (fun x => x.psn == psn && decide (x.attempts < Config.attemptLimit)) = true :=
      List.any_eq_true.mpr ⟨x, sent, by
        have few : x.attempts < Config.attemptLimit := tries
        simp [same, few]⟩
    simp only [execRetransmitTimeout, found, may, again, and_self, if_true]
  · show execAttemptLimit id s = _
    simp only [execAttemptLimit, found, may, spent, and_self, if_true]
  · show execSealCounterExhausted id s = _
    simp only [execSealCounterExhausted, found, if_pos (And.intro sealed_ (And.intro state spent))]
  · show execContextFetchDone id s = _
    simp only [execContextFetchDone, found, fetching, not_true_eq_false, if_false, read]
  · show execContextFetchDone id s = _
    simp only [execContextFetchDone, found, fetching, not_true_eq_false, if_false, failed]
  · show execConnRemove id s = _
    have free : (gloveOf s c.owner).reset.isNone = true ∨ s.outstanding.any (fun o => o.wait == .connGone id) = true :=
      gone.imp_left Option.isNone_iff_eq_none.mpr
    simp only [execConnRemove, found, closing, idle, free, Bool.false_eq_true, not_false_eq_true, and_self, if_true]

/-- A heartbeat that its port takes and injection passes on alone reaches the membership. -/
theorem exec_heartbeat {w : WraPacket} {s s1 : State} (open_ : portOpen s w.port = true) (ring : 8 ≤ w.port)
    (datagram : isWra s w = true)
    (passed : injectPort { s with clock := { s.clock with cycle := w.cycle } } true w.port { op := 0x0E, pkt := w } =
      ([{ op := 0x0E, pkt := w }], s1)) :
    exec (.heartbeat w) s = .next (heartbeatIn s1 w) := by
  show execHeartbeat w s = _
  rw [execHeartbeat, if_neg (not_not_intro ⟨open_, ring, datagram⟩), passed]
  rfl

/-- Settles O41. -/
theorem ringEventsComplete : Obligations.RingEventsComplete := by
  refine ⟨fun w s s1 open_ ring datagram intact passed => ⟨fun other near => ?_, fun own joining link8 link9 => ?_⟩,
    fun s on inserted => congrArg Host.Outcome.next (if_pos ⟨on, inserted⟩), fun m s member => ?_,
    fun port s => ⟨fun open_ => congrArg Host.Outcome.next (if_pos open_), rfl⟩⟩
  · rw [exec_heartbeat open_ ring datagram passed]
    simp only [heartbeatIn, intact, not_true_eq_false, if_false, if_neg other, if_neg (Nat.not_le.mpr near)]
  · rw [exec_heartbeat open_ ring datagram passed]
    simp only [heartbeatIn, intact, not_true_eq_false, if_false, if_pos own, joining, link8, link9, and_self, if_true]
  · show execMemberTimeout m s = _
    rw [execMemberTimeout, if_neg fun ⟨_, _, absent⟩ => absent member, if_pos member]

end Sys2Proof.Machine

/-! PROOFS. The events of Gloves and functions and of the Entropy Unit complete (R341 to R351, R374 to R394, R413, R422); those
of the integrity controller do not all complete as stated (R450, R454). -/

namespace Sys2Proof.Machine

set_option autoImplicit false

/-- Settles O42. -/
theorem gloveEventsComplete : Obligations.GloveEventsComplete := by
  refine ⟨fun g us s r resetting quiet => ⟨fun sound roots nonce => ?_, fun sound roots first starved => ?_, ?_, ?_⟩,
    fun fn cycle s exists_ => congrArg Host.Outcome.next (if_pos exists_), fun fn s pending => if_pos pending,
    fun cycle s ready => if_pos ready, fun cycle s => rfl,
    fun n s ready clear few => congrArg Host.Outcome.next (if_pos ⟨ready, by simp [clear], few⟩)⟩
  · show execGloveResetEnd g us true s = _
    have served : ¬ (¬ r.nonce = true ∧ (s.ent.state = .startup ∨ s.ent.reserve = 0)) := by
      rintro ⟨first, starved⟩
      obtain drawn | ⟨started, stocked⟩ := nonce
      · exact first drawn
      · exact starved.elim started stocked
    simp only [execGloveResetEnd, resetting, quiet, not_true_eq_false, if_false, sound, roots, Bool.false_eq_true, or_self,
      if_neg served]
  · show execGloveResetEnd g us true s = _
    simp only [execGloveResetEnd, resetting, quiet, not_true_eq_false, if_false, sound, roots, Bool.false_eq_true, or_self,
      first, starved, not_false_eq_true, and_self, if_true]
    rfl
  · show execGloveResetEnd g us false s = _
    simp only [execGloveResetEnd, resetting, quiet, not_true_eq_false, if_false, Bool.false_eq_true, not_false_eq_true, if_true]
  · show execQuiescenceTimeout g us s = _
    simp only [execQuiescenceTimeout, resetting, quiet, if_true]

/-- Settles O43. -/
theorem entropyEventsComplete : Obligations.EntropyEventsComplete := by
  refine ⟨fun s delivers => ⟨if_neg (not_not_intro delivers), if_neg (not_not_intro delivers)⟩,
    fun test a b window spareWindow s s1 s2 hit moved st named some_ discarded moves state => ?_,
    fun s s1 passed starting trial good seated starts enough => ?_, fun late s => ⟨fun up => ?_, fun failed => ?_⟩⟩
  · show execHealthTestFail test a b window spareWindow s = _
    have given : ¬ hit.isEmpty = true := by simpa using some_
    subst state
    simp only [execHealthTestFail, named, if_neg given, discarded, moves]
  · show execEntropyStartupDone passed s = _
    have given : ¬ (onTrial s.ent).isEmpty = true := by simpa using trial
    have allGood : (onTrial s.ent).filter (fun i => passed.getD i false) = onTrial s.ent := List.filter_eq_self.mpr good
    have noneBad : (onTrial s.ent).filter (fun i => !passed.getD i false) = [] :=
      List.filter_eq_nil_iff.mpr fun i listed => by rw [good i listed]; decide
    simp only [execEntropyStartupDone, if_neg given, allGood, noneBad, List.foldl_nil, List.filter_nil, seated, starts, ne_eq,
      not_true_eq_false, if_false, enough, if_true]
  · show execKeyRemask late s = _
    obtain ready | degraded := up
    · simp only [execKeyRemask, ready]
    · simp only [execKeyRemask, degraded]
  · show execKeyRemask late s = _
    simp only [execKeyRemask, failed]

/-! ### The end of a scheduled scan -/

/-- The module while Vat 0 is scanned as a suspect. -/
def scanningVat : State := setVat State.reset 0 (fun v => { v with state := .testing, out := true, scheduled := true })

/-- Vat 0 is still marked as scheduled for a scan. -/
def scanStillScheduled : Host.Outcome State Fault Refusal → Bool
  | .next t => (vatOf t 0).scheduled
  | _ => true

/-- Refutes O44: a scan that ends is scheduled no more, which the statement leaves out (R450, R454). -/
theorem not_integrityEventsComplete : ¬ Obligations.IntegrityEventsComplete := by
  rintro ⟨-, -, -, scanDone, -⟩
  have same := congrArg scanStillScheduled (scanDone 0 0 true scanningVat rfl rfl)
  have ended : scanStillScheduled (exec (.scanDone 0 true 0) scanningVat) = false := by decide +kernel
  rw [ended] at same
  exact absurd same (by decide +kernel)

end Sys2Proof.Machine
/-! PROOFS. Power, the state after reset, and the full reset (O45, O46, O47, O57). -/

namespace Sys2Proof.Machine

set_option autoImplicit false

/-! ### Power -/

/-- Settles O45. -/
theorem powerEventsComplete : Obligations.PowerEventsComplete := by
  refine ⟨fun cond s on => congrArg Host.Outcome.next (if_pos (powered_of_on on)), fun r s aux => if_pos aux,
    fun cause s on => congrArg Host.Outcome.next (if_pos (powered_of_on on)),
    fun s tripped low => congrArg Host.Outcome.next (if_pos ⟨tripped, by simp [low]⟩),
    fun src s monitored runs => ?_, fun s gone => if_neg (by simp [gone]), fun s standby => if_pos standby,
    fun s on => ⟨fun held => ?_, congrArg Host.Outcome.next (if_pos (powered_of_on on)), ?_⟩, fun s standby => ?_,
    fun s tripped => ⟨?_, ?_⟩, fun s aux => ?_, fun s off => if_pos off, fun s aux => if_pos aux⟩
  · show execTamperTrip src s = _
    simp only [execTamperTrip, monitored, runs, Bool.false_eq_true, not_false_eq_true, and_self, if_true]
    exact congrArg Host.Outcome.next (if_congr beq_iff_eq rfl rfl)
  · show execPwrGood s = _
    have waits : ¬ (s.pwr.perst = true ∧ s.pwr.perstEarly = true) := by
      rintro ⟨perst, early⟩
      obtain released | late := held
      · simp [released] at perst
      · simp [late] at early
    simp only [execPwrGood, powered_of_on on, not_true_eq_false, if_false, if_neg waits]
    rfl
  · show execInputPowerLoss s = _
    simp only [execInputPowerLoss, on]
    rfl
  · show execInputPowerLoss s = _
    simp only [execInputPowerLoss, standby]
    rfl
  · show execInputPowerLoss s = _
    simp only [execInputPowerLoss, setPwr, tripped]
  · show execPwrEnFall s = _
    have off : ¬ powered s = true := by simp [powered, tripped]
    simp only [execPwrEnFall, if_neg off, setPwr]
  · show execInputPowerRise s = _
    simp only [execInputPowerRise, setPwr, aux, if_true]

/-! ### The state after reset -/

/-- Settles O46. -/
theorem resetState : Obligations.ResetState :=
  ⟨rfl, ⟨rfl, fun _ listed => List.eq_of_mem_replicate listed ▸ ⟨rfl, rfl, rfl⟩⟩, ⟨rfl, rfl, rfl⟩,
    ⟨rfl, rfl, fun _ listed => List.eq_of_mem_replicate listed ▸ ⟨rfl, rfl⟩⟩, ⟨rfl, rfl, rfl⟩,
    ⟨rfl, rfl, rfl, rfl, rfl, rfl⟩, rfl, rfl, rfl, rfl⟩

/-- Settles O47. -/
theorem resetMeetsShape : Obligations.ResetMeetsShape where
  gloves := rfl
  vats := rfl
  ports := rfl
  sources := rfl
  host := rfl
  rings := rfl
  gens := rfl
  incs := rfl
  casks := rfl
  spill := rfl
  images := rfl

/-! ### The full reset -/

/-- Choosing the slot that boots touches the firmware alone, and there leaves the boot epoch. -/
theorem tryBoot_fw (s : State) (order : List (Nat × Bool)) :
    ∃ fw : Firmware, tryBoot s order = { s with fw := fw } ∧ fw.epoch = s.fw.epoch := by
  induction order generalizing s with
  | nil => exact ⟨_, rfl, rfl⟩
  | cons slot rest ih =>
    rw [tryBoot]
    split
    · exact ⟨_, rfl, rfl⟩
    · obtain ⟨fw, boots, epoch⟩ := ih (setFw s (fun f => setFwSlot f slot.1 (fun x => { x with state := .invalid })))
      refine ⟨fw, boots, epoch.trans ?_⟩
      simp only [setFw, setFwSlot]
      split <;> rfl

/-- A boot touches the calendar, the keys and the firmware, and takes the next boot epoch. -/
theorem beginBoot_parts (s : State) : ∃ (cal : Calendar) (keys : Keys) (fw : Firmware),
    beginBoot s = { s with cal := cal, keys := keys, fw := fw } ∧ fw.epoch = (s.fw.epoch + 1) % 2 ^ 32 := by
  obtain ⟨fw, boots, epoch⟩ := tryBoot_fw _ _
  exact ⟨_, _, fw, boots, epoch⟩

/-- A full reset takes away what `loseLogic` does, whether its boot begins or waits for PERST_N. -/
theorem fullReset_parts (s : State) : ∃ (cal : Calendar) (keys : Keys) (fw : Firmware),
    fullReset s = { loseLogic s with cal := cal, keys := keys, fw := fw } ∧
    (s.pwr.perst = false → fw.epoch = (s.fw.epoch + 1) % 2 ^ 32) := by
  unfold fullReset
  split
  · next held => exact ⟨_, _, _, rfl, fun released => absurd held (by simp [released])⟩
  · obtain ⟨cal, keys, fw, boots, epoch⟩ := beginBoot_parts (loseLogic s)
    exact ⟨cal, keys, fw, boots, fun _ => epoch⟩

/-- Settles O57. -/
theorem fullResetFreesGloves : Obligations.FullResetFreesGloves := by
  intro s
  obtain ⟨cal, keys, fw, resets, epoch⟩ := fullReset_parts s
  rw [resets]
  exact ⟨rfl, fun _ listed => List.eq_of_mem_replicate listed ▸ rfl, epoch, rfl, rfl, rfl, rfl, rfl⟩

end Sys2Proof.Machine
